-- ==== Sys2Proof/Word.lean ====
section
/-!
DEFINITION. The word types of the device and their plainest arithmetic.
-/

namespace Sys2Proof

/-- A byte of memory or of a message. -/
abbrev Byte := BitVec 8

/-- A control-page register, or one half of a 64-bit field. -/
abbrev W32 := BitVec 32

/-- A scalar register, an address register or an instruction word (R112, R113). -/
abbrev W64 := BitVec 64

/-- A count of nanoseconds of a die's time base (R267). -/
abbrev Ns := Nat

/-- The number of a die: 0 is west, 1 is east. -/
abbrev Die := Fin 2

/-- The other die of the device. -/
def otherDie (d : Die) : Die := 1 - d

/-- Integer division rounding up. -/
def ceilDiv (a b : Nat) : Nat := (a + b - 1) / b

end Sys2Proof
end

