-- ==== Sys2Proof/Syntax.lean ====
section
/-!
DEFINITION. The commands of the block: one constructor of Instr for each row of spec/opcode_table.json,
and the operand types they carry.
-/

namespace Sys2Proof

/-- A block named by type code (Table 15-8) and instance (Table 01-1): a writer, a holder, an originator (R17, R302). -/
structure Agent where
  ty : Nat
  inst : Nat
deriving DecidableEq, Repr

/-- How a control access reaches its page (R290): through BAR0 or BAR2, over I3C, over the management network, or as a remote operation to
space 2. `msix` reaches no page but BAR2 from 0x3_0000 on: the MSI-X table and its pending bits (R275), a "page" being 4 KiB of them. -/
inductive Path where
  | bar | msix | i3c | mgmt | remote
deriving DecidableEq, Repr

/-- A leased resource of Table 15-11. Banks 0 to 511 are pillar banks, 512 to 543 gallery banks; channels are 4 × engine + channel. -/
inductive Res where
  | bank (b : Fin 544)
  | channel (c : Fin 256)
  | mailbox (m : Fin 32)
  | routeLock (d : Die)
  | stackHold (k : Fin 8)
deriving DecidableEq, Repr

/-- A message of the remote-op layer: the header of Table 11-1 with its data (R213). -/
structure Msg where
  opc : BitVec 8
  sub : BitVec 4
  cls : BitVec 2
  lenM1 : BitVec 13
  seq : BitVec 32
  addr : BitVec 64
  deadline : BitVec 64
  src : BitVec 15
  agent : BitVec 12
  kind : BitVec 4
  epoch : BitVec 32
  gen : BitVec 16
  tag : BitVec 16
  reason : BitVec 8
  bell : BitVec 5
  ack : BitVec 32
  incarn : BitVec 32
  data : List Byte
  /-- no field of the header: it has come into the device by a link port (R362) -/
  entered : Bool := false
  /-- no field of the header: the deadline of the operation that a FILL serves, by which its home ranks it (R263) -/
  due : Option Nat := none
deriving DecidableEq, Repr

/-- A port-A access that the array performs in the same cycle as a port-B access (R141, R142). -/
inductive PortA where
  /-- the LDS, STS, VLD or VST whose word stands at the stope's pc -/
  | access (st : Fin 512) (word : W64)
  /-- a weight read of the stope's running face tile, of the weight word that holds this bank offset -/
  | faceRead (st : Fin 512) (offset : Nat)
  /-- any other read of the operation at the head of the stope's queue: its descriptor, headers, scales and operands -/
  | operandRead (st : Fin 512) (offset : Nat)
  /-- a read of the stope's running sweep, of the word at this offset -/
  | sweepRead (st : Fin 512) (offset : Nat)
  /-- a read of the stope's running quantise operation -/
  | quantRead (st : Fin 512) (offset : Nat)
  /-- an output write of the stope's running operation -/
  | outWrite (st : Fin 512) (offset : Nat)
  /-- a poll of the stope's WAITF -/
  | poll (st : Fin 512)
deriving DecidableEq, Repr

/-- What the array meets in the cycle of a port-B access: the accesses that wait for port A then, of which it serves one (R137), and whether
the word turns out to hold an uncorrectable error (R139). -/
structure BankCycle where
  portA : List PortA
  bad : Bool
deriving DecidableEq, Repr

/-- A group sum that a faulty face got wrong: the value it produced for a row, token and group (R335, R336). -/
structure SumErr where
  row : Nat
  tok : Nat
  grp : Nat
  n : Int
deriving DecidableEq, Repr

/-- An error the stack's ECC meets in a sector (R165): the space-0 offset of the sector; uncorrectable or corrected. -/
structure SectorErr where
  offset : Nat
  fatal : Bool
deriving DecidableEq, Repr

/-- How the PCIe read of a host request's data ended (R280). -/
inductive HostRead where
  | ok (data : List Byte)
  | unsupported
  | aborted
  | poisoned
deriving DecidableEq, Repr

/-- The clock whose PLL lost lock (Table 18-4, kind 0x09). -/
inductive Pll where
  | cclk | mclk | hclk | bclk
deriving DecidableEq, Repr

/-- Why a reset happens (R369). -/
inductive ResetCause where
  | lowPulse (ns : Nat)
  | powerLoss
deriving DecidableEq, Repr

/-- A monitored rail (rows of Table 17-7). VHBM is one supply per stack. -/
inductive Rail where
  | vcore (d : Die) | vsram | vaon | vlink | vhbm (k : Fin 8) | vio
deriving DecidableEq, Repr

/-- The commands. Stope instructions carry the stope and the fields D, A, B and IMM of their word (Table 06-1). -/
inductive Instr where
  | nop (st : Fin 512) (d a b : Byte) (imm : W32)
  | add (st : Fin 512) (d a b : Byte) (imm : W32)
  | sub (st : Fin 512) (d a b : Byte) (imm : W32)
  | and (st : Fin 512) (d a b : Byte) (imm : W32)
  | or (st : Fin 512) (d a b : Byte) (imm : W32)
  | xor (st : Fin 512) (d a b : Byte) (imm : W32)
  | shl (st : Fin 512) (d a b : Byte) (imm : W32)
  | shr (st : Fin 512) (d a b : Byte) (imm : W32)
  | mul (st : Fin 512) (d a b : Byte) (imm : W32)
  | min (st : Fin 512) (d a b : Byte) (imm : W32)
  | max (st : Fin 512) (d a b : Byte) (imm : W32)
  | addi (st : Fin 512) (d a b : Byte) (imm : W32)
  | andi (st : Fin 512) (d a b : Byte) (imm : W32)
  | xori (st : Fin 512) (d a b : Byte) (imm : W32)
  | shli (st : Fin 512) (d a b : Byte) (imm : W32)
  | shri (st : Fin 512) (d a b : Byte) (imm : W32)
  | movhi (st : Fin 512) (d a b : Byte) (imm : W32)
  | lds (st : Fin 512) (d a b : Byte) (imm : W32)
  | sts (st : Fin 512) (d a b : Byte) (imm : W32)
  | time (st : Fin 512) (d a b : Byte) (imm : W32)
  | amov (st : Fin 512) (d a b : Byte) (imm : W32)
  | smov (st : Fin 512) (d a b : Byte) (imm : W32)
  | aadd (st : Fin 512) (d a b : Byte) (imm : W32)
  | loop (st : Fin 512) (d a b : Byte) (imm : W32)
  | beq (st : Fin 512) (d a b : Byte) (imm : W32)
  | bne (st : Fin 512) (d a b : Byte) (imm : W32)
  | blt (st : Fin 512) (d a b : Byte) (imm : W32)
  | bge (st : Fin 512) (d a b : Byte) (imm : W32)
  | bltu (st : Fin 512) (d a b : Byte) (imm : W32)
  | jmp (st : Fin 512) (d a b : Byte) (imm : W32)
  | halt (st : Fin 512) (d a b : Byte) (imm : W32)
  | reservedOpcode (st : Fin 512) (word : W64)
  | face (st : Fin 512) (d a b : Byte) (imm : W32)
  | upd (st : Fin 512) (d a b : Byte) (imm : W32)
  | quant (st : Fin 512) (d a b : Byte) (imm : W32)
  | vadd (st : Fin 512) (d a b : Byte) (imm : W32)
  | vsub (st : Fin 512) (d a b : Byte) (imm : W32)
  | vmul (st : Fin 512) (d a b : Byte) (imm : W32)
  | vfma (st : Fin 512) (d a b : Byte) (imm : W32)
  | vmax (st : Fin 512) (d a b : Byte) (imm : W32)
  | vmin (st : Fin 512) (d a b : Byte) (imm : W32)
  | vdiv (st : Fin 512) (d a b : Byte) (imm : W32)
  | vsqrt (st : Fin 512) (d a b : Byte) (imm : W32)
  | vexp2 (st : Fin 512) (d a b : Byte) (imm : W32)
  | vcvt (st : Fin 512) (d a b : Byte) (imm : W32)
  | vsum (st : Fin 512) (d a b : Byte) (imm : W32)
  | vamax (st : Fin 512) (d a b : Byte) (imm : W32)
  | vbcast (st : Fin 512) (d a b : Byte) (imm : W32)
  | vld (st : Fin 512) (d a b : Byte) (imm : W32)
  | vst (st : Fin 512) (d a b : Byte) (imm : W32)
  | put (st : Fin 512) (d a b : Byte) (imm : W32)
  | get (st : Fin 512) (d a b : Byte) (imm : W32)
  | atom (st : Fin 512) (d a b : Byte) (imm : W32)
  | flag (st : Fin 512) (d a b : Byte) (imm : W32)
  | mcast (st : Fin 512) (d a b : Byte) (imm : W32)
  | fence (st : Fin 512) (d a b : Byte) (imm : W32)
  | wait (st : Fin 512) (d a b : Byte) (imm : W32)
  | waitf (st : Fin 512) (d a b : Byte) (imm : W32)
  | waitfPoll (st : Fin 512)
  | waitfTimeout (st : Fin 512)
  | waitt (st : Fin 512) (d a b : Byte) (imm : W32)
  | waittExpiry (st : Fin 512)
  | waitall (st : Fin 512) (d a b : Byte) (imm : W32)
  | hoist (st : Fin 512) (d a b : Byte) (imm : W32)
  -- program control (R132, R133)
  | progCmdNone (w : Agent) (st : Fin 512)
  | progLoad (w : Agent) (st : Fin 512)
  | progLoadDone (st : Fin 512)
  | progLaunch (w : Agent) (st : Fin 512)
  | progStop (w : Agent) (st : Fin 512)
  | stopeReadyReturn (st : Fin 512)
  -- long operations of a stope
  | facePassComplete (st : Fin 512) (errs replayErrs : List SumErr)
  | faceTileComplete (st : Fin 512)
  | canaryCopyDone (st : Fin 512)
  | canaryResultReturn (st : Fin 512) (errs replayErrs partnerErrs : List SumErr)
  | updComplete (st : Fin 512)
  | quantComplete (st : Fin 512)
  | amaxSlotClear (w : Agent) (st : Fin 512) (value : W32)
  | totalsClear (w : Agent) (st : Fin 512) (value : W32)
  -- banks, tallies and leases
  | bankPortBAccess (b : Fin 544) (cyc : BankCycle)
  | modeNormal (w : Agent) (b : Fin 544)
  | modeStartup (w : Agent) (b : Fin 544)
  | modeTest (w : Agent) (b : Fin 544)
  | modeRecovery (w : Agent) (b : Fin 544)
  | modeChangeApplied (b : Fin 544)
  | handover (w : Agent) (r : Res) (next : Agent)
  | forcedRecall (w : Agent) (r : Res) (next : Agent)
  | leaseEndWrite (w : Agent) (r : Res) (l : W32)
  | leaseEnd (r : Res)
  | iadd32 (b : Fin 544) (cyc : BankCycle)
  | iadd64 (b : Fin 544) (cyc : BankCycle)
  | fadd32 (b : Fin 544) (cyc : BankCycle)
  | fadd16 (b : Fin 544) (cyc : BankCycle)
  | swap (b : Fin 544) (cyc : BankCycle)
  | cas (b : Fin 544) (cyc : BankCycle)
  | flagSet (b : Fin 544) (cyc : BankCycle)
  | flagAdd (b : Fin 544) (cyc : BankCycle)
  -- stacks
  | stackAccess (k : Fin 8) (errs : List SectorErr)
  | regionRemapDone (k : Fin 8)
  | refresh (k : Fin 8)
  | stackTempSample (k : Fin 8) (celsius : Byte)
  | stackResume (w : Agent) (k : Fin 8)
  | stackZeroingDone (k : Fin 8)
  -- hoist descriptors and events
  | head (c : Fin 256)
  | move (c : Fin 256)
  | expand (c : Fin 256)
  | compress (c : Fin 256)
  | table (c : Fin 256)
  | kvgather (c : Fin 256)
  | setb (c : Fin 256)
  | descLoop (c : Fin 256)
  | descWait (c : Fin 256)
  | hoistWaitPoll (c : Fin 256)
  | hoistWaitTimeout (c : Fin 256)
  | descFlag (c : Fin 256)
  | descFence (c : Fin 256)
  | hoistEnd (c : Fin 256)
  -- events of the running descriptor's step `row` (R202)
  | blockRelease (c : Fin 256) (row : Nat)
  | mapEntryWrite (c : Fin 256) (row : Nat)
  | hoistStepDone (c : Fin 256) (row : Nat)
  | innerOpRetry (c : Fin 256)
  | scriptComplete (c : Fin 256)
  | channelLaunch (w : Agent) (c : Fin 256)
  | channelStop (w : Agent) (c : Fin 256)
  | hoistCntClear (w : Agent) (e : Fin 64) (value : W32)
  -- remote-op layer
  | putMessage (die : Die) (m : Msg)
  | heldPutRelease (die : Die) (m : Msg)
  | getMessage (die : Die) (m : Msg)
  | mcput (port : Fin 24) (m : Msg)
  | comp (die : Die) (m : Msg)
  | ack (die : Die) (m : Msg)
  | ackTimer (die : Die) (dest : BitVec 15) (kind : BitVec 4) (agent : BitVec 12) (cls : BitVec 2)
  | retransmitTimer (op : Nat)
  | deadlineTimer (op : Nat)
  | gets (die : Die) (m : Msg)
  | fill (die : Die) (m : Msg)
  | inv (die : Die) (m : Msg)
  | iack (die : Die) (m : Msg)
  | absent (die : Die) (m : Msg)
  | evict (die : Die) (m : Msg)
  | directoryWriteRelease (die : Die) (line : Nat)
  | sharerLeaseEnd (die : Die) (line : Nat) (sharer : BitVec 15)
  -- links and routing
  | operationFrame (port : Fin 24) (bytes : List Byte)
  | idleFrame (port : Fin 24) (bytes : List Byte)
  | idleFrameTimer (port : Fin 24)
  | frameTransmit (port : Fin 24)
  | frameForward (die : Die) (index : Nat)
  | frameDeadlineDrop (die : Die) (index : Nat)
  | routeNotice (port : Fin 24) (bytes : List Byte)
  | replayTimeout (port : Fin 24)
  | fastRetrain (w : Agent) (port : Fin 24)
  | fullTraining (w : Agent) (port : Fin 24)
  | portOff (w : Agent) (port : Fin 24)
  | fastRetrainDone (port : Fin 24) (ok : Bool)
  | electricalTrainingDone (port : Fin 24) (flight : Option Nat)
  | trainingRetryTimer (port : Fin 24)
  | agreeFrame (port : Fin 24) (bytes : List Byte)
  | agreeRepeatTimer (port : Fin 24)
  | agreeWaitTimeout (port : Fin 24)
  | safeIdleFrame (port : Fin 24) (bytes : List Byte)
  | safeIdleTimer (port : Fin 24)
  -- time
  | timeFrame (port : Fin 24) (bytes : List Byte)
  | timeFrameTimer (port : Fin 24)
  | bridgeTimeExchange (die : Die)
  | timeSourceTimeout (die : Die)
  | timeDoubtSafeTimeout
  | ppsEdge (highNs : Nat)
  | ppsAbsenceTimeout
  | attestationFrame (port : Fin 24) (bytes : List Byte)
  | attestationTimeout (port : Fin 24)
  | mcCombineTimeout (die : Die) (copy : Nat)
  | floorTargetWrite (w : Agent) (die : Die) (value : W32)
  | throttleWrite (w : Agent) (die : Die) (value : W32)
  -- host port
  | rqTailWrite (value : W32)
  | requestFetch (bytes : List Byte)
  | hostDataReadDone (op : Nat) (result : HostRead)
  | cqHeadWrite (value : W32)
  | queueEnable (w : Agent)
  | queueDisable (w : Agent)
  | functionLevelReset
  | apertureRead (offset : BitVec 36) (len : Nat)
  | apertureWrite (offset : BitVec 36) (data : List Byte)
  | apertureWriteRelease
  | pcieConfigRequest (offset : Nat)
  | doorbellClear (value : W32)
  | dbMaskHostWrite (value : W32)
  | dbMaskHfWrite (w : Agent) (value : W32)
  | mailboxPost (m : Fin 32) (bytes : List Byte)
  | mailboxPop (w : Agent) (m : Fin 32)
  -- register pages and profiles
  | registerWrite (w : Agent) (path : Path) (die : Die) (page : BitVec 13) (offset : BitVec 12) (bytes : List Byte)
  | readAndClear (path : Path) (die : Die) (page : BitVec 13) (offset : BitVec 12) (size : Nat)
  | timeLoRead (die : Die)
  | recordRead (die : Die)
  | blkCommit (w : Agent) (die : Die) (page : BitVec 13) (g : W32)
  | commitApplied (die : Die) (page : BitVec 13)
  | profileCommit (w : Agent) (die : Die) (g : W32)
  | profileCopyStart (die : Die)
  | profileCopyDone (die : Die)
  -- module power, reset and bring-up
  | powerUp
  | reset (cause : ResetCause)
  | resetRelease
  | bankZeroingDone
  | securitySelfTestDone (pass : Bool)
  | bridgeTrained
  | bridgeTrainingTimeout
  | headframeImageVerified (image : List Byte)
  | foremanImageVerified (image : List Byte)
  | pcieLinkTrained
  | headframeHeartbeat
  | headframeTakeover
  | firstHeartbeatTimeout
  | foremanLost (f : Fin 8)
  | musterFrame (bytes : List Byte)
  | chainFrameGap
  | assign (w : Agent) (value : W32)
  | musterExpiry
  | deviceReady
  | peerDisagreementTimeout
  | pinFuncWrite (w : Agent) (hi : Bool) (value : W32)
  | pinParkEnd
  -- power domains, clocks and heat
  | domainOn (w : Agent) (f : Fin 8) (idx : Nat)
  | domainPoweredUp (dom : Fin 96)
  | domainOff (w : Agent) (f : Fin 8) (idx : Nat)
  | domainPowerRemoved (dom : Fin 96)
  | dvfsClockSwitch (die : Die)
  | dvfsChangeEnd (die : Die)
  | pllLockLoss (die : Die) (pll : Pll)
  | railSample (r : Rail) (inBounds : Bool)
  | inputSample (millivolts : Nat)
  | powerMonitorReport (meanWatts : Nat)
  | junctionSample (hl : Fin 64) (celsius : Byte)
  | thermtrip
  -- faults, drain and split
  | poweredSecondWrite (die : Die)
  | drainWindowEnd (die : Die)
  | historySealDone (die : Die)
  | bridgeLockLoss
  | bridgeProgressTimeout
  | bridgeRetrainTimeout
  -- keys and attestation
  | keyInstall (w : Agent)
  | keyRetireOne (w : Agent)
  | keyRetireAll (w : Agent)
  | svnRaiseHeadframe (w : Agent)
  | svnRaiseForeman (w : Agent)
  | svnRaiseStope (w : Agent) (floor : Byte)
  | revoke (w : Agent) (slot : Fin 4)
  -- each carries its SPDM message from Param1 on
  | getVersion (message : List Byte)
  | getCapabilities (message : List Byte)
  | negotiateAlgorithms (message : List Byte)
  | getDigests (message : List Byte)
  | getCertificate (message : List Byte)
  | challenge (message : List Byte)
  | getMeasurements (message : List Byte)
  | keyExchange (message : List Byte)
  | finish (session : Nat) (message : List Byte)
  | heartbeat (session : Nat) (message : List Byte)
  | endSession (session : Nat) (message : List Byte)
  -- the module's pins
  | tachometerNotice
  | captureEdge (capture : Fin 8)
  | captureNotice (capture : Fin 8)
  | entdaa (bus : Fin 2) (address : BitVec 7)
  | i3cPrivateWrite (bus : Fin 2) (bytes : List Byte)
  | i3cPrivateRead (bus : Fin 2)
  | peerSignalDetected (port : Fin 24)
  | tachometerEdge (fan : Fin 4)
  | heldPutDeadline (die : Die) (m : Msg)
  | resetHoldEnd
deriving DecidableEq, Repr

end Sys2Proof
end

