-- ==== Sys2Proof/Decode.lean ====
section
/-!
DEFINITION. The command a word spells by the command table's bits. No row of the table gives bits: commands of this
block come from outside it as events and accesses, not as words.
-/

namespace Sys2Proof

/-- No row of the command table has bits, so no word spells a command. -/
def decodeTableWord (nbits w : Nat) : Option Instr :=
  match nbits, w with
  | _, _ => none

end Sys2Proof
end

