-- ==== Sys2Proof/Machine/Bits.lean ====
section
/-!
DEFINITION. Bit fields, byte order, the two CRCs (R180, Table 12-1) and the counter-based generator of R49.
-/

namespace Sys2Proof

/-- Bits [hi:lo] of a number. -/
def bitsOf (x hi lo : Nat) : Nat := (x >>> lo) % 2 ^ (hi + 1 - lo)

/-- Field [hi:lo] of a register or word. -/
def fld {w : Nat} (x : BitVec w) (hi lo : Nat) : Nat := bitsOf x.toNat hi lo

/-- The word with field [hi:lo] replaced by `v`. -/
def putFld {w : Nat} (x : BitVec w) (hi lo v : Nat) : BitVec w :=
  let old := fld x hi lo
  BitVec.ofNat w (x.toNat - old * 2 ^ lo + (v % 2 ^ (hi + 1 - lo)) * 2 ^ lo)

/-- The number that little-endian bytes spell. -/
def leNat : List Byte → Nat
  | [] => 0
  | b :: rest => b.toNat + 256 * leNat rest

/-- `n` little-endian bytes of a number. -/
def toLE : Nat → Nat → List Byte
  | 0, _ => []
  | n + 1, v => BitVec.ofNat 8 v :: toLE n (v / 256)

/-- `n` bytes of a string from offset `o`; bytes past its end read 0. -/
def sliceB (bs : List Byte) (o n : Nat) : List Byte :=
  let part := (bs.drop o).take n
  part ++ List.replicate (n - part.length) 0

/-- The little-endian number of `n` bytes at offset `o`. -/
def leAt (bs : List Byte) (o n : Nat) : Nat := leNat (sliceB bs o n)

/-- Replace the bytes of a string from offset `o` by `new`. -/
def spliceB (bs : List Byte) (o : Nat) (new : List Byte) : List Byte :=
  sliceB bs 0 o ++ new ++ bs.drop (o + new.length)

/-- Bits [lo+n-1 : lo] of a little-endian bit string (R30). -/
def bitsAt (bs : List Byte) (lo n : Nat) : Nat :=
  (leAt bs (lo / 8) (ceilDiv (lo % 8 + n) 8) >>> (lo % 8)) % 2 ^ n

/-- A bit string, lowest position first, packed into bytes; the last byte is filled with 0 bits. -/
def packBits (bits : List Bool) : List Byte :=
  let val := bits.foldr (fun b acc => (if b then 1 else 0) + 2 * acc) 0
  toLE (ceilDiv bits.length 8) val

/-- The `n` low bits of a number, least significant first. -/
def bitsLsb : Nat → Nat → List Bool
  | 0, _ => []
  | n + 1, v => (v % 2 == 1) :: bitsLsb n (v / 2)

/-- Pack codes of `b` bits each in storage order, least significant bits first (R30). -/
def packCodes (b : Nat) (codes : List Nat) : List Byte :=
  packBits (codes.flatMap (bitsLsb b))

/-- Sign-extend an n-bit number to an integer. -/
def signOf (n v : Nat) : Int := if v % 2 ^ n < 2 ^ (n - 1) then (v % 2 ^ n : Nat) else (v % 2 ^ n : Nat) - (2 ^ n : Nat)

/-- Number of binary digits of a number (0 for 0). -/
def bitLen (m : Nat) : Nat := if m = 0 then 0 else Nat.log2 m + 1

/-- Set bits among the low `n` bits of a number. -/
def popcount : Nat → Nat → Nat
  | 0, _ => 0
  | n + 1, v => v % 2 + popcount n (v / 2)

/-- One bit step of the reflected Castagnoli CRC. -/
def crc32cBit (c : Nat) : Nat := if c % 2 = 1 then (c / 2) ^^^ 0x82F63B78 else c / 2

/-- One byte of the reflected Castagnoli CRC. -/
def crc32cByte (c : Nat) (b : Byte) : Nat :=
  Nat.repeat crc32cBit 8 (c ^^^ b.toNat)

/-- CRC-32C of R180: polynomial 0x1EDC_6F41 reflected, initial value and final XOR 0xFFFF_FFFF. -/
def crc32c (bs : List Byte) : W32 :=
  BitVec.ofNat 32 ((bs.foldl crc32cByte 0xFFFFFFFF) ^^^ 0xFFFFFFFF)

/-- One bit step of the CRC-16 of Table 12-1 (unreflected, polynomial 0x1021). -/
def crc16Bit (c : Nat) : Nat :=
  if c / 32768 % 2 = 1 then ((2 * c) % 65536) ^^^ 0x1021 else (2 * c) % 65536

/-- `HCRC` of Table 12-1: initial value 0xFFFF, unreflected, no final XOR. -/
def crc16 (bs : List Byte) : Nat :=
  bs.foldl (fun c b => Nat.repeat crc16Bit 8 (c ^^^ (b.toNat * 256))) 0xFFFF

/-- One round of Philox4x32 on a counter of four words under a key of two. -/
def philoxRound (c : Nat × Nat × Nat × Nat) (k0 k1 : Nat) : Nat × Nat × Nat × Nat :=
  let p0 := 0xD2511F53 * c.1
  let p1 := 0xCD9E8D57 * c.2.2.1
  let hi (p : Nat) := p / 2 ^ 32
  let lo (p : Nat) := p % 2 ^ 32
  (hi p1 ^^^ c.2.1 ^^^ k0, lo p1, hi p0 ^^^ c.2.2.2 ^^^ k1, lo p0)

/-- `n` rounds of Philox4x32, the key advancing by its increments after each. -/
def philoxRounds : Nat → Nat × Nat × Nat × Nat → Nat → Nat → Nat × Nat × Nat × Nat
  | 0, c, _, _ => c
  | n + 1, c, k0, k1 =>
    philoxRounds n (philoxRound c k0 k1) ((0x9E3779B9 + k0) % 2 ^ 32) ((0xBB67AE85 + k1) % 2 ^ 32)

/-- The word `u` of element `i` (Table 02-7), for a 64-bit seed and step, a 32-bit identifier and a purpose code. -/
def philoxWord (seed ident step purpose i : Nat) : Nat :=
  let q := i / 4
  let k0 := (seed % 2 ^ 32) ^^^ (ident % 2 ^ 32)
  let k1 := seed / 2 ^ 32 % 2 ^ 32
  let c : Nat × Nat × Nat × Nat :=
    (q % 2 ^ 32, q / 2 ^ 32 % 2 ^ 12 + purpose % 256 * 2 ^ 24, step % 2 ^ 32, step / 2 ^ 32 % 2 ^ 32)
  let r := philoxRounds 10 c k0 k1
  match i % 4 with
  | 0 => r.1
  | 1 => r.2.1
  | 2 => r.2.2.1
  | _ => r.2.2.2

end Sys2Proof
end

