-- ==== Sys2Proof/Machine/Fp.lean ====
section
/-!
DEFINITION. IEEE 754 binary32 and BF16 arithmetic, each result the exact one rounded once to nearest,
ties to even, subnormals kept (R127, R53, R154). Values are computed exactly as a mantissa times a power of two.
-/

namespace Sys2Proof

/-- A floating-point type: significand digits, and the exponent of the smallest subnormal. -/
structure FpType where
  prec : Nat
  qmin : Int
  width : Nat
deriving DecidableEq, Repr

/-- IEEE 754 binary32. -/
def fp32 : FpType := ⟨24, -149, 32⟩

/-- BF16: the upper half of binary32 (Table 02-2). -/
def bf16 : FpType := ⟨8, -133, 16⟩

/-- A decoded floating-point value; a finite one is ± m · 2^e. -/
inductive FpVal where
  | nan
  | inf (neg : Bool)
  | fin (neg : Bool) (m : Nat) (e : Int)
deriving DecidableEq, Repr

/-- The value that the bits of a number of type `t` hold. -/
def fpDecode (t : FpType) (x : Nat) : FpVal :=
  let neg := x / 2 ^ (t.width - 1) % 2 == 1
  let ex := x / 2 ^ (t.prec - 1) % 256
  let man := x % 2 ^ (t.prec - 1)
  if ex = 255 then (if man = 0 then .inf neg else .nan)
  else if ex = 0 then .fin neg man t.qmin
  else .fin neg (man + 2 ^ (t.prec - 1)) (t.qmin + (ex - 1 : Nat))

/-- The sign bit of type `t`, set when `neg`. -/
def fpSign (t : FpType) (neg : Bool) : Nat := if neg then 2 ^ (t.width - 1) else 0

/-- The quiet NaN with positive sign (R127). -/
def fpQnan (t : FpType) : Nat := 255 * 2 ^ (t.prec - 1) + 2 ^ (t.prec - 2)

/-- Infinity of a sign. -/
def fpInf (t : FpType) (neg : Bool) : Nat := fpSign t neg + 255 * 2 ^ (t.prec - 1)

/-- Round ± m · 2^e to type `t`, to nearest with ties to even; `sticky` says that the exact magnitude lies
strictly between m and m + 1 units. Overflow gives infinity. -/
def fpRound (t : FpType) (neg : Bool) (m : Nat) (e : Int) (sticky : Bool) : Nat :=
  if m = 0 then fpSign t neg
  else
    let q : Int := max ((bitLen m : Int) + e - t.prec) t.qmin
    let r : Nat :=
      if q ≤ e then m * 2 ^ (e - q).toNat
      else
        let sh := (q - e).toNat
        let base := m / 2 ^ sh
        let rem := m % 2 ^ sh
        let half := 2 ^ (sh - 1)
        if rem > half || (rem == half && (sticky || base % 2 == 1)) then base + 1 else base
    let r' := if r = 2 ^ t.prec then r / 2 else r
    let q' := if r = 2 ^ t.prec then q + 1 else q
    if r' < 2 ^ (t.prec - 1) then fpSign t neg + r'
    else
      let ex := (q' - t.qmin).toNat + 1
      if ex ≥ 255 then fpInf t neg
      else fpSign t neg + ex * 2 ^ (t.prec - 1) + (r' - 2 ^ (t.prec - 1))

/-- The signed mantissa of two finite values over a common exponent. -/
def fpAlign (n1 : Bool) (m1 : Nat) (e1 : Int) (n2 : Bool) (m2 : Nat) (e2 : Int) : Int × Int × Int :=
  let e := min e1 e2
  let a : Int := (m1 * 2 ^ (e1 - e).toNat : Nat)
  let b : Int := (m2 * 2 ^ (e2 - e).toNat : Nat)
  (if n1 then -a else a, if n2 then -b else b, e)

/-- The exact sum of two decoded values, rounded once to `t`. -/
def fpAddVal (t : FpType) : FpVal → FpVal → Nat
  | .nan, _ => fpQnan t
  | _, .nan => fpQnan t
  | .inf a, .inf b => if a = b then fpInf t a else fpQnan t
  | .inf a, .fin .. => fpInf t a
  | .fin .., .inf b => fpInf t b
  | .fin n1 m1 e1, .fin n2 m2 e2 =>
    let (a, b, e) := fpAlign n1 m1 e1 n2 m2 e2
    let c := a + b
    if c = 0 then fpSign t (n1 && n2)
    else fpRound t (c < 0) c.natAbs e false

/-- The exact product of two decoded values, as a decoded value; `none` for an invalid one. -/
def fpMulVal : FpVal → FpVal → FpVal
  | .nan, _ => .nan
  | _, .nan => .nan
  | .inf a, .inf b => .inf (a != b)
  | .inf a, .fin b m _ => if m = 0 then .nan else .inf (a != b)
  | .fin a m _, .inf b => if m = 0 then .nan else .inf (a != b)
  | .fin a m1 e1, .fin b m2 e2 => .fin (a != b) (m1 * m2) (e1 + e2)

/-- Round a decoded value to type `t`. -/
def fpOfVal (t : FpType) : FpVal → Nat
  | .nan => fpQnan t
  | .inf n => fpInf t n
  | .fin n m e => fpRound t n m e false

/-- The value with its sign inverted. -/
def fpNegVal : FpVal → FpVal
  | .nan => .nan
  | .inf n => .inf (!n)
  | .fin n m e => .fin (!n) m e

/-- Sum, rounded once. -/
def fpAdd (t : FpType) (x y : Nat) : Nat := fpAddVal t (fpDecode t x) (fpDecode t y)

/-- Difference, rounded once. -/
def fpSub (t : FpType) (x y : Nat) : Nat := fpAddVal t (fpDecode t x) (fpNegVal (fpDecode t y))

/-- Product, rounded once. -/
def fpMul (t : FpType) (x y : Nat) : Nat := fpOfVal t (fpMulVal (fpDecode t x) (fpDecode t y))

/-- x × y + z, rounded once. -/
def fpFma (t : FpType) (x y z : Nat) : Nat :=
  fpAddVal t (fpMulVal (fpDecode t x) (fpDecode t y)) (fpDecode t z)

/-- Quotient of two decoded values, correctly rounded. -/
def fpDivVal (t : FpType) : FpVal → FpVal → Nat
  | .nan, _ => fpQnan t
  | _, .nan => fpQnan t
  | .inf _, .inf _ => fpQnan t
  | .inf a, .fin b _ _ => fpInf t (a != b)
  | .fin a _ _, .inf b => fpSign t (a != b)
  | .fin a m1 e1, .fin b m2 e2 =>
    if m2 = 0 then (if m1 = 0 then fpQnan t else fpInf t (a != b))
    else if m1 = 0 then fpSign t (a != b)
    else
      let k := t.prec + 3 + bitLen m2
      let num := m1 * 2 ^ k
      fpRound t (a != b) (num / m2) (e1 - e2 - k) (num % m2 != 0)

/-- Quotient, correctly rounded. -/
def fpDiv (t : FpType) (x y : Nat) : Nat := fpDivVal t (fpDecode t x) (fpDecode t y)

/-- One digit of the integer square root, tried at bit `n`. -/
def isqrtAux (v : Nat) : Nat → Nat → Nat
  | 0, r => r
  | n + 1, r =>
    let c := r + 2 ^ n
    isqrtAux v n (if c * c ≤ v then c else r)

/-- The integer square root, rounded down. -/
def isqrt (v : Nat) : Nat := isqrtAux v (bitLen v / 2 + 1) 0

/-- Square root, correctly rounded; of a negative number other than −0 it is NaN, as IEEE 754 says. -/
def fpSqrt (t : FpType) (x : Nat) : Nat :=
  match fpDecode t x with
  | .nan => fpQnan t
  | .inf n => if n then fpQnan t else fpInf t false
  | .fin n m e =>
    if m = 0 then fpSign t n
    else if n then fpQnan t
    else
      let k : Nat := 2 * t.prec + 4 + (if e % 2 = 0 then 0 else 1)
      let v := m * 2 ^ k
      let r := isqrt v
      fpRound t false r ((e - k) / 2) (r * r != v)

/-- Fraction digits carried by the computation of 2^x. -/
def exp2Digits : Nat := 200

/-- The product of 2^(2^-(k+1)) over the set digits of a binary fraction, most significant first, in fixed point. -/
def exp2Frac : List Bool → Nat → Nat → Nat
  | [], _, acc => acc
  | b :: rest, root, acc =>
    let next := isqrt (root * 2 ^ exp2Digits)
    exp2Frac rest next (if b then acc * next / 2 ^ exp2Digits else acc)

/-- The `n` binary digits of a fraction below 2^n, most significant first. -/
def msbDigits : Nat → Nat → List Bool
  | 0, _ => []
  | n + 1, v => (v / 2 ^ n % 2 == 1) :: msbDigits n v

/-- 2^x, correctly rounded. The value is irrational for every x that is not an integer, so the computed digits,
whose error is far below the last one used, decide the rounding. A magnitude below 2^-40 rounds to 1; one above 300 overflows or vanishes. -/
def fpExp2 (t : FpType) (x : Nat) : Nat :=
  match fpDecode t x with
  | .nan => fpQnan t
  | .inf n => if n then 0 else fpInf t false
  | .fin n m e =>
    if m = 0 then fpRound t false 1 0 false
    else if (bitLen m : Int) + e > 9 then (if n then 0 else fpInf t false)
    else if (bitLen m : Int) + e < -40 then fpRound t false 1 0 true
    else
      let fb : Nat := (-e).toNat
      let mag : Nat := m * 2 ^ e.toNat
      let v : Int := if n then -(mag : Int) else mag
      let ip : Int := v / (2 ^ fb : Nat)
      let fp : Nat := (v % (2 ^ fb : Nat)).toNat
      if fp = 0 then fpRound t false 1 ip false
      else
        let r := exp2Frac (msbDigits fb fp) (2 * 2 ^ exp2Digits) (2 ^ exp2Digits)
        fpRound t false r (ip - exp2Digits) true

/-- Exact order of two decoded numbers: is the first below the second? NaN is below nothing. −0 and +0 are equal. -/
def fpLtVal : FpVal → FpVal → Bool
  | .nan, _ => false
  | _, .nan => false
  | .inf a, .inf b => a && !b
  | .inf a, .fin .. => a
  | .fin .., .inf b => !b
  | .fin n1 m1 e1, .fin n2 m2 e2 =>
    let (a, b, _) := fpAlign n1 m1 e1 n2 m2 e2
    a < b

/-- Is the pattern a NaN? -/
def fpIsNan (t : FpType) (x : Nat) : Bool := fpDecode t x == .nan

/-- Is the pattern an infinity or a NaN? -/
def fpNotFinite (t : FpType) (x : Nat) : Bool := x / 2 ^ (t.prec - 1) % 256 == 255

/-- The magnitude: the pattern with its sign bit clear. -/
def fpAbs (t : FpType) (x : Nat) : Nat := x % 2 ^ (t.width - 1)

/-- VMAX of two lanes (R127): NaN if either is, −0 below +0. -/
def fpMax (t : FpType) (x y : Nat) : Nat :=
  if fpIsNan t x || fpIsNan t y then fpQnan t
  else if fpLtVal (fpDecode t x) (fpDecode t y) then y
  else if fpLtVal (fpDecode t y) (fpDecode t x) then x
  else if x / 2 ^ (t.width - 1) % 2 = 1 then y else x

/-- VMIN of two lanes (R127). -/
def fpMin (t : FpType) (x y : Nat) : Nat :=
  if fpIsNan t x || fpIsNan t y then fpQnan t
  else if fpLtVal (fpDecode t x) (fpDecode t y) then x
  else if fpLtVal (fpDecode t y) (fpDecode t x) then y
  else if x / 2 ^ (t.width - 1) % 2 = 1 then x else y

/-- R53: FP32 to BF16, to nearest with ties to even; a NaN becomes the quiet NaN 0x7FC0 with its sign bit kept. -/
def fpToBf16 (x : Nat) : Nat :=
  match fpDecode fp32 x with
  | .nan => x / 2 ^ 31 % 2 * 2 ^ 15 + 0x7FC0
  | .inf n => fpInf bf16 n
  | .fin n m e => fpRound bf16 n m e false

/-- A BF16 value widens exactly to FP32. -/
def bf16ToFp32 (x : Nat) : Nat := x % 2 ^ 16 * 2 ^ 16

/-- An integer rounded to type `t`; zero is +0. -/
def fpOfInt (t : FpType) (n : Int) : Nat := fpRound t (n < 0) n.natAbs 0 false

/-- Multiply by a power of two; exact unless the result leaves the normal range. -/
def fpScale (t : FpType) (x : Nat) (p : Int) : Nat :=
  match fpDecode t x with
  | .nan => fpQnan t
  | .inf n => fpInf t n
  | .fin n m e => fpRound t n m (e + p) false

end Sys2Proof
end

