-- ==== Sys2Proof/Config.lean ====
section
/-!
DEFINITION. What manufacture fixes and the free values: constants without a body, so that nothing can be proved
about which value they have.
-/

namespace Sys2Proof.Config

/-- Scefort's PCI-SIG Vendor ID (R274, Table 15-13), which the spec does not state. -/
opaque vendorId : BitVec 16
/-- Carrier revision (`MODULE_REV`). -/
opaque carrierRev : BitVec 8
/-- Module serial number. -/
opaque serial : BitVec 64
/-- Year and ISO week of manufacture: [15:0] year, [23:16] week. -/
opaque mfgDate : BitVec 24
/-- Scefort's MIPI manufacturer ID (R379). -/
opaque mipiId : BitVec 15
/-- SHA-384 of each root key slot's public key, fused at manufacture (Table 19-2): byte `i` of slot `k`. -/
opaque keyHash : Nat → Nat → BitVec 8
/-- Byte `i` of the certificate chain in SPDM slot `k` and its length, for the alias key of seed `a` (R363): the identity key, the device
unique secret and the certificates' contents are used only through these values. -/
opaque certByte : Nat → Nat → Nat → BitVec 8
opaque certLen : Nat → Nat → Nat
/-- SHA-384 of the security ROM, measurement 1 (Table 19-4). -/
opaque romDigest : Nat → BitVec 8
/-- A signature by the alias key of seed `a` over the digest of this number, byte `i` of 96 (Table 19-2). -/
opaque aliasSign : Nat → Nat → Nat → BitVec 8
/-- A signature of this number over the digest of this number verifies under the chain of this digest, and the chain is trusted (R364):
how a port comes to trust its peer's chain is not in the spec. -/
opaque peerSigned : Nat → Nat → Nat → Bool
/-- The device's key-exchange data of draw `n`, byte `i` of 96, and the secret it shares with the holder of the data of this number, byte
`i` of 48 (R363). -/
opaque kexPublic : Nat → Nat → BitVec 8
opaque kexSecret : Nat → Nat → Nat → BitVec 8
/-- What an SPDM message holds that the device chooses: byte `i` of draw `n`. -/
opaque spdmByte : Nat → Nat → BitVec 8
/-- The info string with which the key-wrapping key is derived (Table 19-2). -/
opaque kekInfo : List (BitVec 8)
/-- Free values: each use takes the next number of State's counter. -/
opaque freeValue : Nat → BitVec 64
/-- What a register of the PCIe configuration space reads that the spec gives no value for (R274). -/
opaque pcieConfig : Nat → BitVec 32
/-- Whether a word that the arithmetic leaves open to a bank collision reads a free byte (Table 07-3). -/
opaque freeByte : Nat → BitVec 8
/-- A GET of this global address lies in a read-mostly region of another device's die (R230): how a cache die learns
of another die's regions is not in the spec. -/
opaque peerReadMostly : Nat → Bool

/-- How die `d` steers its rate in the ten-microsecond period that ends at time `t` (R268): the algorithm is not in the spec. An
odd value makes the correction of 1 ns that the period allows. -/
opaque steer : Nat → Nat → BitVec 64
/-- The fixed delay of the die-to-die bridge between the time blocks' stamps, in ns (R269). -/
opaque bridgeDelay : Nat
/-- Banks of a pseudo-channel of a stack (R381): JESD270-4 gives the number. -/
opaque stackBanks : Nat

/-- A stack controller reaches an open row out of turn, where R161 allows it, at its nth such choice: when it does is not in the spec. -/
opaque takesAhead : Nat → Bool

/-- PCIe loses the write of the nth completion entry (R280): no command reports it. -/
opaque entryLost : Nat → Bool

/-- Where the configuration space holds the PCI Express and MSI-X capabilities and the extended capabilities of the Data Object Exchange and, for 14-bit
tags, of Device 3 (R274). -/
opaque expressCap : Nat
opaque msixCap : Nat
opaque doeCap : Nat
opaque tagCap : Nat

/-- Power that die `d`'s rails draw at time `t`, W, mean over 1 ms (`DIE_PWR`): no command reports it. -/
opaque diePower : Nat → Nat → BitVec 16

end Sys2Proof.Config
end

