-- ==== Sys2Proof/Machine/Sparse.lean ====
section
/-!
DEFINITION. Finite maps from numbers in one canonical form: keys strictly rising, and no
entry equal to what an unlisted key reads as. Memory and every numbered table of the state use them.
-/

namespace Sys2Proof

/-- A map from numbers, as a list of entries; a key that is not listed reads as a default. -/
abbrev Sparse (α : Type) := List (Nat × α)

/-- What key `k` reads as, with `d` for an unlisted key. -/
def Sparse.get {α : Type} (d : α) : Sparse α → Nat → α
  | [], _ => d
  | (a, v) :: rest, k => if a = k then v else Sparse.get d rest k

/-- Write `v` at key `k`, keeping the canonical form for default `d`. -/
def Sparse.set {α : Type} [DecidableEq α] (d : α) : Sparse α → Nat → α → Sparse α
  | [], k, v => if v = d then [] else [(k, v)]
  | (a, w) :: rest, k, v =>
    if a < k then (a, w) :: Sparse.set d rest k v
    else if a = k then (if v = d then rest else (k, v) :: rest)
    else if v = d then (a, w) :: rest else (k, v) :: (a, w) :: rest

/-- Every listed key is at least `lo`, keys rise strictly, and no entry holds the default. -/
def Sparse.wfFrom {α : Type} [DecidableEq α] (d : α) : Nat → Sparse α → Bool
  | _, [] => true
  | lo, (a, v) :: rest => decide (lo ≤ a) && decide (v ≠ d) && Sparse.wfFrom d (a + 1) rest

/-- The canonical form of a map with default `d`. -/
def Sparse.wf {α : Type} [DecidableEq α] (d : α) (m : Sparse α) : Bool := Sparse.wfFrom d 0 m

/-- Change the entry at `k` by a function. -/
def Sparse.upd {α : Type} [DecidableEq α] (d : α) (m : Sparse α) (k : Nat) (f : α → α) : Sparse α :=
  Sparse.set d m k (f (Sparse.get d m k))

end Sys2Proof
end

