-- ==== Sys2Proof/Machine/Parts.lean ====
section
/-!
DEFINITION. The parts that State is made of: the stope, the bank, the remote-op layer, the router and its
profile copies, the port and the time block. Plain data; every part has a reset value of its own.
-/

namespace Sys2Proof.Machine

/-- `PROG_STATUS.STATE` (Table 06-9). -/
inductive ProgState where
  | empty | loading | ready | running | stopping | rejected
deriving DecidableEq, Repr

/-- The wait that holds a running stope (R128). -/
inductive Waiting where
  /-- WAIT: the completion word of ticket `tk` goes to scalar `d` -/
  | ticket (d tk : Nat)
  /-- WAITF: the flag at `addr` tested against `val` under `test` until `due`; status word to scalar `d` -/
  | flag (d addr : Nat) (val : W64) (test due : Nat)
  /-- WAITT -/
  | until (t : Nat)
  /-- WAITALL -/
  | all
deriving DecidableEq, Repr

/-- A ticket that is taken (R118, R120); `done` is the status word once its operation has completed. -/
structure Ticket where
  num : Nat
  done : Option W32
deriving DecidableEq, Repr

/-- A byte range of the device, by the low 50 bits of its address. -/
structure Span where
  addr : Nat
  len : Nat
deriving DecidableEq, Repr

/-- An outstanding asynchronous operation of a stope's program (R118, R120, R122). -/
structure Async where
  op : Nat
  /-- 0 where sD was s0: no ticket -/
  ticket : Nat
  deadline : Ns
  /-- a PUT, GET, ATOM, FLAG or MCAST, which FENCE and R271 concern -/
  remote : Bool
  reads : List Span
  writes : List Span
deriving DecidableEq, Repr

/-- An active loop (R117): its counter, first and last body words. The count left is in l0 to l3. -/
structure LoopRec where
  ctr : Nat
  first : Nat
  last : Nat
deriving DecidableEq, Repr

/-- A word of a face tile's outputs that has been written: the bytes before and after, and whether the word held an error (R67). -/
structure OutWord where
  addr : Nat
  old : List Byte
  new : List Byte
  bad : Bool
deriving DecidableEq, Repr

/-- The kind of an operation in a stope's operation queue (R121). -/
inductive LongKind where
  | face | upd | quant
deriving DecidableEq, Repr

/-- What a long operation has come to so far: the passes of a face tile (R84, R339), the tiles of a sweep, a quantise operation whose
results are settled. -/
structure FaceRun where
  /-- outputs of a face tile in the order of `Y` -/
  outs : List W32
  /-- bits of the status word above the status and reason -/
  flags : W32
  status : Nat
  reason : Nat
  /-- the fall-back pass has still to end: the tile recomputes on the W4A8 path -/
  fallback : Bool
deriving DecidableEq, Repr

/-- An operation of the stope's queue: its descriptor and headers as read at acceptance (R124, R126, R101). -/
structure LongOp where
  op : Nat
  kind : LongKind
  accepted : Ns
  deadline : Ns
  /-- computed duration in CCLK cycles, and the CCLK in MHz that R119 and R327 compute its end at -/
  cycles : Nat
  mhz : Nat
  descAddr : Nat
  desc : List Byte
  hdrW : List Byte
  hdrX : List Byte
  /-- s30 and s31 at issue -/
  seed : W64
  step : W64
  /-- the values of the accumulate operand at the start of the tile -/
  init : Option (List W32)
  run : Option FaceRun
  /-- the assay block chose this tile for a canary (R337) -/
  canary : Bool
  /-- spacing of checksum rows in force at acceptance, 0 for none (R336, R340) -/
  chk : Nat
  /-- `CANARY_BASE` in force at acceptance (R337, R340) -/
  area : Nat
  /-- words re-read after a collision (R63, R103): one stall cycle each -/
  reReads : Nat
  /-- cycles that port-B accesses past their deadline have stalled it (R144) -/
  stalls : Nat
  /-- when it began, once it is the running one -/
  started : Option Ns
  /-- the reads of its start have been made: its scale records and the operand it accumulates on (R44, R67) -/
  fetched : Bool
  /-- scale records as fetched at the start of their tile (R44): the weights' of a face tile, the moments' of a sweep's present tile -/
  scales : List Byte
  /-- tiles of a sweep written in full (R103) -/
  tiles : Nat
  /-- outputs settled and still to be written, none before they are (R67, R103) -/
  outBuf : Option (List (Nat × List Byte))
  /-- outputs of a face tile already written (R67) -/
  wrote : List OutWord
deriving DecidableEq, Repr

/-- A word was re-read: `RETRIED` (R63, R103). -/
def LongOp.retried (o : LongOp) : Bool := decide (o.reReads ≠ 0)

/-- A VLD or VST of a gallery bank, whose port A takes one word a cycle: the words done so far (R137). -/
structure VecPart where
  words : Nat
  /-- data read -/
  data : List Byte
  coll : Bool
  poison : Bool
deriving DecidableEq, Repr

/-- The settings of an assay page (Table 18-3). -/
structure Assay where
  ctl : W32
  base : W32
  size : W32
deriving DecidableEq, Repr

/-- A stope's sequencer, registers, instruction memory and operation queue (chapter 06). -/
structure Stope where
  imem : Sparse W64
  codeLen : Nat
  prog : ProgState
  cause : Nat
  faultPc : Nat
  pc : Nat
  s : Sparse W64
  a : Sparse W64
  l : Sparse W32
  v : Sparse (BitVec 4096)
  loops : List LoopRec
  /-- a FENCE holds later remote instructions until these operations complete (R129) -/
  fence : List Nat
  wait : Option Waiting
  /-- the vector load or store at the pc, once some of its words have been done -/
  part : Option VecPart
  tickets : List Ticket
  out : List Async
  queue : List LongOp
  /-- face tiles accepted, for the canary's selection (R337) -/
  issued : Nat
  /-- when the load began, the bytes of its image read so far, the read under way, and whether a read has failed (R132) -/
  loadAt : Ns
  img : List Byte
  imgOp : Option Nat
  imgBad : Bool
  /-- assay settings of before a commit, in force for the stope until its next face-tile boundary (R340); none where the live ones are -/
  assay : Option Assay
deriving DecidableEq, Repr

/-- A stope at reset (Table 06-8, R113). -/
def Stope.reset : Stope :=
  { imem := [], codeLen := 0, prog := .empty, cause := 0, faultPc := 0, pc := 0, s := [], a := [], l := [],
    v := [], loops := [], fence := [], wait := none, part := none, tickets := [], out := [], queue := [], issued := 0,
    loadAt := 0, img := [], imgOp := none, imgBad := false, assay := none }

/-- Who waits for a port-B access or a stack request, and what its end does. -/
inductive Client where
  /-- the read of a remote operation's local operand (R263) -/
  | source (die op : Nat)
  /-- the write of a completion's data to the originator's local buffer (R263) -/
  | writeBack (die op : Nat)
  /-- a piece of an operation performed at its home, at this byte offset of the operation -/
  | home (die id off : Nat)
  /-- the assay block's copy for the canary of a stope's operation: a read for the place `dst` of the partner's bank, or a write (R338) -/
  | canary (st : Fin 512) (op : Nat) (dst : Option Nat)
  /-- a write nobody waits for -/
  | none
deriving DecidableEq, Repr

/-- What an access asks of the array or the stack. -/
inductive AccKind where
  | read | write
  /-- an atomic with the `SUB` of Table 07-9 -/
  | atomic (sub : Nat)
  /-- a FLAG set or add that rings the doorbell -/
  | flagSet (bell : Nat)
  | flagAdd (bell : Nat)
deriving DecidableEq, Repr

/-- An access waiting at a bank's port B or at a stack controller: one operation's bytes there. -/
structure Access where
  id : Nat
  kind : AccKind
  /-- low 50 bits of the first byte's address -/
  addr : Nat
  len : Nat
  /-- data to write, or operand -/
  data : List Byte
  deadline : Ns
  cls : Nat
  /-- originator, for `EXCL` (R148): block type and instance; `entered` for traffic from a link port or the host -/
  by_ : Agent
  entered : Bool
  client : Client
  /-- bytes performed so far -/
  done : Nat
  /-- data read or old values, of the bytes performed -/
  got : List Byte
  coll : Bool
  poison : Bool
  denied : Bool
  /-- since when its stack controller has taken requests ahead of it (R161) -/
  passed : Option Ns
deriving DecidableEq, Repr

/-- A bank's port-B queue and mode change (chapter 07). Its registers are in the register file. -/
structure Bank where
  queue : List Access
  /-- the mode entered once the array has drained (R145) -/
  toMode : Option Nat
  /-- column of the stope that a gallery bank's port A served last (R137) -/
  lastCol : Nat
deriving DecidableEq, Repr

def Bank.reset : Bank := { queue := [], toMode := none, lastCol := 15 }

/-- Who originated a remote operation (R265). -/
inductive Origin where
  | stope (st : Fin 512)
  | hoist (c : Fin 256) (unit : Nat)
  /-- a ring request of the host: slot tag as in its completion entry -/
  | host (tag : Nat)
  | apRead (id : Nat)
  | apWrite (id : Nat)
  /-- a withdrawal notice of the die (R272) -/
  | notice
deriving DecidableEq, Repr

/-- How far a remote operation has come at its originator. -/
inductive RPhase where
  /-- its local operand is being read -/
  | prep
  /-- ready to be sent, once every earlier operation of its stream has been sent -/
  | ready
  /-- its message has been sent and no completion has come -/
  | sent
  /-- its completion's data is being written to the local buffer -/
  | back (status reason : Nat)
  /-- a GET that waits for lines of the read cache (R230) -/
  | cache
deriving DecidableEq, Repr

/-- An accepted remote operation at its originator's remote-op layer (R217, R265). -/
structure ROp where
  id : Nat
  origin : Origin
  msg : Msg
  /-- destination node-die, or 0x8000 + group for an MCPUT -/
  dest : Nat
  phase : RPhase
  /-- local buffer that receives the data of a GET or ATOM -/
  localAddr : Nat
  sentAt : Ns
  /-- RETRY_NS multiplier: height + 1 for an MCPUT (R252) -/
  retryMul : Nat
  /-- the operation crosses the die-to-die bridge of its own device (R352) -/
  crosses : Bool
deriving DecidableEq, Repr

/-- A stream at its originator (R220 to R222). -/
structure OutStream where
  dest : Nat
  kind : Nat
  agent : Nat
  cls : Nat
  next : W32
  /-- every completion below this SEQ has been received -/
  base : W32
  /-- completions received at or above `base` -/
  got : List W32
  /-- operations whose deadline timer fired before a completion came (R265) -/
  fired : List W32
  /-- a completion came at this time and no message has carried its ACK yet -/
  ackDue : Option Ns
deriving DecidableEq, Repr

/-- What a destination knows of one SEQ of a stream (R221). -/
inductive SeqState where
  /-- being performed; `put` for a PUT, which a later PUT of the stream waits for (R220) -/
  | performing (put : Bool)
  | done (comp : Msg)
  /-- its completion has been freed by the originator's ACK -/
  | acked
  | dropped
deriving DecidableEq, Repr

structure SeqRec where
  seq : W32
  state : SeqState
deriving DecidableEq, Repr

/-- A stream at its destination (R221, R223). `group` is 0x8000 + group for an MCPUT stream, else 0. -/
structure InStream where
  src : Nat
  kind : Nat
  agent : Nat
  cls : Nat
  group : Nat
  incarn : W32
  /-- first SEQ received (R223); for coherence messages the SEQ expected next (R233) -/
  base : W32
  /-- highest `ACK` received: the originator waits for no operation below it -/
  ackTo : W32
  recs : List SeqRec
deriving DecidableEq, Repr

/-- For whom a home performs an operation: a remote operation's completion goes to its originator; an access of hoist channel `c` on its own
device ends the inner operation `op` (R198); a line's read ends as a FILL, which `cached` gives a lease (R230, R232); a cache bank is read for
a line that hits, and written with a line that is kept (R228, R230); the data of operation `op` is written to its local buffer where that lies in a
read-mostly region (R229); part of the image that stope `st` loads is read (R132); or nobody waits for it any more. -/
inductive HomeFor where
  | remote
  | hoist (c op : Nat)
  | fill (cached : Bool) (lease : Ns)
  | hit (op line : Nat) (lease : Ns)
  | keep (line : Nat)
  | back (op : Nat)
  | image (st tag : Nat)
  | lost
deriving DecidableEq, Repr

/-- An operation being performed at its home: its pieces at banks and stacks (R218). -/
structure HomeOp where
  id : Nat
  msg : Msg
  for_ : HomeFor
  group : Nat
  left : Nat
  /-- some byte has been performed: the rest is performed whatever the time (R144, R218) -/
  begun : Bool
  /-- a piece was dropped at the deadline before anything was performed -/
  late : Bool
  coll : Bool
  poison : Bool
  denied : Bool
  /-- reason of a FAILED piece; 0 none -/
  reason : Nat
  data : List Byte
deriving DecidableEq, Repr

/-- A line of the home directory: its sharers with their lease ends, and the invalidation in progress (R231). -/
structure Sharer where
  node : Nat
  leaseEnd : Ns
  /-- the TAG of an INV that this sharer has not answered -/
  tag : Option Nat
deriving DecidableEq, Repr

/-- A write that waits for sharers to answer. -/
structure HeldWrite where
  m : Msg
  for_ : HomeFor
deriving DecidableEq, Repr

structure DirLine where
  /-- line address: low 50 bits, a multiple of 256 -/
  line : Nat
  sharers : List Sharer
  /-- operations held until every sharer has answered, in arrival order -/
  heldWrites : List HeldWrite
  heldGets : List Msg
deriving DecidableEq, Repr

/-- A line that this die's cache holds (R230, R232): in a place of 256 bytes of the gallery bank of a row. -/
structure CacheLine where
  addr : Nat
  row : Nat
  slot : Nat
  leaseEnd : Ns
  /-- its bytes have been written to the bank -/
  ready : Bool
deriving DecidableEq, Repr

/-- How far a GET has come with one of its lines (R230). -/
inductive LineState where
  /-- a GETS has been sent -/
  | missing
  /-- a hit, being read from the cache bank -/
  | reading
  /-- its bytes have come, with the end of the lease under which they may be served; none where the FILL was uncached -/
  | have_ (data : List Byte) (lease : Option Ns)
deriving DecidableEq, Repr

/-- A GET that waits for lines, by their global address, and the worst status and its reason among those that have come (R230). -/
structure FillWait where
  op : Nat
  lines : List (Nat × LineState)
  status : Nat
  reason : Nat
deriving DecidableEq, Repr

/-- A multicast copy whose completions this device combines (R252, R253). -/
structure Combine where
  id : Nat
  msg : Msg
  /-- port UP, or 31 at the root -/
  up : Nat
  depth : Nat
  /-- the DOWN ports on which the copy went, and those of them that have not answered -/
  down : List Nat
  wait : List Nat
  /-- the own copy has not completed -/
  own : Bool
  status : Nat
  reason : Nat
  member : Nat
  count : Nat
  /-- its combined completion has gone; it is kept until the copy's deadline, to discard what still comes (R253) -/
  sent : Bool
deriving DecidableEq, Repr

/-- A message that has arrived, with the link port it came by, `none` from within the device, and the hops its frame had left. -/
structure InMsg where
  m : Msg
  via : Option Nat
  hops : Nat
deriving DecidableEq, Repr

/-- The remote-op layer of a die (chapter 11). -/
structure RemoteLayer where
  /-- reset count of the die (R223) -/
  incarn : W32
  inbox : List InMsg
  ops : List ROp
  outStreams : List OutStream
  inStreams : List InStream
  heldPuts : List Msg
  homes : List HomeOp
  dir : List DirLine
  nextTag : Nat
  /-- tags taken as answered by an EVICT whose IACK or ABSENT is still to come, with the sharer's lease end (R234) -/
  staleTags : List (Nat × Ns)
  cache : List CacheLine
  fills : List FillWait
  /-- INVs whose IACK waits for the hits on their line to finish reading (R233) -/
  heldIacks : List Msg
  combines : List Combine
deriving DecidableEq, Repr

def RemoteLayer.reset : RemoteLayer :=
  { incarn := 0, inbox := [], ops := [], outStreams := [], inStreams := [], heldPuts := [], homes := [], dir := [],
    nextTag := 0, staleTags := [], cache := [], fills := [], heldIacks := [], combines := [] }

/-- What a frame on a link carries (Table 12-1 `FTYPE`). -/
inductive Payload where
  | op (m : Msg)
  /-- a route notice: the first 48 bytes of the failed message with its reason -/
  | notice (m : Msg)
  | agree (body : List Byte)
  | time (body : List Byte)
  | safeIdle (body : List Byte)
  | attest (body : List Byte)
  | idle
deriving DecidableEq, Repr

/-- A frame queued in a router (R247). -/
structure QFrame where
  p : Payload
  /-- destination node-die -/
  dest : Nat
  lane : Nat
  hopsLeft : Nat
  fromBridge : Bool
  /-- port on which it arrived; `none` where it started in this device -/
  inPort : Option Nat
deriving DecidableEq, Repr

/-- A profile copy of a die: route table, multicast table and the time block's profile fields (R297). -/
structure ProfCopy where
  gen : Nat
  routes : Sparse W64
  mc : Sparse W64
  /-- profile registers of the time page, by offset; unlisted = reset value (Table 13-6) -/
  tregs : Sparse (Option W32)
deriving DecidableEq, Repr

def ProfCopy.reset (g : Nat) : ProfCopy := { gen := g, routes := [], mc := [], tregs := [] }

/-- A die's router: its queue and its two profile copies (R250). -/
structure Router where
  queue : List QFrame
  live : ProfCopy
  other : ProfCopy
deriving DecidableEq, Repr

def Router.reset : Router := { queue := [], live := ProfCopy.reset 0, other := ProfCopy.reset 65535 }

/-- A frame that a port sends or holds for replay, with its LSEQ (R239). -/
structure LFrame where
  lseq : Nat
  lane : Nat
  hopsLeft : Nat
  p : Payload
  /-- frame length in bytes -/
  bytes : Nat
  /-- transmitted; a replay sends it again -/
  sent : Bool
  /-- port by which it came into the device -/
  inPort : Option Nat
deriving DecidableEq, Repr

/-- Keys and salts of a link session, one of each for a direction (R361). -/
structure LinkKeys where
  txKey : List Byte
  txSalt : List Byte
  rxKey : List Byte
  rxSalt : List Byte
deriving DecidableEq, Repr

/-- A session that key exchange has begun (R363): its ID, the transcript so far and the handshake secret. -/
structure Session where
  id : Nat
  th : List Byte
  secret : List Byte
  /-- records that the device has sent since FINISH -/
  sent : Nat
deriving DecidableEq, Repr

/-- A responder's connection: negotiation done so far, the transcripts of negotiation, of certificates and of measurements, the session
being set up and the session in force. -/
structure Spdm where
  version : Bool
  caps : Bool
  algs : Bool
  vca : List Byte
  auth : List Byte
  meas : List Byte
  pending : Option Session
  session : Option Session
  nextSession : Nat
deriving DecidableEq, Repr

def Spdm.reset : Spdm :=
  { version := false, caps := false, algs := false, vca := [], auth := [], meas := [], pending := none, session := none, nextSession := 0 }

/-- A port's requester toward its peer (R364): the step it is at, what it sent last and what it has gathered. -/
structure PeerReq where
  /-- 0 not begun, 1 version, 2 capabilities, 3 algorithms, 4 certificate, 5 measurements, 6 key exchange, 7 finish; 8 checks passed -/
  step : Nat
  sent : List Byte
  vca : List Byte
  chain : List Byte
  /-- draw of the key-exchange data -/
  kex : Nat
  th : List Byte
  secret : List Byte
deriving DecidableEq, Repr

def PeerReq.reset : PeerReq := { step := 0, sent := [], vca := [], chain := [], kex := 0, th := [], secret := [] }

/-- Where a port is in training (Table 12-2). -/
inductive Training where
  | none
  | electrical
  /-- waiting for the peer's agree frame since this time -/
  | agree (since : Ns)
  /-- electrical training failed at this time; it is retried 1 s later -/
  | failed (at_ : Ns)
  | fast
deriving DecidableEq, Repr

/-- A link port (chapter 12). `st` is `LINK.STATE` (Table 12-9). -/
structure Port where
  st : Nat
  qcause : Nat
  peerReason : Nat
  training : Training
  txNext : Nat
  rxNext : Nat
  nakSent : Bool
  queue : List LFrame
  held : List LFrame
  /-- bytes the peer's buffer of each lane still takes -/
  credit : List Nat
  /-- bytes freed in each lane's receive buffer and not yet returned -/
  owed : List Nat
  replays : Nat
  progressAt : Ns
  sentAt : Ns
  agreeSent : Ns
  timeSent : Ns
  /-- TX of the last time frame this port sent -/
  lastTx : Nat
  /-- TX of the last time frame received, and when -/
  peerTx : Nat
  peerRx : Nat
  /-- the peer's advertised DIST and DOUBT -/
  peerDist : Nat
  peerDoubt : Bool
  /-- two exchanges in a row within 25 ns since time wait began: how many so far -/
  good : Nat
  theta : Int
  /-- the peer's last agree body -/
  peerAgree : List Byte
  /-- attestation: 0 none, 1 under way, 2 established, 3 failed -/
  attest : Nat
  attestAt : Ns
  /-- fragments of the SPDM message being received -/
  fragments : List Byte
  /-- SPDM messages sent so far -/
  msgCount : Nat
  /-- this port as requester and as responder (R364); the measurements asked for have been given to the peer -/
  requester : PeerReq
  responder : Spdm
  measured : Bool
  /-- `LINK_CRYPT` as it stood at the last full training, and when that began (R361) -/
  crypt : Bool
  trainAt : Ns
  /-- the session's keys once it is established, and the frame counter (R360) -/
  keys : Option LinkKeys
  cryptCount : Nat
  /-- until when the lane-4 frames sent so far fill lane 4's share of the port (R238) -/
  lane4At : Ns
deriving DecidableEq, Repr

/-- Receive-buffer bytes of each lane (R238). -/
def laneBuffer : List Nat := [65536, 131072, 262144, 65536, 16384]

/-- A port as its domain powers on (Table 12-9): down. -/
def Port.reset : Port :=
  { st := 1, qcause := 0, peerReason := 0, training := .none, txNext := 0, rxNext := 0, nakSent := false,
    queue := [], held := [], credit := laneBuffer, owed := [0, 0, 0, 0, 0], replays := 0, progressAt := 0, sentAt := 0,
    agreeSent := 0, timeSent := 0, lastTx := 0, peerTx := 0, peerRx := 0, peerDist := 15, peerDoubt := true,
    good := 0, theta := 0, peerAgree := [], attest := 0, attestAt := 0, fragments := [], msgCount := 0,
    requester := PeerReq.reset, responder := Spdm.reset, measured := false, crypt := false, trainAt := 0, keys := none,
    cryptCount := 0, lane4At := 0 }

/-- A die's time block (chapter 13). -/
structure TimeBlk where
  /-- global time in ns -/
  now : Ns
  /-- the first setting has been made (R268) -/
  isSet : Bool
  /-- `TIME_STATE.STATE`: 0 unset, 1 agreed, 2 doubt -/
  st : Nat
  src : Nat
  dist : Nat
  theta : Int
  delay : Nat
  hiLatch : W32
  /-- consecutive exchanges with the source within 25 ns, and beyond 1,000 ns -/
  good : Nat
  bad : Nat
  lastValid : Ns
  doubtAt : Option Ns
  /-- the bridge exchange, as a port's -/
  bridgeTx : Nat
  bridgePeerTx : Nat
  bridgePeerRx : Nat
  bridgeDist : Nat
  bridgeDoubt : Bool
  bridgeSent : Ns
  /-- last TIME_PPS edge taken, as a time (R377), and the edges taken in a row -/
  ppsRef : Option Ns
  ppsAt : Ns
  ppsRow : Nat
  /-- ns since the last time a rate correction could fall, and the ns by which the count is ahead and still to be corrected (R268, R377) -/
  steer : Nat
  slew : Int
deriving DecidableEq, Repr

def TimeBlk.reset : TimeBlk :=
  { now := 0, isSet := false, st := 0, src := 31, dist := 15, theta := 0, delay := 0, hiLatch := 0, good := 0, bad := 0,
    lastValid := 0, doubtAt := none, bridgeTx := 0, bridgePeerTx := 0, bridgePeerRx := 0, bridgeDist := 15,
    bridgeDoubt := true, bridgeSent := 0, ppsRef := none, ppsAt := 0, ppsRow := 0, steer := 0, slew := 0 }

/-- A snapshot taken by a write to `BLK_COMMIT` and not yet applied (R295): values by offset. -/
structure Commit where
  die : Die
  page : Nat
  g : W32
  vals : List (Nat × W32)
deriving DecidableEq, Repr

/-- A credit bucket that is not known to be full (R260): its level in 1/640 byte at a time. -/
structure Bucket where
  level : Nat
  at_ : Ns
deriving DecidableEq, Repr

end Sys2Proof.Machine
end

