-- ==== Sys2Proof/Machine/Parts2.lean ====
section
/-!
DEFINITION. More parts of State: stacks, hoists, host port, mailboxes, history, security, bring-up, power and
heat, pins, drain and split. Plain data; every part has a reset value of its own.
-/

namespace Sys2Proof.Machine

/-- A stack controller (chapter 08). Its counters are in the register file. -/
structure Stack where
  queue : List Access
  /-- Table 08-4: 0 normal, 1 hot, 2 critical -/
  thermal : Nat
  /-- every sample since this time was at or below 80 °C; below 95 °C; at or below 95 °C -/
  le80 : Option Ns
  lt95 : Option Ns
  le95 : Option Ns
  lastTemp : Nat
  /-- zeroing has finished and the domain is on (R158, R380) -/
  open_ : Bool
  /-- corrected errors of each 4 KiB region since reset (R166), by region number -/
  corrected : Sparse Nat
  /-- the region being copied to a spare, and those whose copy comes after it; accesses to them wait in the queue (R166) -/
  remapping : List Nat
  /-- regions redirected: region and spare number -/
  remaps : List (Nat × Nat)
  /-- time of the last refresh (R161) -/
  refreshAt : Ns
  /-- the row open in each bank of each pseudo-channel (R381): bank b of pseudo-channel p under p + 64 b -/
  openRows : Sparse (Option Nat)
deriving DecidableEq, Repr

def Stack.reset : Stack :=
  { queue := [], thermal := 0, le80 := none, lt95 := none, le95 := none, lastTemp := 0, open_ := false, corrected := [],
    remapping := [], remaps := [], refreshAt := 0, openRows := [] }

/-- A resident code table (R181): its identifier and its record of 144 bytes. -/
structure CodeTable where
  id : Nat
  rec_ : List Byte
deriving DecidableEq, Repr

/-- A window that grants rights over a range (Table 06-10). -/
structure Window where
  base : Nat
  size : Nat
  rights : Nat
deriving DecidableEq, Repr

/-- A loop of a script (Table 10-2 LOOP). -/
structure ScriptLoop where
  first : Nat
  last : Nat
  left : Nat
  inc1 : W64
  inc2 : W64
  inc3 : W64
deriving DecidableEq, Repr

/-- An inner access of the running step (R198), by its place in the step: performed, under way as an access of the own device or as a remote
operation, or refused and waiting where it has neither an operation nor a result. -/
structure Inner where
  unit : Nat
  isRead : Bool
  /-- its operation, here or travelling as a PUT, GET or FLAG -/
  op : Option Nat
  /-- status and reason once it has ended -/
  res : Option (Nat × Nat)
  /-- data read -/
  data : List Byte
deriving DecidableEq, Repr

/-- A completion record that has still to be written (R209): its index in the record area, and the operation that writes it. -/
structure RecWrite where
  index : Nat
  data : List Byte
  op : Option Nat
deriving DecidableEq, Repr

/-- What the running descriptor of a script is doing. -/
inductive HPhase where
  /-- no descriptor runs: the next one issues -/
  | ready
  /-- a step is under way (R202) -/
  | run
  /-- an EXPAND's block has passed its checks with this content (R188) -/
  | released (data : List Byte)
  /-- a COMPRESS has its scales, slot and map entry, which are being written (R185, R204) -/
  | coded (scales slot entry : List Byte)
  /-- a COMPRESS's slot has been written; its map entry comes next (R185) -/
  | slotted (entry : List Byte)
  /-- the map entry may be written -/
  | mapping (entry : List Byte)
  /-- a WAIT until this time (R206) -/
  | waitFlag (due : Ns)
  /-- a FLAG whose completion has not come -/
  | flag
deriving DecidableEq, Repr

/-- A running script (chapter 10). -/
structure Script where
  /-- the launcher: a stope with its operation, the host, the foreman or the headframe -/
  by_ : Agent
  op : Nat
  addr : Nat
  cls : Nat
  deadline : Ns
  windows : List Window
  /-- descriptors read so far, by index -/
  descs : List (Nat × List Byte)
  idx : Nat
  executed : Nat
  /-- row of the running descriptor, and its steps done -/
  step : Nat
  stepsDone : Nat
  phase : HPhase
  b1 : W64
  b2 : W64
  b3 : W64
  loops : List ScriptLoop
  seed : W64
  hstep : W64
  recAddr : Nat
  recCap : Nat
  recNext : Nat
  dropped : Nat
  /-- some block was POISONED -/
  poison : Bool
  /-- RETRIED and COLL of the running descriptor -/
  retried : Bool
  coll : Bool
  inner : List Inner
  /-- records to be written, and whether the summary is among them or has been written (R209) -/
  recs : List RecWrite
  summed : Bool
  /-- the engine's tables as they stood when the running block started (R181) -/
  tables : Option (Sparse (Option CodeTable))
  /-- launched during a drain: every read lies in a copy-out region (R348) -/
  copyOnly : Bool
  /-- the status and reason with which a descriptor, a recall, a stop or the deadline ends the script -/
  ended : Option (Nat × Nat)
deriving DecidableEq, Repr

/-- A hoist engine's resident table slots (R194). -/
structure Engine where
  tables : Sparse (Option CodeTable)
deriving DecidableEq, Repr

def Engine.reset : Engine := { tables := [] }

/-- A hoist channel: its script and the outcome of its last one (Table 10-6). -/
structure Channel where
  run : Option Script
  lastStatus : Nat
  lastReason : Nat
  descIdx : Nat
  steps : Nat
deriving DecidableEq, Repr

def Channel.reset : Channel := { run := none, lastStatus := 0, lastReason := 0, descIdx := 0, steps := 0 }

/-- A host request admitted and not completed (R279, R280). -/
structure HostReq where
  op : Nat
  hostAddr : Nat
  user : W64
  /-- a Function Level Reset has discarded its completion entry (R277) -/
  discarded : Bool
deriving DecidableEq, Repr

/-- A piece of an aperture access: its operation and, for a read, its data (R282). -/
structure ApPiece where
  op : Nat
  done : Bool
  ok : Bool
  data : List Byte
deriving DecidableEq, Repr

/-- An aperture access that has not completed (R282). -/
structure ApAccess where
  id : Nat
  write : Bool
  cls : Nat
  addr : Nat
  len : Nat
  data : List Byte
  /-- waiting: a read for earlier writes, a write for credit -/
  held : Bool
  pieces : List ApPiece
deriving DecidableEq, Repr

/-- A post judged in the present SCLK cycle, and what it found: the notices held, its RESULT and COLL, and whether it interrupts (R286). -/
structure Posted where
  mailbox : Nat
  bytes : List Byte
  notices : List (List Byte)
  result : W32
  coll : W32
  /-- the vector it sent, or left pending; none where it raised no message -/
  sent : Option Nat
  pended : Option Nat
  /-- it raised the headframe's interrupt -/
  hf : Bool
deriving DecidableEq, Repr

/-- The host port (chapter 14). Ring registers, masks and apertures are in the register file. -/
structure HostPort where
  enabled : Bool
  tail : Nat
  head : Nat
  cqHead : Nat
  cqTail : Nat
  phase : Bool
  /-- entries written and not consumed, and entries reserved for requests under way -/
  cqUsed : Nat
  reserved : Nat
  reqs : List HostReq
  aps : List ApAccess
  /-- MSI-X vectors masked, and pending, as bit sets -/
  msixMask : Nat
  msixPending : Nat
  /-- message addresses and data of the MSI-X table, as its 32-bit words (R275): word w of vector v under 4 v + w -/
  msixTable : Sparse W32
  /-- completion entries written or lost so far: the number that names the next one to `Config.entryLost` -/
  entries : Nat
  /-- the PCIe link has trained (R306) -/
  linkUp : Bool
  /-- doorbell bits set, and set bits cleared, in the present SCLK cycle (R283), and the posts judged in it, newest first (R286) -/
  rung : Nat
  unrung : Nat
  posts : List Posted
deriving DecidableEq, Repr

def HostPort.reset : HostPort :=
  { enabled := false, tail := 0, head := 0, cqHead := 0, cqTail := 0, phase := true, cqUsed := 0, reserved := 0, reqs := [], aps := [],
    msixMask := 2 ^ 66 - 1, msixPending := 0, msixTable := [], entries := 0, linkUp := false, rung := 0, unrung := 0, posts := [] }

/-- A record of the fault history (Table 18-5). -/
structure HRec where
  seq : Nat
  ty : Nat
  inst : Nat
  kind : Nat
  gtime : Nat
  powered : Nat
  verdict : Nat
  detail : Nat
  region : Nat
  space : Nat
  rv : Bool
deriving DecidableEq, Repr

/-- A history block's half of the MRAM (Table 18-6). It survives a reset. -/
structure History where
  resets : W32
  powered : Nat
  /-- nanoseconds counted toward the next powered second -/
  poweredNs : Nat
  /-- the powered-second count last written to MRAM -/
  mramPowered : Nat
  sealed : Option Nat
  nextSeq : Nat
  records : List HRec
  ue : List (Nat × Nat)
  /-- kept remaps: stack, region, spare -/
  remaps : List (Nat × Nat × Nat)
  remapLost : Nat
  sealing : Bool
deriving DecidableEq, Repr

def History.new : History :=
  { resets := 0, powered := 0, poweredNs := 0, mramPowered := 0, sealed := none, nextSeq := 1, records := [], ue := [],
    remaps := [], remapLost := 0, sealing := false }

/-- A verified firmware image in force (R308). -/
structure Image where
  digest : List Byte
  svn : Nat
  slot : Nat
deriving DecidableEq, Repr

/-- A tensor key (R358). -/
structure TensorKey where
  tensor : W32
  epoch : Nat
  key : List Byte
deriving DecidableEq, Repr

/-- The security block (chapter 19). Floors and revocations are fuses and survive a reset. -/
structure Security where
  floors : List Nat
  revoked : List Nat
  selfTest : Bool
  hf : Option Image
  fm : Option Image
  keys : List TensorKey
  kek : Option (List Byte)
  /-- seed of the alias key: measurements 1 to 4 as they stood when boot had measured both images (Table 19-2) -/
  aliasSeed : List Byte
  spdm : Spdm
  keyResult : Nat
deriving DecidableEq, Repr

def Security.new : Security :=
  { floors := [0, 0, 0], revoked := [], selfTest := false, hf := none, fm := none, keys := [], kek := none, aliasSeed := [],
    spdm := Spdm.reset, keyResult := 0 }

/-- A headframe's role (Table 16-7): 0 booting, 1 acting, 2 standby, 3 failed. -/
structure Headframe where
  role : Nat
  takenOver : Bool
deriving DecidableEq, Repr

def Headframe.reset : Headframe := { role := 0, takenOver := false }

/-- A foreman (Table 17-10): its state, and the domain requests that wait for their turn (R323). -/
structure Foreman where
  st : Nat
  tables : Bool
  queue : List (Nat × Bool)
deriving DecidableEq, Repr

def Foreman.reset : Foreman := { st := 0, tables := false, queue := [] }

/-- Bring-up and node identity (chapter 16). -/
structure Boot where
  step : Nat
  fail : Nat
  /-- SCLK time base at reset release -/
  released : Bool
  zeroed : Bool
  hf0 : Headframe
  hf1 : Headframe
  lastBeat : Option Ns
  /-- time of STEP = 1 -/
  step1At : Ns
  node : Nat
  assigned : Bool
  byHost : Bool
  profile : List Byte
  expired : Bool
  overflow : Bool
  frames : Nat
  crcErr : Nat
  /-- since when R317's condition has held without a break -/
  disagree : Option Ns
  /-- requests and releases seen: the headframe's interrupt (R283, R287) -/
  hfIrq : Nat
  /-- nanoseconds of SCLK since the release of RESET_N (R314); before a release, since an earlier one or the supply -/
  up : Ns
  /-- a muster frame judged in this SCLK cycle by a device with no node ID, and OVERFLOW before it (R315) -/
  cycleFrame : Option (List Byte × Bool)
  /-- a write to `ASSIGN` took effect in this SCLK cycle (R315) -/
  cycleAssign : Bool
  /-- expiry falls in this SCLK cycle (R315) -/
  expiring : Bool
deriving DecidableEq, Repr

/-- Forty-eight zero bytes. -/
def zero48 : List Byte := List.replicate 48 0

def Boot.reset : Boot :=
  { step := 0, fail := 0, released := false, zeroed := false, hf0 := Headframe.reset, hf1 := Headframe.reset,
    lastBeat := none, step1At := 0, node := 0, assigned := false, byHost := false, profile := zero48,
    expired := false, overflow := false, frames := 0, crcErr := 0, disagree := none, hfIrq := 0,
    up := 0, cycleFrame := none, cycleAssign := false, expiring := false }

/-- A half-level's junction sensor and thermal step (Table 17-8). -/
structure HalfLevel where
  temp : Nat
  /-- 0 none, 1 warm, 2 throttled, 3 overheated -/
  step : Nat
  lt92 : Option Ns
  lt98 : Option Ns
deriving DecidableEq, Repr

def HalfLevel.reset : HalfLevel := { temp := 0, step := 0, lt92 := none, lt98 := none }

/-- A die's operating point and the change in progress (R327). -/
structure Dvfs where
  point : Nat
  target : Option Nat
  /-- the clock has been switched -/
  switched : Bool
  /-- operations accepted before the change that a lowering waits for -/
  waitOps : List Nat
deriving DecidableEq, Repr

def Dvfs.reset : Dvfs := { point := 0, target := none, switched := false, waitOps := [] }

/-- Power, rails and the module's supplies (chapters 17 and 20). -/
structure Power where
  pwrGood : Bool
  /-- when PWR_GOOD was released; `none` long ago -/
  pwrGoodAt : Option Ns
  /-- when the management bus is ready (R379) -/
  busAt : Ns
  /-- RESET_N has been released while the device still held itself in reset -/
  earlyRelease : Bool
  inReset : Bool
  /-- the trip latched in VAON logic (R372) -/
  trip : Bool
  /-- the module stays off until the input falls below 36 V and rises again -/
  tripOff : Bool
  inputMv : Nat
  inputOut : Nat
  /-- samples in a row outside bounds, by rail -/
  railOut : Sparse Nat
  /-- rails outside their bounds at the last sample, by rail -/
  railBad : Sparse Bool
  meanW : Nat
  capped : Bool
deriving DecidableEq, Repr

/-- A powered module before reset release: PWR_GOOD released long enough ago. -/
def Power.reset : Power :=
  { pwrGood := true, pwrGoodAt := none, busAt := 0, earlyRelease := false, inReset := true, trip := false, tripOff := false,
    inputMv := 48000, inputOut := 0, railOut := [], railBad := [], meanW := 0, capped := false }

/-- A timestamp capture pin (R376). -/
structure Capture where
  held : List Ns
  last : Option Ns
  lost : Nat
deriving DecidableEq, Repr

def Capture.reset : Capture := { held := [], last := none, lost := 0 }

/-- An I3C target (R379): its dynamic address and the last access address. -/
structure I3c where
  dyn : Option Nat
  page : Nat
  die : Nat
  off : Nat
deriving DecidableEq, Repr

def I3c.reset : I3c := { dyn := none, page := 0, die := 0, off := 0 }

/-- The module's multifunction pins (chapter 20). -/
structure Pins where
  /-- pins parked together by one write, as a bit set, and when the SCLK cycle after the write begins (R320) -/
  parks : List (Nat × Ns)
  /-- levels driven onto the pins from outside -/
  levels : Nat
  captures : Sparse Capture
  /-- falling edges of each tachometer since its last notice -/
  edges : Sparse Nat
  noticeAt : Ns
  i3c0 : I3c
  i3c1 : I3c
deriving DecidableEq, Repr

def Pins.reset : Pins :=
  { parks := [], levels := 0x00FF, captures := [], edges := [], noticeAt := 0, i3c0 := I3c.reset, i3c1 := I3c.reset }

/-- The die-to-die bridge (R352, R353). -/
structure Bridge where
  /-- 0 down, 1 training, 2 up, 3 failed -/
  st : Nat
  /-- when the retrain under way began -/
  retrainAt : Option Ns
deriving DecidableEq, Repr

def Bridge.reset : Bridge := { st := 0, retrainAt := none }

/-- A unit taken out of service (Table 18-8): block type and instance. -/
abbrev Unit_ := Agent

/-- Drain and service of a die (R347, R350). -/
structure Service where
  /-- `DEV_STATE`: 0 quarantine, 1 joining, 2 ready, 3 draining, 4 safe, 5 split -/
  state : Nat
  reason : Nat
  replaceN : Bool
  /-- end of the drain window -/
  drainEnd : Option Ns
  /-- the window has ended: what arrives from peers fails drained -/
  drained : Bool
deriving DecidableEq, Repr

def Service.reset : Service := { state := 0, reason := 0, replaceN := false, drainEnd := none, drained := false }

/-- How far a canary has come (R338). -/
inductive CanaryPhase where
  | copying
  | running
  /-- the outputs, as compared, are on their way to the issuer's area -/
  | returning (outs : List W32)
  /-- the partner has produced these outputs, or failed -/
  | returned (outs : List W32)
deriving DecidableEq, Repr

/-- A canary outstanding: the issuer, its tile and the operands as copied. -/
structure Canary where
  st : Fin 512
  op : Nat
  phase : CanaryPhase
  /-- the assay block's port-B writes still to be made -/
  left : Nat
deriving DecidableEq, Repr

/-- What a part of the state held before a write that may yet lose to a higher-ranked one (R17). -/
inductive Undo where
  | reg (off : Nat) (v : W32)
  | bankMode (b : Nat) (mode : Option Nat)
  | channel (c : Nat) (x : Channel)
  | port (p : Nat) (x : Port)
  | foreman (f : Nat) (x : Foreman)
  | domain (n v : Nat)
  | stackOpen (k : Nat) (v : Bool)
  /-- a program, as a stop changes it -/
  | program (n : Nat) (x : Stope)
  | hfIrq (n : Nat)
deriving DecidableEq, Repr

/-- A write to `BLK_OWNER`, `BLK_LEASE_END` or a management-only field in the present SCLK cycle (R17): its page and offset, the writer
and its rank, and what it found, to be restored where a higher-ranked write comes. -/
structure RankedWrite where
  page : Nat
  off : Nat
  by_ : Agent
  rank : Nat
  before : List Undo
deriving DecidableEq, Repr

/-- What the device sends out, newest first. -/
inductive Output where
  | msix (vector : Nat)
  | frame (port : Nat) (bytes : List Byte)
  | hostWrite (addr : Nat) (data : List Byte)
  | hostFetch (addr len op : Nat)
  | apReadData (data : List Byte)
  | completerAbort
  | unsupported
  | configRetry
  | configAnswer (value : W32)
  | readData (data : List Byte)
  | chain (bytes : List Byte)
  | i3cRead (bus : Nat) (data : List Byte)
  | i3cAddress (bus : Nat) (pid : Nat)
  | ibi (bus state : Nat)
  | spdm (bytes : List Byte)
  | spdmPeer (port : Nat) (bytes : List Byte)
  | pwrGood (v : Bool)
  | thermtrip
deriving DecidableEq, Repr

end Sys2Proof.Machine
end

