-- ==== Sys2Proof/Machine/State.lean ====
section
/-!
DEFINITION. The state of the block, its faults and refusals, and the state at reset.
-/

namespace Sys2Proof.Machine

/-- Faults that stop the machine. There are none: every command of the spec has an effect, and where the state makes
the event a command names impossible, nothing happens (log entry 1). Safe. -/
inductive Fault where
deriving DecidableEq, Repr

/-- Refusals. Only a command whose meaning is not written answers one; safe. -/
inductive Refusal where
  /-- the command's meaning has not been written; raised by exec's arm for it. Safe. -/
  | notModelled (mnemonic : String)
deriving DecidableEq, Repr

/-- The whole device. Registers that a page holds as plain values are in `regs`, by register-file key
(Machine/Regs.lean); what the spec gives behind them is structured. -/
structure State where
  /-- live register values that differ from reset (or that reset left otherwise) -/
  regs : Sparse (Option W32)
  /-- staged values of RWS fields (R295) -/
  staged : Sparse (Option W32)
  commits : List Commit
  /-- bytes of spaces 0 and 1 of both dies, by the low 50 bits of their address; unlisted bytes read 0 -/
  mem : List Host.Cell
  /-- 64-byte words of space 1 and 32-byte sectors of space 0 that hold an uncorrectable error -/
  ue : List Nat
  stopes : Sparse Stope
  banks : Sparse Bank
  stackTab : Sparse Stack
  engines : Sparse Engine
  channels : Sparse Channel
  layers : Sparse RemoteLayer
  routers : Sparse Router
  ports : Sparse Port
  times : Sparse TimeBlk
  buckets : Sparse (Option Bucket)
  host : HostPort
  mailboxes : Sparse (List (List Byte))
  history : Sparse History
  security : Security
  boot : Boot
  foremen : Sparse Foreman
  /-- 0 off, 1 powering up, 2 on, 3 switching off, by domain number (Table 17-1) -/
  domains : Sparse Nat
  halfLevels : Sparse HalfLevel
  dvfs : Sparse Dvfs
  power : Power
  pins : Pins
  bridge : Bridge
  service : Sparse Service
  /-- headframe 1 acts for die 1 and the dies drain alone (R352) -/
  split : Bool
  /-- units taken out of service (Table 18-8) -/
  faulty : List Unit_
  canaries : List Canary
  /-- dies whose old generation has not drained, and whose copy is being made (R298, R299) -/
  undrained : List Nat
  copying : List Nat
  /-- nanoseconds of the present SCLK cycle that have passed, and the ranked writes made in it (R17) -/
  sclk : Nat
  ranked : List RankedWrite
  /-- interrupts that the blocks have raised to their control parents, by page (R291) -/
  irqs : Sparse Nat
  /-- the next operation number -/
  nextOp : Nat
  /-- the model's own counter of free values -/
  free : Nat
  out : List Output
  /-- commands waiting, first in first out -/
  pending : List Instr
deriving DecidableEq, Repr

/-- The device as manufactured, powered and held in reset: Table 16-2 begins at RESET_RELEASE (log entry 3). -/
def State.reset : State :=
  { regs := [], staged := [], commits := [], mem := [], ue := [], stopes := [], banks := [], stackTab := [], engines := [],
    channels := [], layers := [], routers := [], ports := [], times := [], buckets := [], host := HostPort.reset,
    mailboxes := [], history := [], security := Security.new, boot := Boot.reset, foremen := [], domains := [],
    halfLevels := [], dvfs := [], power := Power.reset, pins := Pins.reset, bridge := Bridge.reset, service := [],
    split := false, faulty := [], canaries := [], undrained := [], copying := [],
    sclk := 0, ranked := [], irqs := [], nextOp := 0, free := 0, out := [], pending := [] }

end Sys2Proof.Machine
end

