-- ==== Sys2Proof/Machine/Regs.lean ====
section
/-!
DEFINITION. The page map (Table 15-1), the block types (Table 15-8), the registers of every page with their access
codes, reserved bits and reset values, and the register file.
-/

namespace Sys2Proof.Machine

/-- Block type codes of Table 15-8. -/
abbrev btDevice : Nat := 0x0001
abbrev btDie : Nat := 0x0002
abbrev btLevel : Nat := 0x0003
abbrev btStope : Nat := 0x0004
abbrev btFace : Nat := 0x0005
abbrev btPillar : Nat := 0x0006
abbrev btGallery : Nat := 0x0007
abbrev btHoist : Nat := 0x0008
abbrev btStack : Nat := 0x0009
abbrev btBridge : Nat := 0x000A
abbrev btPort : Nat := 0x000B
abbrev btRouter : Nat := 0x000C
abbrev btHost : Nat := 0x000D
abbrev btMailbox : Nat := 0x000E
abbrev btForeman : Nat := 0x000F
abbrev btHeadframe : Nat := 0x0010
abbrev btSecurity : Nat := 0x0011
abbrev btTime : Nat := 0x0012
abbrev btAssay : Nat := 0x0013
abbrev btHistory : Nat := 0x0014

/-- The kinds of control page (Table 15-1). -/
inductive PageKind where
  | device | ident | die | headframe | security | time | history | bridge | router | rmop | foreman | stack | assay
  | port | host | mailbox | level | gallery | engine | channel | stagedRoutes | liveRoutes | stagedMc | liveMc
  | stope | face | outlier | pillar | reserved
deriving DecidableEq, Repr

/-- The kind of page `p` of die `d`, and its number among the pages of its kind on that die. -/
def pageKind (d p : Nat) : PageKind × Nat :=
  if p = 0 then (.device, 0) else if p = 1 then (.ident, 0) else if p = 2 then (.die, 0)
  else if p = 3 then (.headframe, 0) else if p = 4 then (if d = 0 then (.security, 0) else (.reserved, 0))
  else if p = 5 then (.time, 0) else if p = 6 then (.history, 0) else if p = 7 then (.bridge, 0)
  else if p = 8 then (.router, 0) else if p = 9 then (.rmop, 0)
  else if p < 0x10 then (.reserved, 0) else if p < 0x14 then (.foreman, p - 0x10) else if p < 0x18 then (.stack, p - 0x14)
  else if p < 0x1C then (.assay, p - 0x18) else if p < 0x28 then (.port, p - 0x1C) else if p < 0x40 then (.reserved, 0)
  else if p = 0x40 then (if d = 0 then (.host, 0) else (.reserved, 0))
  else if p < 0x61 then (if d = 0 then (.mailbox, p - 0x41) else (.reserved, 0))
  else if p < 0x80 then (.reserved, 0) else if p < 0x90 then (.level, p - 0x80) else if p < 0xA0 then (.gallery, p - 0x90)
  else if p < 0xC0 then (.engine, p - 0xA0) else if p < 0x140 then (.channel, p - 0xC0) else if p < 0x200 then (.reserved, 0)
  else if p < 0x220 then (.stagedRoutes, p - 0x200) else if p < 0x240 then (.liveRoutes, p - 0x220)
  else if p = 0x240 then (.stagedMc, 0) else if p = 0x241 then (.liveMc, 0) else if p < 0x400 then (.reserved, 0)
  else if p < 0x500 then (.stope, p - 0x400) else if p < 0x600 then (.face, p - 0x500)
  else if p < 0x700 then (.outlier, p - 0x600) else if p < 0x800 then (.pillar, p - 0x700) else (.reserved, 0)

/-- Block type of a page kind (Table 15-1). -/
def kindType : PageKind → Nat
  | .device | .ident => btDevice
  | .die => btDie
  | .headframe => btHeadframe
  | .security => btSecurity
  | .time => btTime
  | .history => btHistory
  | .bridge => btBridge
  | .router | .rmop | .stagedRoutes | .liveRoutes | .stagedMc | .liveMc => btRouter
  | .foreman => btForeman
  | .stack => btStack
  | .assay => btAssay
  | .port => btPort
  | .host => btHost
  | .mailbox => btMailbox
  | .level => btLevel
  | .gallery => btGallery
  | .engine | .channel => btHoist
  | .stope => btStope
  | .face | .outlier => btFace
  | .pillar => btPillar
  | .reserved => 0

/-- Instance in `BLK_ID` of local page `j` of a kind on die `d` (Table 15-1). -/
def kindInst (k : PageKind) (d j : Nat) : Nat :=
  match k with
  | .die | .headframe | .time | .history | .router | .rmop => d
  | .foreman | .stack | .assay => 4 * d + j
  | .port => 12 * d + j
  | .mailbox => j
  | .level | .gallery => 16 * d + j
  | .engine => 32 * d + j
  | .channel => 32 * d + j / 4
  | .stope | .face | .outlier | .pillar => 256 * d + j
  | _ => 0

/-- Page index in `BLK_REV` (Table 15-3): 0 for the first page of a block. -/
def kindIndex (k : PageKind) (d j : Nat) : Nat :=
  match k with
  | .ident | .rmop | .outlier => 1
  | .bridge => d
  | .channel => 1 + j % 4
  | _ => 0

/-- A table page carries no header, and every byte of it is entry data (R289). -/
def isTable : PageKind → Bool
  | .stagedRoutes | .liveRoutes | .stagedMc | .liveMc => true
  | _ => false

/-- Access codes (Table 00-4); `commit` is `BLK_COMMIT`. -/
inductive Acc where
  | ro | rw | rws | w1c | wo | rc | commit
deriving DecidableEq, Repr

/-- A register: access code, the bits that are not reserved, and the reset value. -/
structure Reg where
  acc : Acc
  mask : Nat
  reset : Nat
deriving DecidableEq, Repr

/-- Header offsets (Table 15-2). -/
abbrev BLK_ID : Nat := 0x00
abbrev BLK_REV : Nat := 0x04
abbrev BLK_STATUS : Nat := 0x08
abbrev BLK_CTL : Nat := 0x0C
abbrev BLK_COMMIT : Nat := 0x10
abbrev BLK_ERR : Nat := 0x14
abbrev BLK_IRQ_STATUS : Nat := 0x18
abbrev BLK_IRQ_MASK : Nat := 0x1C
abbrev BLK_OWNER : Nat := 0x20
abbrev BLK_LEASE_END : Nat := 0x24

-- DEVICE and IDENT pages (Tables 15-12, 15-13)
abbrev DEV_STATE : Nat := 0x040
abbrev GEN_LIVE : Nat := 0x044
abbrev GEN_STATE : Nat := 0x048
abbrev REFUSED_PAGE : Nat := 0x04C
abbrev REFUSED_INFO : Nat := 0x050
abbrev REFUSED_COUNT : Nat := 0x054
-- stope page (Table 06-8)
abbrev PROG_IMG_LO : Nat := 0x040
abbrev PROG_IMG_HI : Nat := 0x044
abbrev PROG_CMD : Nat := 0x048
abbrev PROG_STATUS : Nat := 0x04C
abbrev PROG_PC : Nat := 0x050
abbrev PROG_ENTRY : Nat := 0x054
abbrev ARG0_LO : Nat := 0x058
abbrev SEED_LO : Nat := 0x078
abbrev STEP_LO : Nat := 0x080
abbrev SCAV_LIMIT : Nat := 0x088
abbrev ASYNC_FAIL : Nat := 0x08C
abbrev OUTSTANDING : Nat := 0x090
abbrev UPD_STATUS : Nat := 0x0C0
abbrev UPD_DONE : Nat := 0x0C4
abbrev WIN_BASE : Nat := 0x100
-- face pages (Tables 03-4, 04-5)
abbrev TILE_STATUS : Nat := 0x040
abbrev FB_CTL : Nat := 0x040
abbrev FB_BUDGET : Nat := 0x044
abbrev FB_LEFT : Nat := 0x048
abbrev AMAX_TILE : Nat := 0x04C
abbrev AMAX_SLOT0 : Nat := 0x050
abbrev SAT_TILE : Nat := 0x070
abbrev F_SAT_TOTAL : Nat := 0x074
abbrev NUG_TOTAL : Nat := 0x078
abbrev OVER_TOTAL : Nat := 0x07C
abbrev F_NAN_TOTAL : Nat := 0x080
abbrev FB_TOTAL : Nat := 0x084
abbrev CLIP_TOTAL : Nat := 0x088
abbrev F_CNT_CLEAR : Nat := 0x08C
-- bank page (Table 07-10)
abbrev MODE : Nat := 0x040
abbrev EXCL : Nat := 0x044
abbrev LAST_RECALL : Nat := 0x048
abbrev RECALLS : Nat := 0x04C
abbrev B_COLL : Nat := 0x050
abbrev CONFLICT : Nat := 0x054
abbrev B_DENIED : Nat := 0x058
-- stack page (Table 08-5)
abbrev S_TEMP : Nat := 0x040
abbrev S_STATE : Nat := 0x044
abbrev RESUME : Nat := 0x048
abbrev HOT_EVENTS : Nat := 0x04C
abbrev CRIT_EVENTS : Nat := 0x050
abbrev CE_COUNT : Nat := 0x054
abbrev UE_COUNT : Nat := 0x058
abbrev REMAPS : Nat := 0x05C
abbrev SPARES_LEFT : Nat := 0x060
abbrev LAST_UE_LO : Nat := 0x064
abbrev LAST_UE_HI : Nat := 0x068
-- hoist pages (Tables 10-5, 10-6)
abbrev CH_ACTIVE : Nat := 0x040
abbrev TABLE_ID0 : Nat := 0x044
abbrev H_POISONED : Nat := 0x054
abbrev LAST_CAUSE : Nat := 0x058
abbrev RETRIES : Nat := 0x05C
abbrev COLLS : Nat := 0x060
abbrev AMAX_TOTAL : Nat := 0x064
abbrev H_SAT_TOTAL : Nat := 0x068
abbrev H_NAN_TOTAL : Nat := 0x06C
abbrev H_CNT_CLEAR : Nat := 0x070
abbrev CH_CMD : Nat := 0x040
abbrev SCRIPT_LO : Nat := 0x044
abbrev SCRIPT_HI : Nat := 0x048
abbrev CH_LAUNCH : Nat := 0x04C
abbrev CH_DL_NS : Nat := 0x050
abbrev CH_STATUS : Nat := 0x054
abbrev DESC_IDX : Nat := 0x058
abbrev CH_STEPS : Nat := 0x05C
-- remote-op page (Table 11-5)
abbrev SYS_EPOCH : Nat := 0x040
abbrev RETRY_NS : Nat := 0x044
abbrev RC_BANKS : Nat := 0x048
abbrev RC_LIFE : Nat := 0x04C
abbrev DIR_USED : Nat := 0x050
abbrev EPOCH_REJ : Nat := 0x054
abbrev DUP_DISCARD : Nat := 0x058
abbrev RETRANSMIT : Nat := 0x05C
abbrev RC_HITS : Nat := 0x060
abbrev RC_MISSES : Nat := 0x064
abbrev INV_SENT : Nat := 0x068
abbrev ABSENT_DISCARD : Nat := 0x06C
abbrev MC_FAIL : Nat := 0x070
abbrev MALFORMED : Nat := 0x074
abbrev STALE_DISCARD : Nat := 0x078
abbrev RM_REGION : Nat := 0x080
-- port page (Table 12-9)
abbrev P_CMD : Nat := 0x040
abbrev P_STATE : Nat := 0x044
abbrev PEER : Nat := 0x048
abbrev PEER_REV : Nat := 0x04C
abbrev FLIGHT_NS : Nat := 0x050
abbrev CRC_ERR : Nat := 0x054
abbrev P_REPLAYS : Nat := 0x058
abbrev RETRAINS : Nat := 0x05C
abbrev Q_DISCARD : Nat := 0x060
abbrev STOMPED : Nat := 0x064
abbrev HOP_DROP : Nat := 0x068
abbrev LATE_DROP : Nat := 0x06C
abbrev MC_STRAY : Nat := 0x070
-- time page (Table 13-6)
abbrev TIME_LO : Nat := 0x040
abbrev TIME_HI : Nat := 0x044
abbrev TIME_STATE : Nat := 0x048
abbrev OFFSET_NS : Nat := 0x04C
abbrev DELAY_NS : Nat := 0x050
abbrev TIME_CTL : Nat := 0x054
abbrev DOUBT_COUNT : Nat := 0x058
abbrev PROM_EXP : Nat := 0x060
abbrev PROM_ROL : Nat := 0x064
abbrev PROM_BULK : Nat := 0x068
abbrev SHARES : Nat := 0x06C
abbrev WINDOW_NS : Nat := 0x070
abbrev FLIGHT_ALLOW : Nat := 0x074
abbrev FLOOR_TARGET : Nat := 0x078
abbrev FLOOR_NS : Nat := 0x07C
abbrev WD_CTL : Nat := 0x080
abbrev WD_ADDR_LO : Nat := 0x084
abbrev WD_ADDR_HI : Nat := 0x088
abbrev WD_COUNT : Nat := 0x08C
abbrev THROTTLE : Nat := 0x090
abbrev ADM_REFUSED : Nat := 0x094
abbrev LATE_COMP : Nat := 0x098
abbrev DL_FAILS : Nat := 0x09C
-- host page (Table 14-5)
abbrev Q_CMD : Nat := 0x040
abbrev Q_STATE : Nat := 0x044
abbrev RQ_BASE_LO : Nat := 0x048
abbrev RQ_BASE_HI : Nat := 0x04C
abbrev RQ_SIZE : Nat := 0x050
abbrev RQ_TAIL : Nat := 0x054
abbrev RQ_HEAD : Nat := 0x058
abbrev CQ_BASE_LO : Nat := 0x05C
abbrev CQ_BASE_HI : Nat := 0x060
abbrev CQ_SIZE : Nat := 0x064
abbrev CQ_HEAD : Nat := 0x068
abbrev CQ_TAIL : Nat := 0x06C
abbrev DOORBELL : Nat := 0x070
abbrev DB_MASK_HOST : Nat := 0x074
abbrev DB_MASK_HF : Nat := 0x078
abbrev AP_WFAIL : Nat := 0x07C
abbrev DISCARDED : Nat := 0x080
abbrev AP_BASE : Nat := 0x090
abbrev HOST_WIN : Nat := 0x180
-- mailbox page (Table 14-6)
abbrev M_CTL : Nat := 0x040
abbrev M_POP : Nat := 0x044
abbrev M_STATUS : Nat := 0x048
abbrev M_COLL : Nat := 0x04C
abbrev M_DROPPED : Nat := 0x050
abbrev M_RESULT : Nat := 0x060
abbrev M_HEAD : Nat := 0x0C0
abbrev M_POST : Nat := 0x100
-- headframe page (Table 16-6)
abbrev HF_STATE : Nat := 0x040
abbrev MUSTER_STAT : Nat := 0x044
abbrev ASSIGN : Nat := 0x048
abbrev PIN_FUNC_LO : Nat := 0x050
abbrev PIN_FUNC_HI : Nat := 0x054
abbrev PIN_PARK : Nat := 0x058
abbrev GPIO_OUT : Nat := 0x05C
abbrev GPIO_IN : Nat := 0x060
abbrev PROFILE_IN : Nat := 0x080
-- die and foreman pages (Tables 17-9, 17-10)
abbrev DVFS_POINT : Nat := 0x040
abbrev DVFS_STATE : Nat := 0x044
abbrev DIE_TEMP : Nat := 0x048
abbrev RAIL_STATE : Nat := 0x04C
abbrev DIE_PWR : Nat := 0x050
abbrev MOD_PWR : Nat := 0x054
abbrev CAP_EVENTS : Nat := 0x058
abbrev THROTTLES : Nat := 0x05C
abbrev FM_STATE : Nat := 0x040
abbrev DOM_CMD : Nat := 0x044
abbrev DOM_STATE : Nat := 0x048
abbrev HL_TEMP_LO : Nat := 0x04C
abbrev HL_TEMP_HI : Nat := 0x050
abbrev THERM_EVENTS : Nat := 0x054
-- assay and history pages (Tables 18-3, 18-7), bridge (R353), router and level (R304)
abbrev ASSAY_CTL : Nat := 0x040
abbrev CANARY_BASE : Nat := 0x044
abbrev CANARY_SIZE : Nat := 0x048
abbrev RANGE_FAILS : Nat := 0x04C
abbrev CHK_FAILS : Nat := 0x050
abbrev CANARY_RUNS : Nat := 0x054
abbrev CANARY_FAILS : Nat := 0x058
abbrev CANARY_SKIPPED : Nat := 0x05C
abbrev LAST_FAIL : Nat := 0x060
abbrev RECORDS : Nat := 0x040
abbrev NEXT_SEQ : Nat := 0x044
abbrev POWERED_S : Nat := 0x048
abbrev SEAL : Nat := 0x04C
abbrev READ_IDX : Nat := 0x050
abbrev REMAP_LOST : Nat := 0x054
abbrev UE_USED : Nat := 0x058
abbrev DRAIN_WIN : Nat := 0x05C
abbrev RECORD : Nat := 0x060
abbrev COPY_BASE : Nat := 0x080
abbrev BR_STATE : Nat := 0x040
abbrev BR_REPLAYS : Nat := 0x044
abbrev RT_VALID : Nat := 0x040
abbrev MESH_STALLS : Nat := 0x040
-- security page (Table 19-5)
abbrev REJECTS : Nat := 0x040
abbrev SEC_STATE : Nat := 0x044
abbrev FLOOR : Nat := 0x048
abbrev SVN_RAISE : Nat := 0x04C
abbrev REVOKE : Nat := 0x050
abbrev KEY_CMD : Nat := 0x054
abbrev KEY_RESULT : Nat := 0x058
abbrev LINK_CRYPT : Nat := 0x05C
abbrev KEY_IN : Nat := 0x060
abbrev PEER_WIN : Nat := 0x100

/-- All thirty-two bits. -/
abbrev m32 : Nat := 0xFFFFFFFF

/-- A window register of Table 06-10 by its place in the window's sixteen bytes. -/
def winReg (o : Nat) : Reg :=
  if o % 16 = 0 then ⟨.rws, 0xFFFFF000, 0⟩ else if o % 16 = 12 then ⟨.rws, 0x3F, 0⟩ else ⟨.rws, m32, 0⟩

/-- A page carries a lease (Table 15-11). -/
def hasLease : PageKind → Bool
  | .pillar | .gallery | .channel | .mailbox | .router | .stack => true
  | _ => false

/-- The quadrant of stope or pillar bank number `n` (Table 01-1). -/
def quadOf (n : Nat) : Nat := 4 * (n / 256) + 2 * (if n % 256 / 16 ≥ 8 then 1 else 0) + (if n % 16 ≥ 8 then 1 else 0)

/-- The quadrant that holds half 0 of level `l`: its anchor foreman. -/
def anchorOf (l : Nat) : Nat := 4 * (l / 16) + 2 * (if l % 16 ≥ 8 then 1 else 0)

/-- Reset holder of a leased page (Table 15-11, Table 07-6). -/
def ownerReset (k : PageKind) (d j : Nat) : Nat :=
  match k with
  | .pillar => 0x000F0000 + quadOf (256 * d + j)
  | .gallery => 0x000F0000 + anchorOf (16 * d + j)
  | .channel => 0x000F0000 + (4 * d + j / 32)
  | .stack => 0x000F0000 + (4 * d + j)
  | .mailbox | .router => 0x00100000
  | _ => 0

/-- Reset state of a block type in `BLK_STATUS` (Table 15-8). -/
def statusReset : PageKind → Nat
  | .stope | .face | .outlier | .stack | .port => 0
  | .pillar | .gallery => 3
  | _ => 1

/-- A page of the kind has RWS fields of its own, outside the profile (R296). -/
def hasOwnRws : PageKind → Bool
  | .outlier | .stope | .host | .rmop | .die | .assay | .security => true
  | _ => false

/-- The registers of the common header (Table 15-2). -/
def headerReg (k : PageKind) (d j off : Nat) : Option Reg :=
  if off = BLK_ID then some ⟨.ro, m32, kindType k * 65536 + kindInst k d j⟩
  else if off = BLK_REV then some ⟨.ro, m32, 1 + 0x100 * kindIndex k d j⟩
  else if off = BLK_STATUS then some ⟨.ro, 7, statusReset k⟩
  else if off = BLK_CTL then some ⟨.rw, 1, 0⟩
  else if off = BLK_COMMIT then some ⟨if k = .device || hasOwnRws k then .commit else .ro, 0xFFFF, 0⟩
  else if off = BLK_ERR then some ⟨.w1c, 3, 0⟩
  else if off = BLK_IRQ_STATUS then some ⟨.w1c, 7, 0⟩
  else if off = BLK_IRQ_MASK then some ⟨.rw, 7, 3⟩
  else if off = BLK_OWNER then some ⟨if hasLease k then .rw else .ro, m32, ownerReset k d j⟩
  else if off = BLK_LEASE_END then some ⟨if hasLease k then .rw else .ro, m32, 0⟩
  else none

/-- Registers past the header, by page kind, die and offset. -/
def bodyReg (k : PageKind) (d off : Nat) : Option Reg :=
  match k with
  | .device =>
    if off = GEN_STATE then some ⟨.ro, m32, 0x0001FFFF⟩
    else if off = REFUSED_COUNT then some ⟨.rc, m32, 0⟩
    else if 0x040 ≤ off && off < 0x054 then some ⟨.ro, m32, 0⟩ else none
  | .ident =>
    if off = 0x040 then some ⟨.ro, m32, 0x5CF0C512⟩ else if off = 0x044 then some ⟨.ro, m32, 0x01000100⟩
    else if off = 0x048 then some ⟨.ro, m32, 0xC5120000 + Config.vendorId.toNat⟩
    else if off = 0x04C then some ⟨.ro, m32, Config.carrierRev.toNat⟩
    else if off = 0x050 then some ⟨.ro, m32, Config.serial.toNat % 2 ^ 32⟩
    else if off = 0x054 then some ⟨.ro, m32, Config.serial.toNat / 2 ^ 32⟩
    else if off = 0x058 then some ⟨.ro, m32, Config.mfgDate.toNat⟩
    else if off = 0x05C || off = 0x060 || off = 0x064 || (0x080 ≤ off && off < 0x0B0) then some ⟨.ro, m32, 0⟩ else none
  | .die =>
    if off = DVFS_POINT then some ⟨.rws, 7, 0⟩
    else if off = MOD_PWR then (if d = 0 then some ⟨.ro, m32, 0⟩ else none)
    else if off = CAP_EVENTS then (if d = 0 then some ⟨.rc, m32, 0⟩ else none)
    else if off = THROTTLES then some ⟨.rc, m32, 0⟩
    else if 0x044 ≤ off && off < 0x054 then some ⟨.ro, m32, 0⟩ else none
  | .headframe =>
    if off = HF_STATE then some ⟨.ro, m32, 0⟩
    else if d = 1 then none
    else if off = MUSTER_STAT then some ⟨.ro, m32, 0⟩ else if off = ASSIGN then some ⟨.wo, 0x3FFF, 0⟩
    else if off = PIN_FUNC_LO || off = PIN_FUNC_HI then some ⟨.rw, m32, 0⟩
    else if off = PIN_PARK || off = GPIO_IN then some ⟨.ro, m32, 0⟩
    else if off = GPIO_OUT then some ⟨.rw, 0xFFFF, 0⟩
    else if PROFILE_IN ≤ off && off < 0x0B0 then some ⟨.rw, m32, 0⟩ else none
  | .security =>
    if off = REJECTS then some ⟨.rc, m32, 0⟩ else if off = SEC_STATE || off = FLOOR || off = KEY_RESULT then some ⟨.ro, m32, 0⟩
    else if off = SVN_RAISE then some ⟨.wo, 0xFF07, 0⟩ else if off = REVOKE then some ⟨.wo, 0x13, 0⟩
    else if off = KEY_CMD then some ⟨.wo, 3, 0⟩ else if off = LINK_CRYPT then some ⟨.rws, 0xFFFFFF, 0⟩
    else if off = KEY_IN + 4 then some ⟨.wo, 0xFF, 0⟩ else if KEY_IN ≤ off && off < 0x0B0 then some ⟨.wo, m32, 0⟩
    else if 0x110 ≤ off && off < 0x180 then some (winReg off) else none
  | .time =>
    if off = TIME_STATE then some ⟨.ro, m32, 0xF1F0⟩
    else if off = TIME_LO || off = TIME_HI || off = OFFSET_NS || off = DELAY_NS || off = DOUBT_COUNT || off = WD_COUNT then some ⟨.ro, m32, 0⟩
    else if off = TIME_CTL then some ⟨.rws, if d = 0 then 3 else 0, 0⟩
    else if off = PROM_EXP then some ⟨.rws, m32, 0x4E20⟩ else if off = PROM_ROL then some ⟨.rws, m32, 0xEA60⟩
    else if off = PROM_BULK then some ⟨.rws, m32, 0x1E8480⟩ else if off = SHARES then some ⟨.rws, 0x3F3F3F3F, 0x04181808⟩
    else if off = WINDOW_NS then some ⟨.rws, m32, 0xFA0⟩ else if off = FLIGHT_ALLOW then some ⟨.rws, 0x7FF, 0x64⟩
    else if off = FLOOR_TARGET then some ⟨.rw, 0x1FFFF, 0⟩ else if off = FLOOR_NS then some ⟨.ro, m32, 0xFFFFFFFF⟩
    else if off = WD_CTL then some ⟨.rws, 0x1FF, 0⟩ else if off = WD_ADDR_LO then some ⟨.rws, 0xFFFFFFC0, 0⟩
    else if off = WD_ADDR_HI then some ⟨.rws, 0x3FFFF, 0⟩ else if off = THROTTLE then some ⟨.rw, 0xFFFF, 0⟩
    else if off = ADM_REFUSED || off = LATE_COMP || off = DL_FAILS then some ⟨.rc, m32, 0⟩ else none
  | .history =>
    if off = READ_IDX then some ⟨.rw, 0xFFFF, 0⟩ else if off = DRAIN_WIN then some ⟨.rw, 0xFFFF, 0x3E8⟩
    else if 0x040 ≤ off && off < 0x080 then some ⟨.ro, m32, 0⟩
    else if COPY_BASE ≤ off && off < 0x0C0 then
      (if off % 16 = 0 then some ⟨.rw, 0xFFFFF000, 0⟩ else if off % 16 = 12 then none else some ⟨.rw, m32, 0⟩)
    else none
  | .bridge => if off = BR_STATE then some ⟨.ro, 3, 0⟩ else if off = BR_REPLAYS then some ⟨.rc, m32, 0⟩ else none
  | .router => if off = RT_VALID then some ⟨.ro, 0x7FFF, 0⟩ else none
  | .rmop =>
    if off = SYS_EPOCH then some ⟨.rws, m32, 0⟩ else if off = RETRY_NS then some ⟨.rws, m32, 0xFA0⟩
    else if off = RC_BANKS then some ⟨.rws, 0xFFFF, 0⟩ else if off = RC_LIFE then some ⟨.rws, 0x3FF, 0x64⟩
    else if off = DIR_USED then some ⟨.ro, m32, 0⟩
    else if EPOCH_REJ ≤ off && off < 0x07C then some ⟨.rc, m32, 0⟩
    else if RM_REGION ≤ off && off < 0x180 then
      (if off % 16 = 0 then some ⟨.rws, 0xFFFFF000, 0⟩ else if off % 16 = 12 then none else some ⟨.rws, m32, 0⟩)
    else none
  | .foreman =>
    if off = DOM_CMD then some ⟨.wo, 0x3F, 0⟩ else if off = THERM_EVENTS then some ⟨.rc, m32, 0⟩
    else if 0x040 ≤ off && off < 0x054 then some ⟨.ro, m32, 0⟩ else none
  | .stack =>
    if off = RESUME then some ⟨.wo, 1, 0⟩ else if off = CE_COUNT || off = UE_COUNT then some ⟨.rc, m32, 0⟩
    else if off = SPARES_LEFT then some ⟨.ro, m32, 0xC0000⟩
    else if 0x040 ≤ off && off < 0x06C then some ⟨.ro, m32, 0⟩ else none
  | .assay =>
    if off = ASSAY_CTL then some ⟨.rws, 0x3FFF, 0⟩ else if off = CANARY_BASE then some ⟨.rws, 0x1FF000, 0⟩
    else if off = CANARY_SIZE then some ⟨.rws, 0x1FF, 0⟩ else if off = LAST_FAIL then some ⟨.ro, m32, 0⟩
    else if RANGE_FAILS ≤ off && off < 0x060 then some ⟨.rc, m32, 0⟩ else none
  | .port =>
    if off = P_CMD then some ⟨.wo, 3, 0⟩ else if off = P_STATE then some ⟨.ro, m32, 1⟩
    else if off = PEER then some ⟨.ro, m32, 0x7FFF⟩ else if off = PEER_REV || off = FLIGHT_NS || off = RETRAINS then some ⟨.ro, m32, 0⟩
    else if 0x054 ≤ off && off < 0x074 then some ⟨.rc, m32, 0⟩ else none
  | .host =>
    if off = Q_CMD then some ⟨.wo, 3, 0⟩ else if off = RQ_TAIL || off = CQ_HEAD then some ⟨.wo, 0xFFFF, 0⟩
    else if off = Q_STATE || off = RQ_HEAD || off = CQ_TAIL then some ⟨.ro, m32, 0⟩
    else if off = RQ_BASE_LO || off = CQ_BASE_LO then some ⟨.rw, 0xFFFFF000, 0⟩
    else if off = RQ_BASE_HI || off = CQ_BASE_HI then some ⟨.rw, m32, 0⟩
    else if off = RQ_SIZE || off = CQ_SIZE then some ⟨.rw, 0x1F, 6⟩
    else if off = DOORBELL then some ⟨.w1c, m32, 0⟩ else if off = DB_MASK_HOST || off = DB_MASK_HF then some ⟨.rw, m32, 0⟩
    else if off = AP_WFAIL || off = DISCARDED then some ⟨.rc, m32, 0⟩
    else if AP_BASE ≤ off && off < 0x190 then
      (if off % 16 = 0 then some ⟨.rw, 0xFFFFF000, 0⟩ else if off % 16 = 4 then some ⟨.rw, m32, 0⟩
       else if off % 16 = 8 then some ⟨.rw, 0xF, 0⟩ else none)
    else if 0x190 ≤ off && off < 0x200 then some (winReg off) else none
  | .mailbox =>
    if off = M_CTL then some ⟨.rw, 7, 0⟩ else if off = M_POP then some ⟨.wo, 1, 0⟩ else if off = M_STATUS then some ⟨.ro, 0x1F, 0⟩
    else if off = M_COLL then some ⟨.w1c, 1, 0⟩ else if off = M_DROPPED then some ⟨.rc, m32, 0⟩
    else if (M_RESULT ≤ off && off < 0x0A0) || (M_HEAD ≤ off && off < 0x100) then some ⟨.ro, m32, 0⟩
    else if M_POST ≤ off && off < 0x140 then some ⟨.wo, m32, 0⟩ else none
  | .level => if off = MESH_STALLS then some ⟨.rc, m32, 0⟩ else none
  | .pillar | .gallery =>
    if off = MODE then some ⟨.rw, 3, 1⟩ else if off = EXCL then some ⟨.rw, 1, 0⟩
    else if off = LAST_RECALL || off = RECALLS then some ⟨.ro, m32, 0⟩
    else if off = B_COLL || off = CONFLICT || off = B_DENIED then some ⟨.rc, m32, 0⟩ else none
  | .engine =>
    if off = CH_ACTIVE || (TABLE_ID0 ≤ off && off < 0x054) || off = LAST_CAUSE then some ⟨.ro, m32, 0⟩
    else if off = H_POISONED || off = RETRIES || off = COLLS then some ⟨.rc, m32, 0⟩
    else if AMAX_TOTAL ≤ off && off < 0x070 then some ⟨.ro, m32, 0⟩ else if off = H_CNT_CLEAR then some ⟨.wo, 1, 0⟩ else none
  | .channel =>
    if off = CH_CMD then some ⟨.wo, 3, 0⟩ else if off = SCRIPT_LO then some ⟨.rw, 0xFFFFFFC0, 0⟩
    else if off = SCRIPT_HI || off = CH_DL_NS then some ⟨.rw, m32, 0⟩ else if off = CH_LAUNCH then some ⟨.rw, 3, 0⟩
    else if CH_STATUS ≤ off && off < 0x060 then some ⟨.ro, m32, 0⟩ else none
  | .stope =>
    if off = PROG_IMG_LO then some ⟨.rw, 0xFFFFF000, 0⟩ else if off = PROG_IMG_HI then some ⟨.rw, m32, 0⟩
    else if off = PROG_CMD then some ⟨.wo, 3, 0⟩ else if off = PROG_STATUS || off = PROG_PC || off = OUTSTANDING then some ⟨.ro, m32, 0⟩
    else if off = PROG_ENTRY then some ⟨.rw, 0x1FFF, 0⟩
    else if ARG0_LO ≤ off && off < SCAV_LIMIT then some ⟨.rw, m32, 0⟩
    else if off = SCAV_LIMIT then some ⟨.rw, m32, 0x00989680⟩ else if off = ASYNC_FAIL then some ⟨.rc, m32, 0⟩
    else if off = UPD_STATUS || off = UPD_DONE then some ⟨.ro, m32, 0⟩
    else if 0x110 ≤ off && off < 0x180 then some (winReg off) else none
  | .face => if off = TILE_STATUS then some ⟨.ro, m32, 0⟩ else none
  | .outlier =>
    if off = FB_CTL then some ⟨.rws, 0xFF, 4⟩ else if off = FB_BUDGET then some ⟨.rws, m32, 0⟩
    else if FB_LEFT ≤ off && off < F_CNT_CLEAR then some ⟨.ro, m32, 0⟩
    else if off = F_CNT_CLEAR then some ⟨.wo, 0x1FF, 0⟩ else none
  | .stagedRoutes | .stagedMc => some ⟨.rw, m32, 0⟩
  | .liveRoutes | .liveMc => some ⟨.ro, m32, 0⟩
  | .reserved => none

/-- A global page number is 8,192 × die + page (Table 14-1). -/
def gpage (d p : Nat) : Nat := 8192 * d + p

/-- The register at a global page and offset; `none` where the page or offset is reserved. -/
def regOf (pg off : Nat) : Option Reg :=
  let d := pg / 8192
  let kj := pageKind d (pg % 8192)
  if kj.1 = .reserved then none
  else if isTable kj.1 then bodyReg kj.1 d off
  else if off < 0x40 then headerReg kj.1 d kj.2 off
  else bodyReg kj.1 d off

/-- Reset value of a register; 0 where there is none. -/
def regReset (pg off : Nat) : W32 :=
  match regOf pg off with
  | some r => BitVec.ofNat 32 r.reset
  | none => 0

/-- Key of a register in the register file: its 32-bit word in BAR0. -/
def rkey (pg off : Nat) : Nat := 1024 * pg + off / 4

/-- Global pages of the blocks. -/
def pgDie (d : Nat) : Nat := gpage d 2
def pgHeadframe (d : Nat) : Nat := gpage d 3
def pgSecurity : Nat := gpage 0 4
def pgTime (d : Nat) : Nat := gpage d 5
def pgHistory (d : Nat) : Nat := gpage d 6
def pgBridge (d : Nat) : Nat := gpage d 7
def pgRouter (d : Nat) : Nat := gpage d 8
def pgRmop (d : Nat) : Nat := gpage d 9
def pgForeman (f : Nat) : Nat := gpage (f / 4) (0x10 + f % 4)
def pgStack (k : Nat) : Nat := gpage (k / 4) (0x14 + k % 4)
def pgAssay (q : Nat) : Nat := gpage (q / 4) (0x18 + q % 4)
def pgPort (p : Nat) : Nat := gpage (p / 12) (0x1C + p % 12)
def pgHost : Nat := gpage 0 0x40
def pgMailbox (m : Nat) : Nat := gpage 0 (0x41 + m)
def pgEngine (e : Nat) : Nat := gpage (e / 32) (0xA0 + e % 32)
def pgChannel (c : Nat) : Nat := gpage (c / 128) (0xC0 + c % 128)
def pgStope (n : Nat) : Nat := gpage (n / 256) (0x400 + n % 256)
def pgFace (n : Nat) : Nat := gpage (n / 256) (0x500 + n % 256)
def pgOutlier (n : Nat) : Nat := gpage (n / 256) (0x600 + n % 256)
/-- Page of bank `b`: pillar banks 0 to 511, gallery banks 512 to 543. -/
def pgBank (b : Nat) : Nat :=
  if b < 512 then gpage (b / 256) (0x700 + b % 256) else gpage ((b - 512) / 16) (0x90 + (b - 512) % 16)

/-- The live value of a register that the register file holds. -/
def rd (s : State) (pg off : Nat) : W32 := (Sparse.get none s.regs (rkey pg off)).getD (regReset pg off)

/-- Write the live value of a register. -/
def wr (s : State) (pg off : Nat) (v : W32) : State :=
  { s with regs := Sparse.set none s.regs (rkey pg off) (some v) }

/-- The staged value of an RWS register: the last value written (R295). -/
def rdStaged (s : State) (pg off : Nat) : W32 := (Sparse.get none s.staged (rkey pg off)).getD (rd s pg off)

/-- Write the staged value of an RWS register. -/
def wrStaged (s : State) (pg off : Nat) (v : W32) : State :=
  { s with staged := Sparse.set none s.staged (rkey pg off) (some v) }

/-- Add to a counter that stops at 0xFFFF_FFFF. -/
def bump (s : State) (pg off n : Nat) : State :=
  wr s pg off (BitVec.ofNat 32 (Nat.min 0xFFFFFFFF ((rd s pg off).toNat + n)))

/-- Set bits of a register. -/
def setBits (s : State) (pg off bits : Nat) : State := wr s pg off (BitVec.ofNat 32 ((rd s pg off).toNat ||| bits))

/-- The DEVICE page (0) or IDENT page (1) that serves die `d`: one set of registers, or each die's own in split mode (R289). -/
def devPage (s : State) (d p : Nat) : Nat := if s.split then gpage d p else gpage 0 p

/-- A global page with the DEVICE and IDENT pages taken to the copy that serves. -/
def servePage (s : State) (pg : Nat) : Nat := if pg % 8192 < 2 then devPage s (pg / 8192) (pg % 8192) else pg

/-- The 64-bit value of a register pair, low half first. -/
def rd64 (s : State) (pg off : Nat) : W64 := BitVec.ofNat 64 ((rd s pg off).toNat + 2 ^ 32 * (rd s pg (off + 4)).toNat)

/-- Some bit of `bits` may interrupt the control parent under a mask: the interrupt is counted under its page (Table 15-2). -/
def parentIrq (s : State) (pg bits mask : Nat) : State :=
  { s with irqs := if bits &&& mask = 0 then s.irqs else Sparse.upd 0 s.irqs pg (fun n => n + 1) }

/-- Set bits of `BLK_IRQ_STATUS`: those that go from 0 to 1 interrupt the control parent where `BLK_IRQ_MASK` lets them (R291). -/
def setIrq (s : State) (pg bits : Nat) : State :=
  let old := (rd s pg BLK_IRQ_STATUS).toNat
  parentIrq (setBits s pg BLK_IRQ_STATUS bits) pg (bits - (bits &&& old)) (rd s pg BLK_IRQ_MASK).toNat

/-- Set `BLK_IRQ_STATUS.EVENT` of a page. -/
def event (s : State) (pg : Nat) : State := setIrq s pg 1

/-- Set a bit of `BLK_ERR`; a bit that goes from 0 to 1 sets `BLK_IRQ_STATUS.ERR` (Table 15-7). -/
def blkErr (s : State) (pg bit : Nat) : State :=
  if bitsOf (rd s pg BLK_ERR).toNat bit bit = 1 then s
  else setIrq (setBits s pg BLK_ERR (2 ^ bit)) pg 2

/-- The record of a refused write in the device page (R294). -/
def recordRefused (s : State) (w : Agent) (pg off : Nat) : State :=
  let d := pg / 8192
  let dp := devPage s d 0
  let s2 := wr s dp REFUSED_PAGE (BitVec.ofNat 32 (pg % 8192 + 2 ^ 13 * d + 2 ^ 14 * off))
  let s3 := wr s2 dp REFUSED_INFO (BitVec.ofNat 32 (w.ty % 65536 + 65536 * w.inst))
  bump s3 dp REFUSED_COUNT 1

/-- A refused write (R294): `BLK_ERR.REFUSED_WRITE`, in the router's page for one of its table pages, and the record in the device page. -/
def refuseWrite (s : State) (w : Agent) (pg off : Nat) : State :=
  let d := pg / 8192
  recordRefused (blkErr s (if isTable (pageKind d (pg % 8192)).1 then pgRouter d else pg) 0) w pg off

end Sys2Proof.Machine
end

