-- ==== Sys2Proof/Machine/Ops.lean ====
section
/-!
DEFINITION. Named operations over the parts of the state: stopes and their registers, tickets, memory, banks and
their tallies, agents and their authority, time, and what the device sends out.
-/

namespace Sys2Proof.Machine

-- the parts by number -------------------------------------------------------------------------------------------

def stope (s : State) (n : Nat) : Stope := Sparse.get Stope.reset s.stopes n
def setStope (s : State) (n : Nat) (x : Stope) : State := { s with stopes := Sparse.set Stope.reset s.stopes n x }
def bank (s : State) (b : Nat) : Bank := Sparse.get Bank.reset s.banks b
def setBank (s : State) (b : Nat) (x : Bank) : State := { s with banks := Sparse.set Bank.reset s.banks b x }
def stack (s : State) (k : Nat) : Stack := Sparse.get Stack.reset s.stackTab k
def setStack (s : State) (k : Nat) (x : Stack) : State := { s with stackTab := Sparse.set Stack.reset s.stackTab k x }
def engine (s : State) (e : Nat) : Engine := Sparse.get Engine.reset s.engines e
def setEngine (s : State) (e : Nat) (x : Engine) : State := { s with engines := Sparse.set Engine.reset s.engines e x }
def channel (s : State) (c : Nat) : Channel := Sparse.get Channel.reset s.channels c
def setChannel (s : State) (c : Nat) (x : Channel) : State := { s with channels := Sparse.set Channel.reset s.channels c x }
def layer (s : State) (d : Nat) : RemoteLayer := Sparse.get RemoteLayer.reset s.layers d
def setLayer (s : State) (d : Nat) (x : RemoteLayer) : State := { s with layers := Sparse.set RemoteLayer.reset s.layers d x }
def router (s : State) (d : Nat) : Router := Sparse.get Router.reset s.routers d
def setRouter (s : State) (d : Nat) (x : Router) : State := { s with routers := Sparse.set Router.reset s.routers d x }
def port (s : State) (p : Nat) : Port := Sparse.get Port.reset s.ports p
def setPort (s : State) (p : Nat) (x : Port) : State := { s with ports := Sparse.set Port.reset s.ports p x }
def timeBlk (s : State) (d : Nat) : TimeBlk := Sparse.get TimeBlk.reset s.times d
def setTime (s : State) (d : Nat) (x : TimeBlk) : State := { s with times := Sparse.set TimeBlk.reset s.times d x }
def history (s : State) (d : Nat) : History := Sparse.get History.new s.history d
def setHistory (s : State) (d : Nat) (x : History) : State := { s with history := Sparse.set History.new s.history d x }
def foreman (s : State) (f : Nat) : Foreman := Sparse.get Foreman.reset s.foremen f
def setForeman (s : State) (f : Nat) (x : Foreman) : State := { s with foremen := Sparse.set Foreman.reset s.foremen f x }
def service (s : State) (d : Nat) : Service := Sparse.get Service.reset s.service d
def setService (s : State) (d : Nat) (x : Service) : State := { s with service := Sparse.set Service.reset s.service d x }
def halfLevel (s : State) (h : Nat) : HalfLevel := Sparse.get HalfLevel.reset s.halfLevels h
def setHalfLevel (s : State) (h : Nat) (x : HalfLevel) : State :=
  { s with halfLevels := Sparse.set HalfLevel.reset s.halfLevels h x }
def dvfs (s : State) (d : Nat) : Dvfs := Sparse.get Dvfs.reset s.dvfs d
def setDvfs (s : State) (d : Nat) (x : Dvfs) : State := { s with dvfs := Sparse.set Dvfs.reset s.dvfs d x }
/-- Domain state: 0 off, 1 powering up, 2 on, 3 switching off. -/
def domain (s : State) (n : Nat) : Nat := Sparse.get 0 s.domains n
def setDomain (s : State) (n v : Nat) : State := { s with domains := Sparse.set 0 s.domains n v }
/-- Numbers of the power domains (Table 17-1): half-levels, stacks, ports. -/
def domHalf (h : Nat) : Nat := h
def domStack (k : Nat) : Nat := 64 + k
def domPort (p : Nat) : Nat := 72 + p
def mailbox (s : State) (m : Nat) : List (List Byte) := Sparse.get [] s.mailboxes m
def setMailbox (s : State) (m : Nat) (x : List (List Byte)) : State := { s with mailboxes := Sparse.set [] s.mailboxes m x }

/-- Global time on die `d`, in ns (R267). -/
def now (s : State) (d : Nat) : Ns := (timeBlk s d).now

/-- Nanoseconds of SCLK since the release, which no setting of the time moves (R267, R268): what the spec measures as an interval is measured by it. -/
def elapsed (s : State) : Ns := s.boot.up

/-- Take the next operation number. -/
def freshOp (s : State) : State × Nat := ({ s with nextOp := s.nextOp + 1 }, s.nextOp)

/-- Take the next free value: nothing constrains it. -/
def freshValue (s : State) : State × BitVec 64 := ({ s with free := s.free + 1 }, Config.freeValue s.free)

/-- Send something out of the device. -/
def emit (s : State) (o : Output) : State := { s with out := o :: s.out }

-- agents and authority (R14 to R18) -------------------------------------------------------------------------------

/-- The acting headframe for die `d` (R22): in split mode each die's own. -/
def acting (s : State) (d : Nat) : Agent :=
  if s.split then ⟨btHeadframe, d⟩
  else if s.boot.hf1.role = 1 then ⟨btHeadframe, 1⟩ else ⟨btHeadframe, 0⟩

/-- The control parent of a page's block (Table 01-2). -/
def controlParent (s : State) (pg : Nat) : Agent :=
  let d := pg / 8192
  let kj := pageKind d (pg % 8192)
  let n := kindInst kj.1 d kj.2
  match kj.1 with
  | .stope | .face | .outlier | .pillar => ⟨btForeman, quadOf n⟩
  | .gallery | .level => ⟨btForeman, anchorOf n⟩
  | .engine | .channel => ⟨btForeman, n / 8⟩
  | .stack | .assay => ⟨btForeman, n⟩
  | .port => ⟨btForeman, n / 3⟩
  | .device | .ident => ⟨btHost, 0⟩
  | .headframe => ⟨btSecurity, 0⟩
  | .security => ⟨0, 0⟩
  | _ => acting s d

/-- The foreman is faulty, so that the acting headframe acts in its place (R18). -/
def foremanFailed (s : State) (f : Nat) : Bool := decide ((foreman s f).st = 2)

/-- `w` is the acting headframe or the control parent of the page's block (ranks 1 and 2 of R17); a faulty
foreman is no parent (R18). -/
def isParent (s : State) (w : Agent) (pg : Nat) : Bool :=
  decide (w = acting s (pg / 8192)) || decide (w.ty ≠ 0) &&
  (decide (w = controlParent s pg) && !(decide (w.ty = btForeman) && foremanFailed s w.inst))

/-- The holder named in `BLK_OWNER`. -/
def holder (s : State) (pg : Nat) : Agent :=
  let v := (rd s pg BLK_OWNER).toNat
  ⟨v / 65536, v % 65536⟩

/-- `w` is the holder, or a stope of the level that holds (Table 07-7). -/
def holds (h w : Agent) : Bool :=
  decide (w = h) || (decide (h.ty = btLevel) && decide (w.ty = btStope) && decide (w.inst < 512) &&
    decide (16 * (w.inst / 256) + w.inst % 256 / 16 = h.inst))

/-- `BLK_OWNER`'s value for a holder. -/
def ownerWord (w : Agent) : W32 := BitVec.ofNat 32 (w.ty % 65536 * 65536 + w.inst % 65536)

/-- The die of a foreman is the page's, so that it may be a delegated writer there (R17). -/
def foremanOf (w : Agent) (pg : Nat) : Bool := decide (w.ty = btForeman) && decide (w.inst / 4 = pg / 8192)

/-- The rank, at a page, of a writer with authority there (R17): 1 acting headframe, 2 control parent, 3 delegated writer, 4 holder. -/
def rankOf (s : State) (w : Agent) (pg : Nat) : Nat :=
  if w = acting s (pg / 8192) then 1
  else if isParent s w pg then 2
  else match (pageKind (pg / 8192) (pg % 8192)).1 with
    | .die | .time | .foreman => if foremanOf w pg then 3 else 4
    | _ => 4

/-- An earlier write of the cycle stands before a later one by `w`: it is of higher rank, or of the delegated writer with the lower instance
(R17). Two foremen write different bits of `THROTTLE`. -/
def RankedWrite.stands (e : RankedWrite) (rank : Nat) (w : Agent) : Bool :=
  decide (e.rank < rank) || (decide (e.rank = 3 ∧ rank = 3) && decide (e.by_.inst < w.inst))

/-- A part as it was before a write to page `pg`. -/
def Undo.apply (pg : Nat) (s : State) : Undo → State
  | .reg off v => wr s pg off v
  | .bankMode b m => setBank s b { bank s b with toMode := m }
  | .channel c x => setChannel s c x
  | .port p x => setPort s p x
  | .foreman f x => setForeman s f x
  | .domain n v => setDomain s n v
  | .program n x => setStope s n { stope s n with
      imem := x.imem, codeLen := x.codeLen, prog := x.prog, cause := x.cause, wait := x.wait, part := x.part, loops := x.loops, fence := x.fence
      img := x.img, imgOp := x.imgOp, imgBad := x.imgBad }
  | .stackOpen k v => setStack s k { stack s k with open_ := v }
  | .hfIrq n => { s with boot := { s.boot with hfIrq := n } }

/-- `t`, reached by a write made in `s` to a field of R17, with that write kept until the cycle ends: its rank, and what the writer's first
write of the cycle found there, its register and `saved`. -/
def noteRanked (s : State) (w : Agent) (pg off : Nat) (saved : List Undo) (t : State) : State :=
  let own (e : RankedWrite) : Bool := decide (e.page = pg) && decide (e.off = off) && decide (e.by_ = w)
  let found := match t.ranked.find? own with
    | some e => e.before
    | none => .reg off (rd s pg off) :: saved
  { t with ranked := ⟨pg, off, w, rankOf s w pg, found⟩ :: t.ranked.filter (fun e => !own e) }

/-- An earlier write of the cycle gives way: what it wrote is as it was, and it is refused. -/
def giveWay (s : State) (e : RankedWrite) : State :=
  refuseWrite (e.before.foldl (Undo.apply e.page) { s with ranked := s.ranked.filter (fun x => x ≠ e) }) e.by_ e.page e.off

/-- A write to a field of R17 that its writer may make, with effect `f`: of two in one SCLK cycle the higher-ranked takes effect, and the
other is refused. Commands of one cycle come one after another, so a higher-ranked write that comes later first restores what the
earlier one changed (log entry 115). Writes of one writer take effect in turn. -/
def ranked (s : State) (w : Agent) (pg off : Nat) (saved : List Undo) (f : State → State) : State :=
  let r := rankOf s w pg
  let rivals := s.ranked.filter (fun e => decide (e.page = pg) && decide (e.off = off) && decide (e.by_ ≠ w) &&
    !(decide (off = THROTTLE) && decide (e.rank = 3 ∧ r = 3)))
  if rivals.any (fun e => e.stands r w) then refuseWrite s w pg off
  else noteRanked s w pg off saved (f (rivals.foldl giveWay s))

-- memory (chapters 01, 07, 08) ------------------------------------------------------------------------------------

/-- Low 50 bits of an address: die, space and offset (Table 01-4). -/
def low50 (a : Nat) : Nat := a % 2 ^ 50
/-- `DIE`, `SPACE` and `OFFSET` of an address. -/
def aDie (a : Nat) : Nat := a / 2 ^ 49 % 2
def aSpace (a : Nat) : Nat := a / 2 ^ 47 % 4
def aOff (a : Nat) : Nat := a % 2 ^ 47
/-- Node-die ID of an address. -/
def aNodeDie (a : Nat) : Nat := a / 2 ^ 49 % 2 ^ 15

/-- Bytes of a die's space 0 (R24). -/
def space0Size : Nat := 192000000000
/-- Bytes of a die's space 1 (Table 01-5). -/
def space1Size : Nat := 0x24000000

/-- End of the range of R26 in which an address starts, by offset: the stacked memory of a die, one bank, one control page
(Table 01-5); 0 where it starts in none. -/
def rangeEnd (a : Nat) : Nat :=
  let o := aOff a
  match aSpace a with
  | 0 => space0Size
  | 1 =>
    if o < 0x20000000 then 0x200000 * (o / 0x200000 + 1)
    else if o < space1Size then 0x400000 * (o / 0x400000 + 1) else 0
  | 2 => 4096 * (o / 4096 + 1)
  | _ => 0

/-- Every byte of [a, a + len) lies in the range of R26 in which it starts. -/
def inRange (a len : Nat) : Bool := decide (aOff a + len ≤ rangeEnd a)

/-- The bank of a space-1 address, by the low 50 bits: pillar 0 to 511, gallery 512 to 543 (Table 01-5). -/
def bankOf (a : Nat) : Nat :=
  let o := aOff a
  if o < 0x20000000 then 256 * aDie a + o / 0x200000 else 512 + 16 * aDie a + (o - 0x20000000) / 0x400000

/-- First byte of a bank, low 50 bits. -/
def bankBase (b : Nat) : Nat :=
  if b < 512 then b / 256 * 2 ^ 49 + 2 ^ 47 + b % 256 * 0x200000
  else (b - 512) / 16 * 2 ^ 49 + 2 ^ 47 + 0x20000000 + (b - 512) % 16 * 0x400000

/-- Capacity of a bank (Table 07-1). -/
def bankSize (b : Nat) : Nat := if b < 512 then 0x200000 else 0x400000

/-- Hashed position of a space-0 offset in its stripe, and the stack that holds it on die `d` (Table 08-1). -/
def hashPos (o : Nat) : Nat := bitsOf o 14 7 ^^^ bitsOf o 22 15 ^^^ bitsOf o 30 23
def stackOf (d o : Nat) : Nat := 4 * d + hashPos o % 4

/-- Its pseudo-channel within the stack, its location there (Table 08-1), and the DRAM row and the bank of that location (R381). -/
def pseudoChannel (o : Nat) : Nat := hashPos o / 4
def location (o : Nat) : Nat := 128 * (o / 32768) + o % 128
def dramRow (o : Nat) : Nat := location o / 1024
def dramBank (o : Nat) : Nat := dramRow o % Config.stackBanks

/-- Forget the contents of a stack: they are lost when its domain goes off, and read 0 with valid check bits after its zeroing (R158). -/
def zeroStack (s : State) (k : Nat) : State :=
  let mine (a : Nat) : Bool := decide (aSpace a = 0) && decide (stackOf (aDie a) (aOff a) = k)
  { s with mem := s.mem.filter (fun c => !mine c.1), ue := s.ue.filter (fun w => !mine w) }

/-- Read a byte of spaces 0 and 1. -/
def readByte (s : State) (a : Nat) : Byte := Sparse.get 0 s.mem (low50 a)

/-- Read `n` bytes from an address. -/
def readMem (s : State) (a n : Nat) : List Byte := (List.range n).map (fun i => readByte s (a + i))

/-- Write a byte in a memory. -/
def Memory.write (m : List Host.Cell) (a : Nat) (v : Byte) : List Host.Cell := Sparse.set 0 m (low50 a) v

/-- Write bytes from an address upward in a memory. -/
def Memory.writeAll : List Host.Cell → Nat → List Byte → List Host.Cell
  | m, _, [] => m
  | m, a, b :: rest => Memory.writeAll (Memory.write m a b) (a + 1) rest

/-- The memory is in its canonical form: addresses rise strictly and no entry holds 0, what an unlisted address reads as. -/
def Memory.wf (m : List Host.Cell) : Bool := Sparse.wf (0 : Byte) m

/-- Write bytes from an address upward. -/
def writeMem (s : State) (a : Nat) (bs : List Byte) : State := { s with mem := Memory.writeAll s.mem a bs }

/-- The unit of error correction at an address: the 64-byte word of a bank, the 32-byte sector of a stack. -/
def eccUnit (a : Nat) : Nat := if aSpace a = 0 then 32 else 64

/-- First byte of the word or sector that holds an address. -/
def eccWord (a : Nat) : Nat := low50 a / eccUnit a * eccUnit a

/-- The word or sector at an address holds an uncorrectable error. -/
def isBad (s : State) (a : Nat) : Bool := s.ue.contains (eccWord a)

/-- Some word or sector of [a, a + n) holds an uncorrectable error. -/
def anyBad (s : State) (a n : Nat) : Bool :=
  s.ue.any (fun w => decide (w < low50 a + n) && decide (low50 a < w + eccUnit w))

/-- The word or sector turns out to hold an uncorrectable error. -/
def markBad (s : State) (a : Nat) : State :=
  if isBad s a then s else { s with ue := eccWord a :: s.ue }

/-- Write one piece that lies in one word or sector: a whole one replaces it with its check bits; a part merges, unless
the word holds an uncorrectable error, which leaves it unchanged (R139, R160). Answers whether that was so. -/
def writePiece (s : State) (a : Nat) (bs : List Byte) : State × Bool :=
  if bs.length = eccUnit a ∧ low50 a % eccUnit a = 0 then
    (writeMem { s with ue := s.ue.filter (fun w => w ≠ eccWord a) } a bs, false)
  else if isBad s a then (s, true)
  else (writeMem s a bs, false)

/-- Write bytes word by word (sector by sector); `fuel` bounds the words. Answers whether some word was POISONED. -/
def writeWords : Nat → State → Nat → List Byte → State × Bool
  | 0, s, _, _ => (s, false)
  | fuel + 1, s, a, bs =>
    if bs = [] then (s, false)
    else
      let n := eccUnit a - low50 a % eccUnit a
      let r := writePiece s a (bs.take n)
      let rest := writeWords fuel r.1 (a + n) (bs.drop n)
      (rest.1, r.2 || rest.2)

/-- Write bytes to memory under R139 and R160. -/
def store (s : State) (a : Nat) (bs : List Byte) : State × Bool := writeWords (bs.length + 1) s a bs

/-- Read bytes; `none` where a word or sector holds an uncorrectable error. -/
def load (s : State) (a n : Nat) : Option (List Byte) := if anyBad s a n then none else some (readMem s a n)

-- stopes: place, registers, tickets (chapter 06) -------------------------------------------------------------------

/-- Level of stope `n`. -/
def levelOf (n : Nat) : Nat := 16 * (n / 256) + n % 256 / 16

/-- Half-level power domain of stope `n` (Table 01-1). -/
def halfOf (n : Nat) : Nat := 2 * levelOf n + (if n % 16 ≥ 8 then 1 else 0)

/-- The device's node ID, as the top bits of its addresses. -/
def nodeBase (s : State) : Nat := 2 ^ 50 * s.boot.node

/-- Global address of stope `n`'s pillar bank, and of its level's gallery bank: a0 and a1 (R113). -/
def pillarAddr (s : State) (n : Nat) : Nat := nodeBase s + bankBase n
def galleryAddr (s : State) (n : Nat) : Nat := nodeBase s + bankBase (512 + levelOf n)

/-- Scalar register; s0 reads 0 (R113). -/
def Stope.sreg (x : Stope) (r : Nat) : W64 := if r = 0 then 0 else Sparse.get 0 x.s r

/-- Write a scalar register; a write to s0 is discarded. -/
def Stope.setS (x : Stope) (r : Nat) (v : W64) : Stope := if r = 0 then x else { x with s := Sparse.set 0 x.s r v }

/-- Address register; a0 and a1 are the own banks. -/
def areg (s : State) (n r : Nat) : W64 :=
  if r = 0 then BitVec.ofNat 64 (pillarAddr s n) else if r = 1 then BitVec.ofNat 64 (galleryAddr s n)
  else Sparse.get 0 (stope s n).a r

def Stope.setA (x : Stope) (r : Nat) (v : W64) : Stope := { x with a := Sparse.set 0 x.a r v }
def Stope.vreg (x : Stope) (r : Nat) : BitVec 4096 := Sparse.get 0 x.v r
def Stope.setV (x : Stope) (r : Nat) (v : BitVec 4096) : Stope := { x with v := Sparse.set 0 x.v r v }

/-- A completion's status word: status [3:0], reason [11:4] (R118). -/
def statusWord (st reason : Nat) : W32 := BitVec.ofNat 32 (st % 16 + 16 * (reason % 256))

/-- A status word with condition bits. -/
def wordBits (st reason bits : Nat) : W32 := BitVec.ofNat 32 (st % 16 + 16 * (reason % 256) + bits)

/-- A bit that a condition sets. -/
def bitIf (c : Bool) (b : Nat) : Nat := if c then b else 0

/-- A completion word: status word, ticket in [47:32] (R118). -/
def compWord (w : W32) (ticket : Nat) : W64 := BitVec.ofNat 64 (w.toNat + 2 ^ 32 * (ticket % 65536))

/-- Status codes of Table 00-5. -/
abbrev sOK : Nat := 0
abbrev sREFUSED : Nat := 1
abbrev sFAILED : Nat := 2
abbrev sPOISONED : Nat := 3
abbrev sEPOCH : Nat := 4
abbrev sDENIED : Nat := 5
abbrev sCOLLIDED : Nat := 6
abbrev sCLIPPED : Nat := 7

/-- Failure reasons of Table 00-6. -/
abbrev rDeadline : Nat := 1
abbrev rUnreachable : Nat := 2
abbrev rWithdrawn : Nat := 3
abbrev rThermal : Nat := 4
abbrev rSplit : Nat := 5
abbrev rDrained : Nat := 6
abbrev rTimeDoubt : Nat := 7

/-- What a completed ticket, or the end of the last operation, does to a waiting stope (R128). -/
def Stope.wake (x : Stope) : Stope :=
  match x.wait with
  | some (.ticket d tk) =>
    match x.tickets.find? (fun t => t.num = tk) with
    | some ⟨_, some w⟩ =>
      { x.setS d (compWord w tk) with wait := none, tickets := x.tickets.filter (fun t => t.num ≠ tk) }
    | _ => x
  | some .all => if x.out = [] then { x with wait := none } else x
  | _ => x

/-- An operation of a stope's program completes with a status word (R118): its ticket takes the word, or, without a
ticket, a status other than OK counts in `ASYNC_FAIL`. -/
def completeAsync (s : State) (n op : Nat) (w : W32) : State :=
  let x := stope s n
  match x.out.find? (fun a => a.op = op) with
  | none => s
  | some a =>
    let x1 := { x with
      out := x.out.filter (fun b => b.op ≠ op)
      fence := x.fence.filter (fun b => b ≠ op)
      tickets := x.tickets.map (fun (t : Ticket) => if t.num = a.ticket ∧ a.ticket ≠ 0 then { t with done := some w } else t) }
    let s1 := setStope s n x1.wake
    if a.ticket = 0 ∧ w.toNat % 16 ≠ 0 then bump s1 (pgStope n) ASYNC_FAIL 1 else s1

/-- End issue with a cause: the program stops and its operations run out (R133). -/
def Stope.stop (x : Stope) (cause : Nat) : Stope :=
  { x with prog := .stopping, cause := cause, wait := none, part := none, loops := [], fence := [] }

/-- Causes of Table 06-9. -/
abbrev cHALTED : Nat := 1
abbrev cSTOPPED : Nat := 2
abbrev cILLEGAL : Nat := 3
abbrev cREADONLY : Nat := 4
abbrev cTARGET : Nat := 5
abbrev cLOOP : Nat := 6
abbrev cNO_TICKET : Nat := 7
abbrev cMISALIGN : Nat := 8
abbrev cTICKET : Nat := 9

/-- A program fault (R134): issue ends like a stop, `CAUSE` and `FAULT_PC` are recorded, and the event bit is set. -/
def progFault (s : State) (n cause : Nat) : State :=
  let x := stope s n
  event (setStope s n { x.stop cause with faultPc := x.pc }) (pgStope n)

end Sys2Proof.Machine
end

