-- ==== Sys2Proof/Machine/Operands.lean ====
section
/-!
DEFINITION. Operand forms of stope instructions: the fields of a word and of its immediate, when a word issues, the
checks of R112 and R115, and how the program counter moves (R117).
-/

namespace Sys2Proof.Machine

/-- The instruction word of an opcode and its fields (Table 06-1). -/
def wordOf (op : Nat) (d a b : Byte) (imm : W32) : W64 :=
  BitVec.ofNat 64 (op * 2 ^ 56 + d.toNat * 2 ^ 48 + a.toNat * 2 ^ 40 + b.toNat * 2 ^ 32 + imm.toNat)

/-- The word at the stope's pc, of a program that runs and that no wait holds. Past the code there is none. -/
def issueWord (x : Stope) : Option W64 :=
  if x.prog = .running ∧ x.wait = none ∧ x.pc < x.codeLen then some (Sparse.get 0 x.imem x.pc) else none

/-- The stope is at this word and can issue it (R114). -/
def atWord (s : State) (n op : Nat) (d a b : Byte) (imm : W32) : Bool :=
  decide (issueWord (stope s n) = some (wordOf op d a b imm))

/-- `IMM` sign-extended. -/
def sext (imm : W32) : W64 := BitVec.signExtend 64 imm

/-- Fields of an asynchronous instruction's `IMM` (Table 06-2). -/
def immC (imm : W32) : Nat := fld imm 7 0
def immDL (imm : W32) : Nat := fld imm 15 8
def immClass (imm : W32) : Nat := fld imm 17 16
def immSub (imm : W32) : Nat := fld imm 23 20
def immBell (imm : W32) : Nat := fld imm 28 24
/-- The reserved bits of Table 06-2 are 0. -/
def immOk (imm : W32) : Bool := decide (fld imm 19 18 = 0) && decide (fld imm 31 29 = 0)

/-- A register number lies in a file of `k` registers (R112). -/
def inFile (k : Nat) (r : Byte) : Bool := decide (r.toNat < k)

/-- Where issue goes after word `w`: past it, or back to the first word of each loop that ends there and has
iterations left; a loop that has none left ends (R117). -/
def afterWord : List LoopRec → Sparse W32 → Nat → List LoopRec × Sparse W32 × Nat
  | [], l, w => ([], l, w + 1)
  | r :: rs, l, w =>
    if r.last = w then
      if (Sparse.get 0 l r.ctr).toNat ≤ 1 then afterWord rs (Sparse.set 0 l r.ctr 0) w
      else (r :: rs, Sparse.set 0 l r.ctr (Sparse.get 0 l r.ctr - 1), r.first)
    else (r :: rs, l, w + 1)

/-- Move on past word `w`. -/
def Stope.pass (x : Stope) (w : Nat) : Stope :=
  let r := afterWord x.loops x.l w
  { x with loops := r.1, l := r.2.1, pc := r.2.2 }

/-- Move on past the word at the pc. -/
def Stope.advance (x : Stope) : Stope := x.pass x.pc

/-- Go to a target word: loops whose body does not hold it end (R117). -/
def Stope.goto (x : Stope) (t : Nat) : Stope :=
  { x with pc := t, loops := x.loops.filter (fun r => decide (r.first ≤ t) && decide (t ≤ r.last)) }

/-- A jump, or a branch that is taken: to word `t`, or a program fault where it lies past the code. -/
def jumpTo (s : State) (n t : Nat) : State :=
  if t ≥ (stope s n).codeLen then progFault s n cTARGET else setStope s n ((stope s n).goto t)

/-- Every register field of a word names a register of its file, and every reserved field, bit or code is 0 or allowed
(R112, R115, R153, Tables 06-2 and 06-3). A field that an instruction does not use is not judged. -/
def legalFields (op : Nat) (d a b : Byte) (imm : W32) : Bool :=
  let s3 := inFile 32 d && inFile 32 a && inFile 32 b
  let s2 := inFile 32 d && inFile 32 a
  let mem := inFile 32 d && inFile 16 a && inFile 32 b
  let async := immOk imm && decide (immDL imm < 32)
  let c := decide (immC imm < 32)
  if op = 0x00 then true
  else if op ≤ 0x0A then s3
  else if op ≤ 0x10 then s2
  else if op ≤ 0x12 then mem
  else if op = 0x13 then inFile 32 d
  else if op = 0x14 then inFile 16 d && inFile 32 a
  else if op = 0x15 then inFile 32 d && inFile 16 a
  else if op = 0x16 then inFile 16 d && inFile 16 a && inFile 32 b
  else if op = 0x17 then false
  else if op = 0x18 then inFile 4 d && inFile 32 a
  else if op ≤ 0x1D then inFile 32 a && inFile 32 b
  else if op ≤ 0x1F then true
  else if op ≤ 0x22 then inFile 32 d && inFile 16 a && async
  else if op < 0x30 then false
  else if op = 0x33 then s3 && c
  else if op ≤ 0x36 then s3
  else if op ≤ 0x38 then s2
  else if op = 0x39 then s2 && decide (fld imm 1 0 ≠ 3) && (decide (fld imm 1 0 ≠ 2) || inFile 32 b)
  else if op ≤ 0x3C then s2
  else if op ≤ 0x3E then mem
  else if op < 0x50 then false
  else if op ≤ 0x51 || op = 0x54 then inFile 32 d && inFile 16 a && inFile 16 b && async && c
  else if op = 0x52 then inFile 32 d && inFile 16 a && inFile 16 b && async && c && decide (immSub imm < 6)
  else if op = 0x53 then inFile 32 d && inFile 16 a && async && c && decide (immSub imm < 2)
  else if op = 0x55 then true
  else if op = 0x60 then s2 && immOk imm
  else if op = 0x61 then mem && immOk imm && c && decide (immSub imm < 3)
  else if op = 0x62 then inFile 32 a && immOk imm
  else if op = 0x63 then immOk imm
  else if op = 0x70 then mem && async
  else false

/-- The common shape of a stope instruction: where the stope is not at this word nothing happens; where a reserved field
or bit is not 0 the program faults ILLEGAL; otherwise `act` runs. -/
def issue (s : State) (st : Fin 512) (op : Nat) (d a b : Byte) (imm : W32) (act : State → State) : State :=
  if atWord s st op d a b imm then
    if legalFields op d a b imm then act s else progFault s st cILLEGAL
  else s

/-- A result for a scalar register, and on. -/
def putS (s : State) (n : Nat) (d : Byte) (v : W64) : State := setStope s n (((stope s n).setS d.toNat v).advance)

/-- A result for an address register, and on; a0 and a1 are read-only. -/
def putA (s : State) (n : Nat) (d : Byte) (v : W64) : State :=
  if d.toNat < 2 then progFault s n cREADONLY else setStope s n (((stope s n).setA d.toNat v).advance)

/-- A result for a vector register, and on. -/
def putV (s : State) (n : Nat) (d : Byte) (v : BitVec 4096) : State := setStope s n (((stope s n).setV d.toNat v).advance)

/-- Scalar source registers. -/
def sA (s : State) (n : Nat) (a : Byte) : W64 := (stope s n).sreg a.toNat

/-- The form sD ← sA op sB. -/
def regReg (s : State) (st : Fin 512) (op : Nat) (d a b : Byte) (imm : W32) (f : W64 → W64 → W64) : State :=
  issue s st op d a b imm (fun s => putS s st d (f (sA s st a) (sA s st b)))

/-- The form sD ← sA op IMM. -/
def regImm (s : State) (st : Fin 512) (op : Nat) (d a b : Byte) (imm : W32) (f : W64 → W32 → W64) : State :=
  issue s st op d a b imm (fun s => putS s st d (f (sA s st a) imm))

/-- The form of a branch: to word IMM if sA compares with sB. -/
def branch (s : State) (st : Fin 512) (op : Nat) (d a b : Byte) (imm : W32) (c : W64 → W64 → Bool) : State :=
  issue s st op d a b imm (fun s =>
    if c (sA s st a) (sA s st b) then jumpTo s st imm.toNat else setStope s st (stope s st).advance)

end Sys2Proof.Machine
end

