-- ==== Sys2Proof/Machine/Scalar.lean ====
section
/-!
DEFINITION. Scalar and address instructions (Table 06-3, 0x00 to 0x16 but for loads and stores).
-/

namespace Sys2Proof.Machine

abbrev Out : Type := Host.Outcome State Fault Refusal

/-- NOP (0x00, R115). -/
def execNop (st : Fin 512) (d a b : Byte) (imm : W32) (s : State) : Out :=
  .next (issue s st 0x00 d a b imm (fun s => setStope s st (stope s st).advance))

/-- ADD (0x01): sD ← sA + sB mod 2^64. -/
def execAdd (st : Fin 512) (d a b : Byte) (imm : W32) (s : State) : Out :=
  .next (regReg s st 0x01 d a b imm (fun x y => x + y))

/-- SUB (0x02). -/
def execSub (st : Fin 512) (d a b : Byte) (imm : W32) (s : State) : Out :=
  .next (regReg s st 0x02 d a b imm (fun x y => x - y))

/-- AND (0x03). -/
def execAnd (st : Fin 512) (d a b : Byte) (imm : W32) (s : State) : Out :=
  .next (regReg s st 0x03 d a b imm (fun x y => x &&& y))

/-- OR (0x04). -/
def execOr (st : Fin 512) (d a b : Byte) (imm : W32) (s : State) : Out :=
  .next (regReg s st 0x04 d a b imm (fun x y => x ||| y))

/-- XOR (0x05). -/
def execXor (st : Fin 512) (d a b : Byte) (imm : W32) (s : State) : Out :=
  .next (regReg s st 0x05 d a b imm (fun x y => x ^^^ y))

/-- SHL (0x06): left by sB[5:0]. -/
def execShl (st : Fin 512) (d a b : Byte) (imm : W32) (s : State) : Out :=
  .next (regReg s st 0x06 d a b imm (fun x y => x <<< (y.toNat % 64)))

/-- SHR (0x07): right, logically, by sB[5:0]. -/
def execShr (st : Fin 512) (d a b : Byte) (imm : W32) (s : State) : Out :=
  .next (regReg s st 0x07 d a b imm (fun x y => x >>> (y.toNat % 64)))

/-- MUL (0x08): low 64 bits. -/
def execMul (st : Fin 512) (d a b : Byte) (imm : W32) (s : State) : Out :=
  .next (regReg s st 0x08 d a b imm (fun x y => x * y))

/-- MIN (0x09), signed. -/
def execMin (st : Fin 512) (d a b : Byte) (imm : W32) (s : State) : Out :=
  .next (regReg s st 0x09 d a b imm (fun x y => if BitVec.sle x y then x else y))

/-- MAX (0x0A), signed. -/
def execMax (st : Fin 512) (d a b : Byte) (imm : W32) (s : State) : Out :=
  .next (regReg s st 0x0A d a b imm (fun x y => if BitVec.sle x y then y else x))

/-- ADDI (0x0B): IMM sign-extended. -/
def execAddi (st : Fin 512) (d a b : Byte) (imm : W32) (s : State) : Out :=
  .next (regImm s st 0x0B d a b imm (fun x i => x + sext i))

/-- ANDI (0x0C): IMM zero-extended. -/
def execAndi (st : Fin 512) (d a b : Byte) (imm : W32) (s : State) : Out :=
  .next (regImm s st 0x0C d a b imm (fun x i => x &&& BitVec.zeroExtend 64 i))

/-- XORI (0x0D): IMM zero-extended. -/
def execXori (st : Fin 512) (d a b : Byte) (imm : W32) (s : State) : Out :=
  .next (regImm s st 0x0D d a b imm (fun x i => x ^^^ BitVec.zeroExtend 64 i))

/-- SHLI (0x0E): by IMM[5:0]. -/
def execShli (st : Fin 512) (d a b : Byte) (imm : W32) (s : State) : Out :=
  .next (regImm s st 0x0E d a b imm (fun x i => x <<< (i.toNat % 64)))

/-- SHRI (0x0F): by IMM[5:0], logically. -/
def execShri (st : Fin 512) (d a b : Byte) (imm : W32) (s : State) : Out :=
  .next (regImm s st 0x0F d a b imm (fun x i => x >>> (i.toNat % 64)))

/-- MOVHI (0x10): IMM into the upper half, the lower half from sA. -/
def execMovhi (st : Fin 512) (d a b : Byte) (imm : W32) (s : State) : Out :=
  .next (regImm s st 0x10 d a b imm (fun x i => (x &&& 0xFFFFFFFF#64) ||| (BitVec.zeroExtend 64 i <<< 32)))

/-- TIME (0x13): sD ← global time in ns of the stope's die. -/
def execTime (st : Fin 512) (d a b : Byte) (imm : W32) (s : State) : Out :=
  .next (issue s st 0x13 d a b imm (fun s => putS s st d (BitVec.ofNat 64 (now s (st.val / 256)))))

/-- AMOV (0x14): aD ← sA; a0 and a1 are read-only (Table 06-9 `READONLY`). -/
def execAmov (st : Fin 512) (d a b : Byte) (imm : W32) (s : State) : Out :=
  .next (issue s st 0x14 d a b imm (fun s => putA s st d (sA s st a)))

/-- SMOV (0x15): sD ← aA. -/
def execSmov (st : Fin 512) (d a b : Byte) (imm : W32) (s : State) : Out :=
  .next (issue s st 0x15 d a b imm (fun s => putS s st d (areg s st a.toNat)))

/-- AADD (0x16): aD ← aA + sB + IMM sign-extended. -/
def execAadd (st : Fin 512) (d a b : Byte) (imm : W32) (s : State) : Out :=
  .next (issue s st 0x16 d a b imm (fun s => putA s st d (areg s st a.toNat + sA s st b + sext imm)))

end Sys2Proof.Machine
end

