-- ==== Sys2Proof/Machine/VectorUnit.lean ====
section
/-!
DEFINITION. Vector arithmetic of the stope (R127, Table 06-3, 0x30 to 0x3C).
-/

namespace Sys2Proof.Machine

/-- The lanes of a vector, lane 0 first: 256 of 16 bits (BF16) or 128 of 32 (FP32). -/
def lanes (w : Nat) (v : BitVec 4096) : List Nat :=
  (List.range (4096 / w)).map (fun i => bitsOf v.toNat (w * i + w - 1) (w * i))

/-- A vector from its lanes; lanes not given are +0.0. -/
def ofLanes (w : Nat) (ls : List Nat) : BitVec 4096 :=
  BitVec.ofNat 4096 (ls.foldr (fun x acc => x % 2 ^ w + 2 ^ w * acc) 0)

/-- The lane type that IMM[8] selects. -/
def laneType (imm : W32) : FpType := if fld imm 8 8 = 1 then fp32 else bf16

/-- UPD and QUANT occupy the vector unit while they run (R121); VLD and VST do not wait for it (log entry 151). -/
def vectorBusy (x : Stope) : Bool :=
  match x.queue with
  | o :: _ => o.kind != .face
  | [] => false

/-- A vector instruction: it stalls while the vector unit is occupied. -/
def vectorOp (s : State) (st : Fin 512) (op : Nat) (d a b : Byte) (imm : W32) (f : Stope → BitVec 4096) : State :=
  issue s st op d a b imm (fun s => if vectorBusy (stope s st) then s else putV s st d (f (stope s st)))

/-- Lane by lane on two operands. -/
def lanewise2 (imm : W32) (f : FpType → Nat → Nat → Nat) (x y : BitVec 4096) : BitVec 4096 :=
  let t := laneType imm
  ofLanes t.width ((lanes t.width x).zipWith (f t) (lanes t.width y))

/-- Lane by lane on one operand. -/
def lanewise1 (imm : W32) (f : FpType → Nat → Nat) (x : BitVec 4096) : BitVec 4096 :=
  let t := laneType imm
  ofLanes t.width ((lanes t.width x).map (f t))

/-- One level of the pairwise tree: lane 2k with lane 2k + 1. -/
def pairSums (t : FpType) : List Nat → List Nat
  | x :: y :: rest => fpAdd t x y :: pairSums t rest
  | rest => rest

/-- The pairwise tree to its end: 8 levels take 256 lanes to one. -/
def treeSum (t : FpType) (ls : List Nat) : Nat := (Nat.repeat (pairSums t) 8 ls).headD 0

/-- The largest magnitude of the lanes, or the quiet NaN where some lane is a NaN. -/
def lanesAmax (t : FpType) (ls : List Nat) : Nat :=
  if ls.any (fpIsNan t) then fpQnan t else (ls.map (fpAbs t)).foldl Nat.max 0

def binary (s : State) (st : Fin 512) (op : Nat) (d a b : Byte) (imm : W32) (f : FpType → Nat → Nat → Nat) : State :=
  vectorOp s st op d a b imm (fun x => lanewise2 imm f (x.vreg a.toNat) (x.vreg b.toNat))

def unary (s : State) (st : Fin 512) (op : Nat) (d a b : Byte) (imm : W32) (f : FpType → Nat → Nat) : State :=
  vectorOp s st op d a b imm (fun x => lanewise1 imm f (x.vreg a.toNat))

/-- VADD (0x30). -/
def execVadd (st : Fin 512) (d a b : Byte) (imm : W32) (s : State) : Out := .next (binary s st 0x30 d a b imm fpAdd)
/-- VSUB (0x31). -/
def execVsub (st : Fin 512) (d a b : Byte) (imm : W32) (s : State) : Out := .next (binary s st 0x31 d a b imm fpSub)
/-- VMUL (0x32). -/
def execVmul (st : Fin 512) (d a b : Byte) (imm : W32) (s : State) : Out := .next (binary s st 0x32 d a b imm fpMul)
/-- VFMA (0x33): vA × vB + vC, C = IMM[7:0], rounded once. -/
def execVfma (st : Fin 512) (d a b : Byte) (imm : W32) (s : State) : Out :=
  .next (vectorOp s st 0x33 d a b imm (fun x =>
    let t := laneType imm
    let xs := lanes t.width (x.vreg a.toNat)
    let ys := lanes t.width (x.vreg b.toNat)
    let zs := lanes t.width (x.vreg (immC imm))
    ofLanes t.width ((xs.zip ys).zipWith (fun p z => fpFma t p.1 p.2 z) zs)))
/-- VMAX (0x34). -/
def execVmax (st : Fin 512) (d a b : Byte) (imm : W32) (s : State) : Out := .next (binary s st 0x34 d a b imm fpMax)
/-- VMIN (0x35). -/
def execVmin (st : Fin 512) (d a b : Byte) (imm : W32) (s : State) : Out := .next (binary s st 0x35 d a b imm fpMin)
/-- VDIV (0x36), correctly rounded. -/
def execVdiv (st : Fin 512) (d a b : Byte) (imm : W32) (s : State) : Out := .next (binary s st 0x36 d a b imm fpDiv)
/-- VSQRT (0x37), correctly rounded. -/
def execVsqrt (st : Fin 512) (d a b : Byte) (imm : W32) (s : State) : Out := .next (unary s st 0x37 d a b imm fpSqrt)
/-- VEXP2 (0x38): 2^vA, correctly rounded. -/
def execVexp2 (st : Fin 512) (d a b : Byte) (imm : W32) (s : State) : Out := .next (unary s st 0x38 d a b imm fpExp2)

/-- The lanes that VCVT writes, by IMM[1:0] (Table 06-3, R53). -/
def convertLanes (mode : Nat) (x y : BitVec 4096) : BitVec 4096 :=
  if mode = 0 then ofLanes 32 (((lanes 16 x).take 128).map bf16ToFp32)
  else if mode = 1 then ofLanes 32 (((lanes 16 x).drop 128).map bf16ToFp32)
  else ofLanes 16 ((lanes 32 x ++ lanes 32 y).map fpToBf16)

/-- VCVT (0x39). -/
def execVcvt (st : Fin 512) (d a b : Byte) (imm : W32) (s : State) : Out :=
  .next (vectorOp s st 0x39 d a b imm (fun x => convertLanes (fld imm 1 0) (x.vreg a.toNat) (x.vreg b.toNat)))

/-- VSUM (0x3A): the fixed pairwise tree into lane 0; other lanes +0.0. -/
def execVsum (st : Fin 512) (d a b : Byte) (imm : W32) (s : State) : Out :=
  .next (vectorOp s st 0x3A d a b imm (fun x =>
    let t := laneType imm
    ofLanes t.width [treeSum t (lanes t.width (x.vreg a.toNat))]))

/-- VAMAX (0x3B): the largest lane magnitude into lane 0; other lanes +0.0. -/
def execVamax (st : Fin 512) (d a b : Byte) (imm : W32) (s : State) : Out :=
  .next (vectorOp s st 0x3B d a b imm (fun x =>
    let t := laneType imm
    ofLanes t.width [lanesAmax t (lanes t.width (x.vreg a.toNat))]))

/-- VBCAST (0x3C): every FP32 lane of vD ← sA[31:0]. -/
def execVbcast (st : Fin 512) (d a b : Byte) (imm : W32) (s : State) : Out :=
  .next (vectorOp s st 0x3C d a b imm (fun x => ofLanes 32 (List.replicate 128 ((x.sreg a.toNat).toNat % 2 ^ 32))))

end Sys2Proof.Machine
end

