-- ==== Sys2Proof/Machine/LocalMem.lean ====
section
/-!
DEFINITION. Port A of the banks as the sequencer uses it: what lets an access pass, and loads and stores (R116, R122, R138,
R148, R229, R337).
-/

namespace Sys2Proof.Machine

/-- The own bank of stope `n` that holds every byte of [a, a + len): its pillar bank or its level's gallery bank. -/
def ownBank (s : State) (n a len : Nat) : Option Nat :=
  if pillarAddr s n ≤ a ∧ a + len ≤ pillarAddr s n + bankSize n then some n
  else
    let g := 512 + levelOf n
    if galleryAddr s n ≤ a ∧ a + len ≤ galleryAddr s n + bankSize g then some g else none

/-- The tally lets stope `n` use port A of bank `b` (R148). -/
def tallyAllows (s : State) (n b : Nat) : Bool :=
  let h := holder s (pgBank b)
  decide (h = ⟨btStope, n⟩) || (decide (512 ≤ b) && decide (h = ⟨btLevel, b - 512⟩))

/-- Two byte ranges overlap. -/
def overlaps (a n b m : Nat) : Bool := decide (a < b + m) && decide (b < a + n)

/-- The assay settings in force for stope `n`: those of its quadrant's page, or the ones before a commit until its next face-tile boundary
(R340). -/
def assayOf (s : State) (n : Nat) : Assay :=
  let pg := pgAssay (quadOf n)
  (stope s n).assay.getD ⟨rd s pg ASSAY_CTL, rd s pg CANARY_BASE, rd s pg CANARY_SIZE⟩

/-- The canary area of the quadrant covers a byte of [a, a + len) in pillar bank `b` (R337). -/
def inCanaryArea (s : State) (b a len : Nat) : Bool :=
  let x := assayOf s b
  decide (b < 512) && decide (fld x.ctl 5 3 ≠ 0) && overlaps (low50 a) len (bankBase b + x.base.toNat) (4096 * x.size.toNat)

/-- A live read-mostly region of die `d` covers a byte of [a, a + len), or the directory still holds a line there
(R227, R229, R235). -/
def inReadMostly (s : State) (a len : Nat) : Bool :=
  let d := aDie a
  let pg := pgRmop d
  (List.range 16).any (fun i =>
    let base := (rd64 s pg (RM_REGION + 16 * i)).toNat
    let size := (rd s pg (RM_REGION + 16 * i + 8)).toNat
    decide (size ≠ 0) && overlaps (low50 a) len (low50 base) (4096 * size)) ||
  (layer s d).dir.any (fun l => overlaps (low50 a) len l.line 256)

/-- Some span overlaps [a, a + len). -/
def touches (sps : List Span) (a len : Nat) : Bool := sps.any (fun p => overlaps (low50 a) len p.addr p.len)

/-- An outstanding operation of the stope holds this load or store back (R122). -/
def rangeStall (x : Stope) (a len : Nat) (write : Bool) : Bool :=
  x.out.any (fun o => touches o.writes a len || (write && touches o.reads a len))

/-- What port A answers before any access is made. -/
inductive Gate where
  /-- DENIED; the bank that counts it, if one does -/
  | denied (count : Option Nat)
  | stall
  | pass (b : Nat)
deriving DecidableEq, Repr

/-- Judge a port-A access of stope `n` in its bank: it is held while the bank changes its mode (R145), and denied by the tally, in a canary
area, and where it would write a read-mostly region. -/
def bankGate (s : State) (n a len : Nat) (write : Bool) : Gate :=
  match ownBank s n a len with
  | none => .denied none
  | some b =>
    if (bank s b).toMode ≠ none then .stall
    else if !tallyAllows s n b then .denied (some b)
    else if inCanaryArea s b a len then .denied none
    else if write && inReadMostly s a len then .denied none
    else .pass b

/-- Judge a load or store of stope `n`: an outstanding operation of the program may hold it back (R122). -/
def portAGate (s : State) (n a len : Nat) (write : Bool) : Gate :=
  if (ownBank s n a len).isSome && rangeStall (stope s n) a len write then .stall else bankGate s n a len write

/-- Judge a poll of WAITF, which no outstanding operation holds back (R122, R128). -/
def pollGate (s : State) (n a len : Nat) : Gate := bankGate s n a len false

/-- Count an access completed DENIED by the tally (Table 07-10). -/
def countDenied (s : State) (c : Option Nat) : State :=
  match c with
  | some b => bump s (pgBank b) B_DENIED 1
  | none => s

/-- A gallery bank's port A has served this stope's column: the next one counts from it (R137). -/
def served (s : State) (n b : Nat) : State :=
  if b < 512 then s else setBank s b { bank s b with lastCol := n % 16 }

/-- A status for sB, and on. -/
def statusTo (s : State) (n : Nat) (b : Byte) (st : Nat) : State :=
  setStope s n (((stope s n).setS b.toNat (compWord (statusWord st 0) 0)).advance)

/-- Write a load's destination: a scalar of 8 bytes or a vector of 512. -/
def loadTo (vec : Bool) (x : Stope) (d : Byte) (bs : List Byte) : Stope :=
  if vec then x.setV d.toNat (BitVec.ofNat 4096 (leNat bs)) else x.setS d.toNat (BitVec.ofNat 64 (leNat bs))

/-- A load or store is denied: a vector access that was under way is given up. -/
def denyLocal (s : State) (n : Nat) (b : Byte) (c : Option Nat) : State :=
  let t := countDenied s c
  statusTo (setStope t n { stope t n with part := none }) n b sDENIED

/-- Length and alignment of LDS and STS, and of VLD and VST. -/
def accLen (vec : Bool) : Nat := if vec then 512 else 8
def accAlign (vec : Bool) : Nat := if vec then 64 else 8

/-- The address aA + sext. -/
def memAddr (s : State) (n : Nat) (a : Byte) (imm : W32) : Nat := (areg s n a.toNat + sext imm).toNat

/-- How an error that an access meets is reported. -/
abbrev Reporter := State → Nat → Nat → State

/-- The bytes that STS or VST stores. -/
def storeBytes (vec : Bool) (x : Stope) (d : Byte) : List Byte :=
  if vec then toLE 512 (x.vreg d.toNat).toNat else toLE 8 (x.sreg d.toNat).toNat

/-- Words of a VLD or VST. -/
abbrev vecWords : Nat := 8

/-- A vector access all of whose words are done ends. One that met both a collision and an error completes POISONED (log entry 114). -/
def endVec (s : State) (n : Nat) (d b : Byte) (write : Bool) (p : VecPart) : State :=
  let x := { stope s n with part := none }
  let y := if write then x else loadTo true x d (if p.coll || p.poison then [] else p.data)
  statusTo (setStope s n y) n b (if p.poison then sPOISONED else if p.coll then sCOLLIDED else sOK)

/-- The next word of a vector access at `ad`, if one is left, is performed; `busy` says that it received the bank-busy indication or the
mark. -/
def vecWord (rep : Reporter) (write busy : Bool) (s : State) (n : Nat) (d b : Byte) (ad : Nat) : State :=
  let x := stope s n
  let p := x.part.getD ⟨0, [], false, false⟩
  if vecWords ≤ p.words then endVec s n d b write p else
  let a := ad + 64 * p.words
  let bad := !write && !busy && anyBad s a 64
  let s1 := if write then (store s a (sliceB (storeBytes true x d) (64 * p.words) 64)).1 else s
  let s2 := if bad then rep s1 a 64 else s1
  let q : VecPart := ⟨p.words + 1, p.data ++ (if write then [] else readMem s a 64), p.coll || busy, p.poison || bad⟩
  if vecWords ≤ q.words then endVec s2 n d b write q else setStope s2 n { stope s2 n with part := some q }

/-- The words of a vector access that are left, in successive cycles. -/
def vecRest (rep : Reporter) (write : Bool) (n : Nat) (d b : Byte) (ad : Nat) : Nat → State → State
  | 0, s => s
  | fuel + 1, s => if (stope s n).part = none then s else vecRest rep write n d b ad fuel (vecWord rep write false s n d b ad)

/-- LDS or VLD at its issue; `busy` says that the read received the bank-busy indication or the collision mark. -/
def doLoad (rep : Reporter) (vec busy : Bool) (s : State) (n : Nat) (d a b : Byte) (imm : W32) : State :=
  let ad := memAddr s n a imm
  if ad % accAlign vec ≠ 0 then progFault s n cMISALIGN
  else match portAGate s n ad (accLen vec) false with
    | .stall => s
    | .denied c => denyLocal s n b c
    | .pass bk =>
      let s1 := served s n bk
      if vec && (stope s n).part.isSome then vecRest rep false n d b ad vecWords s1
      else if busy then statusTo (setStope s1 n (loadTo vec (stope s1 n) d [])) n b sCOLLIDED
      else match load s1 ad (accLen vec) with
        | none => rep (statusTo (setStope s1 n (loadTo vec (stope s1 n) d [])) n b sPOISONED) ad (accLen vec)
        | some bs => statusTo (setStope s1 n (loadTo vec (stope s1 n) d bs)) n b sOK

/-- STS or VST at its issue. A store that met the bank-busy indication or the mark has taken effect (R143). -/
def doStore (rep : Reporter) (vec busy : Bool) (s : State) (n : Nat) (d a b : Byte) (imm : W32) : State :=
  let ad := memAddr s n a imm
  if ad % accAlign vec ≠ 0 then progFault s n cMISALIGN
  else match portAGate s n ad (accLen vec) true with
    | .stall => s
    | .denied c => denyLocal s n b c
    | .pass bk =>
      if vec && (stope s n).part.isSome then vecRest rep true n d b ad vecWords (served s n bk)
      else
      let r := store (served s n bk) ad (storeBytes vec (stope s n) d)
      let s1 := statusTo r.1 n b (if r.2 then sPOISONED else if busy then sCOLLIDED else sOK)
      if r.2 then rep s1 ad (accLen vec) else s1

/-- The die of a stope. -/
def dieOf (st : Fin 512) : Nat := st.val / 256

end Sys2Proof.Machine
end

