-- ==== Sys2Proof/Machine/Promise.lean ====
section
/-!
DEFINITION. The delivery promise: classes and promises, route floors, credit, the throttle and the gates of admission
(chapter 13, R119, R163, R167, R316, R348, R380).
-/

namespace Sys2Proof.Machine

/-- A profile register of die `d`'s time block in a copy (R297): unlisted ones hold their reset value. -/
def profReg (c : ProfCopy) (d off : Nat) : W32 := (Sparse.get none c.tregs off).getD (regReset (pgTime d) off)

/-- A live profile register of die `d`. -/
def liveReg (s : State) (d off : Nat) : Nat := (profReg (router s d).live d off).toNat

/-- Bandwidth classes. -/
abbrev scavenge : Nat := 3

/-- The promise of a class on die `d`, in ns (Table 13-1). -/
def promise (s : State) (d cls : Nat) : Nat :=
  match cls with
  | 0 => liveReg s d PROM_EXP
  | 1 => liveReg s d PROM_ROL
  | _ => liveReg s d PROM_BULK

/-- The profile copy of an operation's generation: the live one, or the old one until it has drained and is being overwritten; any other
generation takes the live copy (R250, R299). -/
def copyOf (s : State) (d gen : Nat) : ProfCopy :=
  let r := router s d
  if r.live.gen = gen then r.live
  else if r.other.gen = gen ∧ s.undrained.contains d = true ∧ s.copying.contains d = false then r.other
  else r.live

/-- An entry of the live route table, and of the live multicast table, of die `d`. -/
def routeEntry (s : State) (d node : Nat) : W64 := Sparse.get 0 (router s d).live.routes node
def mcEntry (s : State) (d g : Nat) : W64 := Sparse.get 0 (router s d).live.mc g

/-- Array and queuing allowance A of R258. -/
def floorA (space : Nat) : Nat := if space = 0 then 500 else if space = 1 then 100 else 2500

/-- The formula of R258. -/
def floorOf (l f x a : Nat) : Nat := 2 * (150 + l * f + (l - 1) * 240 + x * 40 + 170) + a + 1000

/-- The route floor from die `d` to a node-die and space (R258); `none` where no valid entry exists. -/
def routeFloor (s : State) (d nodeDie space : Nat) : Option Nat :=
  let f := liveReg s d FLIGHT_ALLOW
  if nodeDie / 2 = s.boot.node then some (floorOf 0 f (if nodeDie % 2 = d then 0 else 1) (floorA space))
  else
    let e := routeEntry s d (nodeDie / 2)
    if fld e 47 47 = 0 then none
    else
      let a := fld e 12 0 ≠ 0
      let b := fld e 28 16 ≠ 0
      let l := Nat.max (if a then fld e 35 32 else 0) (if b then fld e 39 36 else 0)
      let x := Nat.max (if a then fld e 42 40 else 0) (if b then fld e 46 44 else 0)
      if a ∨ b then some (floorOf l f x (floorA space)) else none

/-- The floor of an MCPUT to a group (R252, R258). -/
def mcFloor (s : State) (d g : Nat) : Nat :=
  let h := fld (mcEntry s d g) 35 32
  Nat.max (floorOf h (liveReg s d FLIGHT_ALLOW) 1 100) (1000 * (h + 1))

/-- Stacks that the bytes [o, o + len) of die `d`'s space 0 touch: one per 128-byte granule. -/
def stacksOf (d o len : Nat) : List Nat :=
  (List.range (ceilDiv (o % 128 + len) 128)).map (fun i => stackOf d (o / 128 * 128 + 128 * i))

/-- The stacks of this device that an address range touches. -/
def touchedStacks (s : State) (a len : Nat) : List Nat :=
  if a / 2 ^ 50 = s.boot.node ∧ aSpace a = 0 then stacksOf (aDie a) (aOff a) len else []

/-- The stack is closed (R380), or in the critical state (R167). -/
def stackClosed (s : State) (k : Nat) : Bool := !(stack s k).open_
def stackCritical (s : State) (k : Nat) : Bool := decide ((stack s k).thermal = 2)

/-- The throttle's setting of stack `k` for a class: 0 full, 1 half, 2 zero (R264). -/
def throttle (s : State) (k cls : Nat) : Nat :=
  let v := rd s (pgTime (k / 4)) THROTTLE
  let j := k % 4
  if cls = 2 then fld v (4 * j + 1) (4 * j) else if cls = 3 then fld v (4 * j + 3) (4 * j + 2) else 0

/-- The strictest setting among the stacks touched. -/
def strictest (s : State) (cls : Nat) (ks : List Nat) : Nat := (ks.map (fun k => throttle s k cls)).foldl Nat.max 0

/-- Die `d` behaves as in time-doubt (R268, R270, R271). -/
def inDoubt (s : State) (d : Nat) : Bool := decide ((timeBlk s d).st ≠ 1)

/-- A range lies in a copy-out region of its die (R348). -/
def inCopyOut (s : State) (a len : Nat) : Bool :=
  let pg := pgHistory (aDie a)
  decide (a / 2 ^ 50 = s.boot.node) &&
  (List.range 4).any (fun i =>
    let base := (rd64 s pg (COPY_BASE + 16 * i)).toNat
    let size := 4096 * (rd s pg (COPY_BASE + 16 * i + 8)).toNat
    decide (size ≠ 0) && decide (low50 base ≤ low50 a) && decide (low50 a + len ≤ low50 base + size))

/-- The device drains, or is split and drains (R347, R352). -/
def draining (s : State) (d : Nat) : Bool := decide ((service s d).state = 3) || decide ((service s d).state = 5)

/-- Admission stands open at an ingress of die `d` for new work of a class: the device is ready and promised classes are
not in doubt (R271, R316, R347). -/
def admitting (s : State) (d cls : Nat) : Bool :=
  decide ((service s d).state = 2) && (decide (cls = scavenge) || !inDoubt s d)

/-- The target of a range on this device can be reached and serves: its stacks are neither closed nor critical (R167,
R380), and a far access finds the bridge in service (R163). -/
def targetServes (s : State) (d a len : Nat) : Bool :=
  let ks := touchedStacks s a len
  ks.all (fun k => !stackClosed s k && !stackCritical s k) &&
  !(decide (a / 2 ^ 50 = s.boot.node) && decide (aDie a ≠ d) && decide (s.bridge.st = 3))

/-- Ingress numbers of the credit buckets (Table 13-2), with their capacity in tenths of bytes per ns. -/
inductive Ingress where
  | stope (n : Nat)
  | hoist (e : Nat)
  | host
deriving DecidableEq, Repr

def Ingress.key : Ingress → Nat
  | .stope n => n
  | .hoist e => 512 + e
  | .host => 576

def Ingress.cap : Ingress → Nat
  | .stope _ => 1024
  | .hoist _ => 4096
  | .host => 1210

/-- Share of a class, in 64ths. -/
def share (s : State) (d cls : Nat) : Nat :=
  let v := liveReg s d SHARES
  bitsOf v (8 * cls + 5) (8 * cls)

/-- Depth of a bucket in 1/640 byte: s_c × C × WINDOW_NS (R260). -/
def bucketDepth (s : State) (d : Nat) (i : Ingress) (cls : Nat) : Nat := share s d cls * i.cap * liveReg s d WINDOW_NS

/-- Level of a bucket now; a bucket never used is full. -/
def bucketLevel (s : State) (d : Nat) (i : Ingress) (cls : Nat) : Nat :=
  match Sparse.get none s.buckets (4 * i.key + cls) with
  | none => bucketDepth s d i cls
  | some b => Nat.min (bucketDepth s d i cls) (b.level + share s d cls * i.cap * (elapsed s - b.at_))

/-- Ingresses of die `d`. -/
def ingresses (d : Nat) : List Ingress :=
  (List.range 256).map (fun i => .stope (256 * d + i)) ++ (List.range 32).map (fun i => .hoist (32 * d + i)) ++
  (if d = 0 then [.host] else [])

/-- The levels of die `d`'s buckets are settled under the shares and the window that have held until now, before others take effect (R260). -/
def settleBuckets (s : State) (d : Nat) : State :=
  { s with buckets := (ingresses d).foldl (fun b i => (List.range 4).foldl (fun b c =>
      Sparse.set none b (4 * i.key + c) (some ⟨bucketLevel s d i c, elapsed s⟩)) b) s.buckets }

/-- Cost of a remote operation that carries or returns `len` bytes (R260), in bytes. -/
def opCost (len : Nat) : Nat := 64 * ceilDiv (48 + len) 64

/-- Take the credit of an operation, or refuse and count it (R260, R264): half doubles the cost, zero refuses. -/
def takeCredit (s : State) (d : Nat) (i : Ingress) (cls len setting : Nat) : Option State :=
  let cost := 640 * opCost len * (if setting = 1 then 2 else 1)
  let lev := bucketLevel s d i cls
  if setting = 2 ∨ lev < cost then none
  else some { s with buckets := Sparse.set none s.buckets (4 * i.key + cls) (some ⟨lev - cost, elapsed s⟩) }

/-- Count a refusal for credit (Table 13-6). -/
def countRefused (s : State) (d : Nat) : State := bump s (pgTime d) ADM_REFUSED 1

/-- CCLK of an operating point in MHz (Table 17-3). -/
def pointMHz (p : Nat) : Nat :=
  match p with
  | 0 => 2200 | 1 => 1900 | 2 => 1600 | 3 => 1200 | _ => 800

/-- CCLK of a die in MHz, as a computed end takes it: the lower of old and new during a change (R327). -/
def cclk (s : State) (d : Nat) : Nat :=
  let v := dvfs s d
  match v.target with
  | some t => Nat.min (pointMHz v.point) (pointMHz t)
  | none => pointMHz v.point

/-- Time of CCLK cycles that run one after another, each number of them at its CCLK in MHz (R327). -/
def runNs (cs : List (Nat × Nat)) : Nat :=
  let m := cs.foldl (fun p c => p * c.2) 1
  ceilDiv ((cs.map (fun c => 1000 * c.1 * (m / c.2))).foldl (· + ·) 0) m

end Sys2Proof.Machine
end

