-- ==== Sys2Proof/Machine/HostOps.lean ====
section
/-!
DEFINITION. What operations do at the host side: MSI-X, completion entries, aperture pieces, doorbells and notices
posted by the headframe (R280 to R287).
-/

namespace Sys2Proof.Machine

/-- The device is in the safe state on die `d` (R350). -/
def isSafe (s : State) (d : Nat) : Bool := decide ((service s d).state = 4)

/-- Send an MSI-X vector, or leave it pending where it is masked; none is sent in the safe state (R276). -/
def msix (s : State) (v : Nat) : State :=
  if isSafe s 0 then s
  else if bitsOf s.host.msixMask v v = 1 then { s with host := { s.host with msixPending := s.host.msixPending ||| 2 ^ v } }
  else emit s (.msix v)

/-- Raise the headframe's interrupt: counted, since the headframe's firmware is not modelled. -/
def hfInterrupt (s : State) : State := { s with boot := { s.boot with hfIrq := s.boot.hfIrq + 1 } }

/-- Size of a ring, from its log₂ register. -/
def ringSize (s : State) (off : Nat) : Nat := 2 ^ fld (rd s pgHost off) 4 0

/-- A completion entry (Table 14-3). -/
def cqEntry (user : W64) (status reason : Nat) (phase : Bool) : List Byte :=
  toLE 16 (user.toNat + 2 ^ 64 * (status % 16) + 2 ^ 68 * (reason % 256) + 2 ^ 76 * (if phase then 1 else 0))

/-- The place of a reserved completion entry is used: the tail moves past it. -/
def passEntry (s : State) : State :=
  let h := s.host
  let t := (h.cqTail + 1) % ringSize s CQ_SIZE
  { s with host := { h with
    cqTail := t, phase := if t = 0 then !h.phase else h.phase, cqUsed := h.cqUsed + 1, reserved := h.reserved - 1, entries := h.entries + 1 } }

/-- Write the completion entry of a host request whose entry was reserved (R279 to R281); one that PCIe loses is counted (log entry 130). -/
def writeEntry (s : State) (user : W64) (status reason : Nat) : State :=
  let h := s.host
  if Config.entryLost h.entries then bump (passEntry s) pgHost DISCARDED 1
  else
    msix (passEntry (emit s (.hostWrite ((rd64 s pgHost CQ_BASE_LO).toNat + 16 * h.cqTail) (cqEntry user status reason h.phase)))) 64

/-- An admitted host request completes: returned data first, then its entry; a request outstanding at a Function Level
Reset is only counted (R277, R280). -/
def hostComplete (s : State) (op status reason : Nat) (data : List Byte) : State :=
  match s.host.reqs.find? (fun r => r.op = op) with
  | none => s
  | some r =>
    let s1 := { s with host := { s.host with reqs := s.host.reqs.filter (fun q => q.op ≠ op) } }
    if r.discarded then bump s1 pgHost DISCARDED 1
    else
      let s2 := if data = [] then s1 else emit s1 (.hostWrite r.hostAddr data)
      writeEntry s2 r.user status reason

/-- Every piece of an aperture access has completed. -/
def ApAccess.isDone (a : ApAccess) : Bool := !a.held && a.pieces.all (fun p => p.done)

/-- A finished aperture access leaves the host port: a read answers its data or Completer Abort; a write whose pieces
did not all complete OK is counted and raises vector 65 (R282). -/
def finishAperture (s : State) (a : ApAccess) : State :=
  let s1 := { s with host := { s.host with aps := s.host.aps.filter (fun b => b.id ≠ a.id) } }
  if a.write then
    if a.pieces.all (fun p => p.ok) then s1 else msix (bump s1 pgHost AP_WFAIL 1) 65
  else if a.pieces.all (fun p => p.ok) then emit s1 (.apReadData (a.pieces.flatMap (fun p => p.data)))
  else emit s1 .completerAbort

/-- A piece of an aperture access completes. -/
def aperturePiece (s : State) (id op status : Nat) (data : List Byte) : State :=
  let upd (a : ApAccess) : ApAccess :=
    if a.id = id then
      { a with pieces := a.pieces.map (fun (p : ApPiece) =>
          if p.op = op then { p with done := true, ok := decide (status = sOK), data := data } else p) }
    else a
  let s1 := { s with host := { s.host with aps := s.host.aps.map upd } }
  match s1.host.aps.find? (fun a => a.id = id) with
  | some a => if a.isDone then finishAperture s1 a else s1
  | none => s1

/-- Set a doorbell bit: a bit that goes from 0 to 1 sends its vector and raises the headframe's interrupt where unmasked. One cleared in the
same cycle has stayed 1 (R283). -/
def ringDoorbell (s0 : State) (b : Nat) : State :=
  let s := { s0 with host := { s0.host with rung := s0.host.rung ||| 2 ^ b } }
  if bitsOf (rd s pgHost DOORBELL).toNat b b = 1 then s
  else if bitsOf s.host.unrung b b = 1 then setBits s pgHost DOORBELL (2 ^ b)
  else
    let s1 := setBits s pgHost DOORBELL (2 ^ b)
    let s2 := if bitsOf (rd s pgHost DB_MASK_HOST).toNat b b = 1 then msix s1 b else s1
    if bitsOf (rd s pgHost DB_MASK_HF).toNat b b = 1 then hfInterrupt s2 else s2

/-- Mailbox `m` is in shared mode. -/
def mbShared (s : State) (m : Nat) : Bool := decide (fld (rd s (pgMailbox m) M_CTL) 0 0 = 1)

/-- Places of a mailbox (R284). -/
def mbPlaces (s : State) (m : Nat) : Nat := if mbShared s m then 1 else 8

/-- A notice keeps Table 14-4: reserved fields 0, LEN at most 56, bytes beyond LEN 0. -/
def noticeOk (bs : List Byte) : Bool :=
  decide (bs.length = 64) && decide (leAt bs 0 4 / 16 % 2 ^ 12 = 0) && decide (leAt bs 0 4 / 2 ^ 24 = 0) &&
  decide (leAt bs 4 4 / 2 ^ 22 = 0) && decide (leAt bs 4 4 / 2 ^ 16 % 64 ≤ 56) &&
  (bs.drop (8 + leAt bs 4 4 / 2 ^ 16 % 64)).all (fun b => b == 0)

/-- Write `RESULT[sender]`. -/
def mbResult (s : State) (m sender seq status : Nat) : State :=
  wr s (pgMailbox m) (M_RESULT + 4 * sender) (BitVec.ofNat 32 (seq % 65536 + 2 ^ 16 * (status % 16) + 2 ^ 20))

/-- The holder that a private mailbox lets post under a sender number (R284). -/
def mbHolder (m sender : Nat) : Agent := ⟨if m < 16 then btHost else btHeadframe, sender⟩

/-- An accepted notice interrupts the receiver (R287). -/
def noteIrq (s : State) (m : Nat) : State :=
  if fld (rd s (pgMailbox m) M_CTL) 1 1 = 1 then (if m < 16 then hfInterrupt s else msix s (16 + m)) else s

/-- The mailbox judges a post (R285); answers its status, or `none` where it was dropped under step 1. -/
def mbJudge (s : State) (m : Nat) (bs : List Byte) : State × Option Nat :=
  if !noticeOk bs then (bump s (pgMailbox m) M_DROPPED 1, none)
  else
    let sender := leAt bs 0 1 % 16
    let seq := leAt bs 4 2
    let shared := mbShared s m
    if !shared && !decide (holder s (pgMailbox m) = mbHolder m sender) then
      (mbResult s m sender seq sDENIED, some sDENIED)
    else if (mailbox s m).length ≥ mbPlaces s m then
      if shared then (mbResult (setBits s (pgMailbox m) M_COLL 1) m sender seq sCOLLIDED, some sCOLLIDED)
      else (mbResult s m sender seq sREFUSED, some sREFUSED)
    else
      (noteIrq (mbResult (setMailbox s m (mailbox s m ++ [bs])) m sender seq sOK) m, some sOK)

/-- What a post that took `s` to `t` found and raised. -/
def postedAs (s t : State) (m : Nat) (bs : List Byte) : Posted :=
  let v := 16 + m
  { mailbox := m, bytes := bs, notices := mailbox s m, result := rd s (pgMailbox m) (M_RESULT + 4 * (leAt bs 0 1 % 16))
    coll := rd s (pgMailbox m) M_COLL, sent := if t.out.length = s.out.length then none else some v
    pended := if t.host.msixPending = s.host.msixPending then none else some v, hf := decide (t.boot.hfIrq ≠ s.boot.hfIrq) }

/-- A post is judged, and kept until its SCLK cycle ends (R286). -/
def mbPost (s : State) (m : Nat) (bs : List Byte) : State × Option Nat :=
  let r := mbJudge s m bs
  (if r.2 = none then r.1 else { r.1 with host := { r.1.host with posts := postedAs s r.1 m bs :: r.1.host.posts } }, r.2)

/-- A post of the present cycle as if it had not been judged. -/
def unpost (s : State) (p : Posted) : State :=
  let pg := pgMailbox p.mailbox
  let s1 := wr (wr (setMailbox s p.mailbox p.notices) pg (M_RESULT + 4 * (leAt p.bytes 0 1 % 16)) p.result) pg M_COLL p.coll
  { s1 with
    out := match p.sent with
      | some v => s1.out.erase (.msix v)
      | none => s1.out
    boot := { s1.boot with hfIrq := s1.boot.hfIrq - (if p.hf then 1 else 0) }
    host := { s1.host with
      posts := s1.host.posts.filter (fun q => q ≠ p)
      msixPending := match p.pended with
        | some v => s1.host.msixPending - bitsOf s1.host.msixPending v v * 2 ^ v
        | none => s1.host.msixPending } }

/-- A pop or a recall of mailbox `m` comes before the posts of its SCLK cycle, which are judged after it (R286). -/
def beforePosts (s : State) (m : Nat) (f : State → State) : State :=
  let ps := s.host.posts.filter (fun p => p.mailbox = m)
  ps.foldr (fun p t => (mbPost t m p.bytes).1) (f (ps.foldl unpost s))

/-- A notice of Scefort firmware (Table 14-4), posted by headframe task 0. -/
def fwNotice (code seq : Nat) (payload : List Byte) : List Byte :=
  let head := toLE 4 (2 ^ 16 * code) ++ toLE 4 (seq % 65536 + 2 ^ 16 * payload.length) ++ payload
  head ++ List.replicate (64 - head.length) 0

end Sys2Proof.Machine
end

