-- ==== Sys2Proof/Machine/Pins.lean ====
section
/-!
DEFINITION. The multifunction pins as the device stands: their functions, parks and the I3C targets behind them (R320, R375, R379).
-/

namespace Sys2Proof.Machine

/-- Function code of a pin. -/
def pinFunc (s : State) (n : Nat) : Nat :=
  bitsOf (rd s (pgHeadframe 0) (if n < 8 then PIN_FUNC_LO else PIN_FUNC_HI)).toNat (4 * (n % 8) + 3) (4 * (n % 8))

/-- Pins that park for `ns` of SCLK from the cycle after their write, as a bit set; all of them in the safe state. -/
def parkedFor (s : State) (ns : Nat) : Nat :=
  if isSafe s 0 then 0xFFFF else (s.pins.parks.filter (fun p => decide (elapsed s < p.2 + ns))).foldl (fun a p => a ||| p.1) 0

/-- Pins that are parked: for eight SCLK cycles of 4 ns after that of their write (R320). -/
def parked (s : State) : Nat := parkedFor s 32

/-- The pin has a function code and is not parked. -/
def pinHas (s : State) (n code : Nat) : Bool := decide (pinFunc s n = code) && bitsOf (parked s) n n == 0

/-- An I3C target of the module: the management bus, or the second target on GPIO2 and GPIO3. -/
def i3c (s : State) (bus : Nat) : I3c := if bus = 0 then s.pins.i3c0 else s.pins.i3c1
def setI3c (s : State) (bus : Nat) (x : I3c) : State :=
  { s with pins := if bus = 0 then { s.pins with i3c0 := x } else { s.pins with i3c1 := x } }

/-- The target serves: the management bus from 1 ms after PWR_GOOD, the second while both of its pins have code 3. -/
def i3cActive (s : State) (bus : Nat) : Bool :=
  s.power.pwrGood && decide (s.power.busAt ≤ elapsed s) && (decide (bus = 0) || (pinHas s 2 3 && pinHas s 3 3))

end Sys2Proof.Machine
end

