-- ==== Sys2Proof/Machine/Crypto.lean ====
section
/-!
DEFINITION. The standard algorithms that the spec names (R186, R354, R355, R358, R360): SHA-384 (FIPS 180-4), ECDSA on P-384
(FIPS 186-5), AES-256 (FIPS 197), AES Key Wrap (SP 800-38F), XTS (IEEE 1619) and GCM (SP 800-38D). PRESUMED: their definitions are the
standards', not the spec's (log entry 4).
-/

namespace Sys2Proof.Crypto

/-- Big-endian number of bytes, and back. -/
def beNat (bs : List Byte) : Nat := bs.foldl (fun a b => 256 * a + b.toNat) 0
def toBE (n v : Nat) : List Byte := (toLE n v).reverse

-- SHA-384 ---------------------------------------------------------------------------------------------------------------

/-- Largest x below 2^bits, set bit by bit from the top, that a test accepts. -/
def searchDown (ok : Nat → Bool) : Nat → Nat → Nat
  | 0, x => x
  | n + 1, x => searchDown ok n (if ok (x + 2 ^ n) then x + 2 ^ n else x)

/-- The first primes. -/
def primes : List Nat :=
  (List.range 410).filter (fun n => decide (2 ≤ n) && (List.range 20).all (fun d => decide (d + 2 ≥ n) || decide (n % (d + 2) ≠ 0)))

/-- First 64 fractional bits of a cube root and of a square root. -/
def cbrtFrac (p : Nat) : Nat := searchDown (fun x => decide (x * x * x ≤ p * 2 ^ 192)) 68 0 % 2 ^ 64
def sqrtFrac (p : Nat) : Nat := searchDown (fun x => decide (x * x ≤ p * 2 ^ 128)) 70 0 % 2 ^ 64

/-- Round constants, and the initial value of SHA-384. -/
def shaK : List Nat := (primes.take 80).map cbrtFrac
def shaInit : List Nat := ((primes.drop 8).take 8).map sqrtFrac

def ror64 (x n : Nat) : Nat := (x >>> n) ||| (x <<< (64 - n)) % 2 ^ 64

/-- Message schedule, newest word first. -/
def schedule : Nat → List Nat → List Nat
  | 0, w => w
  | n + 1, w =>
    let a := w.getD 1 0
    let b := w.getD 14 0
    let s0 := ror64 b 1 ^^^ ror64 b 8 ^^^ b >>> 7
    let s1 := ror64 a 19 ^^^ ror64 a 61 ^^^ a >>> 6
    schedule n ((s1 + w.getD 6 0 + s0 + w.getD 15 0) % 2 ^ 64 :: w)

/-- One round on (a, …, h). -/
def shaRound (v : List Nat) (kw : Nat × Nat) : List Nat :=
  match v with
  | [a, b, c, d, e, f, g, h] =>
    let s1 := ror64 e 14 ^^^ ror64 e 18 ^^^ ror64 e 41
    let ch := (e &&& f) ^^^ ((2 ^ 64 - 1 - e) &&& g)
    let t1 := h + s1 + ch + kw.1 + kw.2
    let s0 := ror64 a 28 ^^^ ror64 a 34 ^^^ ror64 a 39
    let mj := (a &&& b) ^^^ (a &&& c) ^^^ (b &&& c)
    [(t1 + s0 + mj) % 2 ^ 64, a, b, c, (d + t1) % 2 ^ 64, e, f, g]
  | _ => v

/-- Compress one 128-byte block. -/
def shaBlock (hs : List Nat) (block : List Byte) : List Nat :=
  let w := schedule 64 (((List.range 16).map (fun i => beNat ((block.drop (8 * i)).take 8))).reverse)
  let v := (List.zip shaK w.reverse).foldl shaRound hs
  List.zipWith (fun a b => (a + b) % 2 ^ 64) hs v

/-- The blocks of a padded message. -/
def shaBlocks : Nat → List Nat → List Byte → List Nat
  | 0, hs, _ => hs
  | n + 1, hs, bs => shaBlocks n (shaBlock hs (bs.take 128)) (bs.drop 128)

/-- SHA-384. -/
def sha384 (m : List Byte) : List Byte :=
  let z := (239 - m.length % 128) % 128
  let padded := m ++ [0x80] ++ List.replicate z 0 ++ toBE 16 (8 * m.length)
  ((shaBlocks (padded.length / 128) shaInit padded).take 6).flatMap (toBE 8)

-- P-384 -------------------------------------------------------------------------------------------------------------------

def pP : Nat := 0xFFFFFFFFFFFFFFFFFFFFFFFFFFFFFFFFFFFFFFFFFFFFFFFFFFFFFFFFFFFFFFFEFFFFFFFF0000000000000000FFFFFFFF
def pN : Nat := 0xFFFFFFFFFFFFFFFFFFFFFFFFFFFFFFFFFFFFFFFFFFFFFFFFC7634D81F4372DDF581A0DB248B0A77AECEC196ACCC52973
def pB : Nat := 0xB3312FA7E23EE7E4988E056BE3F82D19181D9C6EFE8141120314088F5013875AC656398D8A2ED19D2A85C8EDD3EC2AEF
def pGx : Nat := 0xAA87CA22BE8B05378EB1C71EF320AD746E1D3B628BA79B9859F741E082542A385502F25DBF55296C3A545E3872760AB7
def pGy : Nat := 0x3617DE4A96262C6F5D9E98BF9292DC29F8F41DBD289A147CE9DA3113B5F0B8C00A60B1CE1D7E819D7A431D7C90EA0E5F

/-- x^e mod m, for an exponent of `n` bits. -/
def powMod (m x : Nat) : Nat → Nat → Nat
  | 0, _ => 1 % m
  | n + 1, e => let h := powMod m x n (e / 2); let q := h * h % m; if e % 2 = 1 then q * x % m else q

/-- Inverse modulo a prime. -/
def invMod (m x : Nat) : Nat := powMod m x 384 (m - 2)

/-- a − b modulo p. -/
def subP (a b : Nat) : Nat := (a + pP - b % pP) % pP

/-- A point in Jacobian coordinates; z = 0 is the point at infinity. -/
structure Pt where
  x : Nat
  y : Nat
  z : Nat
deriving DecidableEq, Repr

def Pt.inf : Pt := ⟨1, 1, 0⟩

def Pt.double (a : Pt) : Pt :=
  if a.z = 0 ∨ a.y = 0 then Pt.inf
  else
    let dl := a.z * a.z % pP
    let gm := a.y * a.y % pP
    let bt := a.x * gm % pP
    let al := 3 * (subP a.x dl * (a.x + dl)) % pP
    let x3 := subP (al * al % pP) (8 * bt)
    let z3 := subP ((a.y + a.z) * (a.y + a.z) % pP) (gm + dl)
    let y3 := subP (al * subP (4 * bt) x3 % pP) (8 * (gm * gm % pP))
    ⟨x3, y3, z3⟩

def Pt.add (a b : Pt) : Pt :=
  if a.z = 0 then b
  else if b.z = 0 then a
  else
    let za := a.z * a.z % pP
    let zb := b.z * b.z % pP
    let u1 := a.x * zb % pP
    let u2 := b.x * za % pP
    let s1 := a.y * b.z % pP * zb % pP
    let s2 := b.y * a.z % pP * za % pP
    if u1 = u2 then (if s1 = s2 then a.double else Pt.inf)
    else
      let h := subP u2 u1
      let r := subP s2 s1
      let hh := h * h % pP
      let hhh := h * hh % pP
      let v := u1 * hh % pP
      let x3 := subP (r * r % pP) (hhh + 2 * v)
      ⟨x3, subP (r * subP v x3 % pP) (s1 * hhh), h * a.z % pP * b.z % pP⟩

/-- k · P for a scalar of `n` bits. -/
def Pt.mul (a : Pt) : Nat → Nat → Pt
  | 0, _ => Pt.inf
  | n + 1, k => let d := (Pt.mul a n (k / 2)).double; if k % 2 = 1 then d.add a else d

/-- ECDSA P-384 verification of a SHA-384 digest under a public key (x, y). -/
def ecdsaVerify (digest pub sig : List Byte) : Bool :=
  let x := beNat (pub.take 48)
  let y := beNat (pub.drop 48)
  let r := beNat (sig.take 48)
  let t := beNat (sig.drop 48)
  let onCurve := decide (x < pP) && decide (y < pP) && decide (y * y % pP = (x * x * x + (pP - 3) * x + pB) % pP)
  if onCurve && decide (1 ≤ r) && decide (r < pN) && decide (1 ≤ t) && decide (t < pN) then
    let w := invMod pN t
    let u1 := beNat digest * w % pN
    let u2 := r * w % pN
    let q := ((Pt.mk pGx pGy 1).mul 384 u1).add ((Pt.mk x y 1).mul 384 u2)
    decide (q.z ≠ 0) && decide (q.x * powMod pP (invMod pP q.z) 2 2 % pP % pN = r)
  else false

-- AES-256 --------------------------------------------------------------------------------------------------------------------

/-- Multiplication in GF(2^8). -/
def gmul : Nat → Nat → Nat → Nat
  | 0, _, _ => 0
  | n + 1, a, b => (if b % 2 = 1 then a else 0) ^^^ gmul n (if a < 128 then 2 * a else (2 * a) % 256 ^^^ 0x1B) (b / 2)

/-- The S-box: the inverse and the affine map. -/
def sboxOf (a : Nat) : Nat :=
  let inv := Nat.repeat (fun x => gmul 8 x a) 253 a
  let i := if a = 0 then 0 else inv
  let rot (k : Nat) : Nat := (i * 2 ^ k) % 256 + (i * 2 ^ k) / 256
  i ^^^ rot 1 ^^^ rot 2 ^^^ rot 3 ^^^ rot 4 ^^^ 0x63

def sboxTable : List Nat := (List.range 256).map sboxOf
def sbox (a : Byte) : Byte := BitVec.ofNat 8 (sboxTable.getD a.toNat 0)
def invSboxTable : List Nat := (List.range 256).map (fun v => sboxTable.findIdx (fun x => x == v))
def invSbox (a : Byte) : Byte := BitVec.ofNat 8 (invSboxTable.getD a.toNat 0)

def xorB (a b : List Byte) : List Byte := List.zipWith (· ^^^ ·) a b

/-- Words of the key schedule, newest first; `i` is the number of the next word. -/
def expandFrom : Nat → Nat → List (List Byte) → List (List Byte)
  | 0, _, ws => ws
  | n + 1, i, ws =>
    let t := ws.headD []
    let u :=
      if i % 8 = 0 then
        xorB ((t.drop 1 ++ t.take 1).map sbox) [BitVec.ofNat 8 (Nat.repeat (fun x => gmul 8 x 2) (i / 8 - 1) 1), 0, 0, 0]
      else if i % 8 = 4 then t.map sbox else t
    expandFrom n (i + 1) (xorB (ws.getD 7 []) u :: ws)

/-- The fifteen round keys of a 32-byte key. -/
def roundKeys (key : List Byte) : List (List Byte) :=
  let ws := (expandFrom 52 8 (((List.range 8).map (fun i => (key.drop (4 * i)).take 4)).reverse)).reverse
  (List.range 15).map (fun r => ((ws.drop (4 * r)).take 4).flatten)

/-- Permute the sixteen bytes of a state: byte i is taken from `f i`. -/
def permute (f : Nat → Nat) (s : List Byte) : List Byte := (List.range 16).map (fun i => s.getD (f i) 0)

/-- ShiftRows and its inverse, on a state in column order. -/
def shiftRows (s : List Byte) : List Byte := permute (fun i => (i + 4 * (i % 4)) % 16) s
def invShiftRows (s : List Byte) : List Byte := permute (fun i => (i + 16 - 4 * (i % 4)) % 16) s

/-- MixColumns with the first row of a circulant matrix. -/
def mixWith (row : List Nat) (s : List Byte) : List Byte :=
  (List.range 16).map (fun i =>
    BitVec.ofNat 8 ((List.range 4).foldl (fun a k =>
      a ^^^ gmul 8 (s.getD (i / 4 * 4 + (i + k) % 4) 0).toNat (row.getD k 0)) 0))

/-- Encrypt one block. -/
def aesEncrypt (key block : List Byte) : List Byte :=
  let ks := roundKeys key
  let mid := ((ks.drop 1).take 13).foldl (fun s k => xorB (mixWith [2, 3, 1, 1] (shiftRows (s.map sbox))) k) (xorB block (ks.headD []))
  xorB (shiftRows (mid.map sbox)) (ks.getD 14 [])

/-- Decrypt one block. -/
def aesDecrypt (key block : List Byte) : List Byte :=
  let ks := (roundKeys key).reverse
  let mid := ((ks.drop 1).take 13).foldl (fun s k => mixWith [14, 11, 13, 9] (xorB ((invShiftRows s).map invSbox) k)) (xorB block (ks.headD []))
  xorB ((invShiftRows mid).map invSbox) (ks.getD 14 [])

/-- One step of AES Key Wrap's inverse: A and the registers, for step number t on register i. -/
def unwrapStep (key : List Byte) (a : List Byte) (rs : List (List Byte)) (t i : Nat) : List Byte × List (List Byte) :=
  let b := aesDecrypt key (xorB a (toBE 8 t) ++ rs.getD i [])
  (b.take 8, rs.set i (b.drop 8))

/-- Steps `t` down to 1. -/
def unwrapFrom (key : List Byte) (n : Nat) : Nat → List Byte → List (List Byte) → List Byte × List (List Byte)
  | 0, a, rs => (a, rs)
  | t + 1, a, rs => let r := unwrapStep key a rs (t + 1) (t % n); unwrapFrom key n t r.1 r.2

/-- AES Key Wrap: unwrap, or `none` where the integrity check fails. -/
def keyUnwrap (key c : List Byte) : Option (List Byte) :=
  let n := c.length / 8 - 1
  let r := unwrapFrom key n (6 * n) (c.take 8) ((List.range n).map (fun i => (c.drop (8 + 8 * i)).take 8))
  if r.1 = List.replicate 8 0xA6 then some r.2.flatten else none

-- XTS (data of whole 16-byte blocks) -----------------------------------------------------------------------------------------------

/-- The next tweak: multiplication by α, little-endian. -/
def nextTweak (t : Nat) : Nat := (2 * t) % 2 ^ 128 ^^^ (if 2 ^ 127 ≤ t then 0x87 else 0)

/-- Pass the blocks of a data unit through a cipher under running tweaks. -/
def xtsBlocks (f : List Byte → List Byte) : Nat → Nat → List Byte → List Byte
  | 0, _, _ => []
  | n + 1, t, bs => xorB (f (xorB (bs.take 16) (toLE 16 t))) (toLE 16 t) ++ xtsBlocks f n (nextTweak t) (bs.drop 16)

/-- Tweak of block `j` of a data unit under a 64-byte key: the data key, then the tweak key. -/
def xtsTweak (key : List Byte) (unit j : Nat) : Nat := Nat.repeat nextTweak j (leNat (aesEncrypt (key.drop 32) (toLE 16 unit)))

/-- One block under a tweak. -/
def xtsOne (f : List Byte → List Byte) (t : Nat) (b : List Byte) : List Byte := xorB (f (xorB b (toLE 16 t))) (toLE 16 t)

/-- XTS-AES-256 with ciphertext stealing; `swap` says that the last whole block uses the last tweak (decryption). -/
def xtsWith (f : List Byte → List Byte) (swap : Bool) (key : List Byte) (unit : Nat) (bs : List Byte) : List Byte :=
  let m := bs.length / 16
  let r := bs.length % 16
  let t0 := xtsTweak key unit 0
  if r = 0 then xtsBlocks f m t0 bs
  else
    let head := xtsBlocks f (m - 1) t0 bs
    let ta := xtsTweak key unit (m - 1)
    let tb := xtsTweak key unit m
    let x := xtsOne f (if swap then tb else ta) ((bs.drop (16 * (m - 1))).take 16)
    let y := xtsOne f (if swap then ta else tb) (bs.drop (16 * m) ++ x.drop r)
    head ++ y ++ x.take r

def xtsEncrypt (key : List Byte) (unit : Nat) (bs : List Byte) : List Byte := xtsWith (aesEncrypt (key.take 32)) false key unit bs
def xtsDecrypt (key : List Byte) (unit : Nat) (bs : List Byte) : List Byte := xtsWith (aesDecrypt (key.take 32)) true key unit bs

-- GCM ------------------------------------------------------------------------------------------------------------------------------

/-- Product in GCM's field; bits from the most significant on. -/
def ghashMul : Nat → Nat → Nat → Nat
  | 0, _, _ => 0
  | n + 1, v, y =>
    (if 2 ^ 127 ≤ y % 2 ^ 128 then v else 0) ^^^ ghashMul n (v / 2 ^^^ (if v % 2 = 1 then 0xE1 * 2 ^ 120 else 0)) (2 * y)

/-- Bytes filled with zeros to whole blocks. -/
def pad16 (bs : List Byte) : List Byte := bs ++ List.replicate ((16 - bs.length % 16) % 16) 0

/-- GHASH of whole blocks. -/
def ghash (h : Nat) : Nat → Nat → List Byte → Nat
  | 0, y, _ => y
  | n + 1, y, bs => ghash h n (ghashMul 128 h (y ^^^ beNat (bs.take 16))) (bs.drop 16)

/-- Counter mode from a counter block on. -/
def gctr (key iv : List Byte) : Nat → Nat → List Byte → List Byte
  | 0, _, _ => []
  | n + 1, c, bs =>
    if bs = [] then [] else xorB (bs.take 16) (aesEncrypt key (iv ++ toBE 4 c)) ++ gctr key iv n (c + 1) (bs.drop 16)

/-- The tag over authenticated data and ciphertext, for a 12-byte IV. -/
def gcmTag (key iv aad c : List Byte) : List Byte :=
  let h := beNat (aesEncrypt key (List.replicate 16 0))
  let bs := pad16 aad ++ pad16 c ++ toBE 8 (8 * aad.length) ++ toBE 8 (8 * c.length)
  xorB (toBE 16 (ghash h (bs.length / 16) 0 bs)) (aesEncrypt key (iv ++ toBE 4 1))

/-- Seal: ciphertext, then its 16-byte tag. -/
def gcmSeal (key iv aad p : List Byte) : List Byte :=
  let c := gctr key iv (p.length + 1) 2 p
  c ++ gcmTag key iv aad c

/-- Open a ciphertext with its tag; `none` where the tag fails. -/
def gcmOpen (key iv aad ct : List Byte) : Option (List Byte) :=
  let c := ct.take (ct.length - 16)
  if gcmTag key iv aad c = ct.drop (ct.length - 16) then some (gctr key iv (c.length + 1) 2 c) else none

-- HMAC and HKDF ----------------------------------------------------------------------------------------------------------------------

/-- HMAC-SHA-384 with a key of at most 128 bytes. -/
def hmac (key m : List Byte) : List Byte :=
  let k := key ++ List.replicate (128 - key.length) 0
  sha384 (k.map (· ^^^ 0x5C) ++ sha384 (k.map (· ^^^ 0x36) ++ m))

/-- HKDF-Expand for at most 48 bytes. -/
def hkdfExpand (prk info : List Byte) (n : Nat) : List Byte := (hmac prk (info ++ [1])).take n

end Sys2Proof.Crypto
end

