-- ==== Sys2Proof/Machine/Windows.lean ====
section
/-!
DEFINITION. Windows that grant rights over address ranges: a stope's program windows (R130), the host's (R278) and the
peers' (R362).
-/

namespace Sys2Proof.Machine

/-- Rights of Table 06-10, by bit. -/
abbrev rtREAD : Nat := 0
abbrev rtWRITE : Nat := 1
abbrev rtATOM : Nat := 2
abbrev rtFLAG : Nat := 3
abbrev rtMCAST : Nat := 4
abbrev rtCTL : Nat := 5

/-- Window `w` of a page whose windows start at `base` (Table 06-10). -/
def pageWindow (s : State) (pg base w : Nat) : Window :=
  let o := base + 16 * w
  { base := (rd64 s pg o).toNat, size := 4096 * (rd s pg (o + 8)).toNat, rights := fld (rd s pg (o + 12)) 5 0 }

/-- Windows 1 to 7 of a page. -/
def pageWindows (s : State) (pg base : Nat) : List Window := (List.range 7).map (fun i => pageWindow s pg base (i + 1))

/-- Window 0 over space 0 and space 1 of die `d`, with `READ`, `WRITE`, `ATOM` and `FLAG`. -/
def spaceWindows (s : State) (d : Nat) : List Window :=
  [⟨nodeBase s + d * 2 ^ 49, 2 ^ 47, 0xF⟩, ⟨nodeBase s + d * 2 ^ 49 + 2 ^ 47, 2 ^ 47, 0xF⟩]

/-- A stope's program windows: window 0 is its own pillar and gallery banks (R130). -/
def stopeWindows (s : State) (n : Nat) : List Window :=
  [⟨pillarAddr s n, bankSize n, 0xF⟩, ⟨galleryAddr s n, bankSize 512, 0xF⟩] ++ pageWindows s (pgStope n) WIN_BASE

/-- The host's windows (R278), and the peers' (R362). -/
def hostWindows (s : State) : List Window := spaceWindows s 0 ++ spaceWindows s 1 ++ pageWindows s pgHost HOST_WIN
def peerWindows (s : State) : List Window := spaceWindows s 0 ++ spaceWindows s 1 ++ pageWindows s pgSecurity PEER_WIN

/-- A launcher without windows of its own reaches everything (log entry 21). -/
def allWindows : List Window := [⟨0, 2 ^ 64, 0x3F⟩]

/-- Every byte of [a, a + len) lies within one window that grants the right; space 2 needs `CTL` as well. -/
def grants (ws : List Window) (a len right : Nat) : Bool :=
  ws.any (fun w => decide (w.base ≤ a) && decide (a + len ≤ w.base + w.size) && bitsOf w.rights right right == 1 &&
    (decide (aSpace a ≠ 2) || bitsOf w.rights rtCTL rtCTL == 1))

end Sys2Proof.Machine
end

