-- ==== Sys2Proof/Machine/Remote.lean ====
section
/-!
DEFINITION. The remote-op layer's shared operations: sending messages, the streams at both ends, accesses at banks
and stacks, completions at the home and at the originator, and the directory (chapter 11, R263, R265).
-/

namespace Sys2Proof.Machine

/-- Node-die ID of die `d`. -/
def nodeDie (s : State) (d : Nat) : Nat := 2 * s.boot.node + d

/-- `a` comes before `b` in sequence numbers modulo 2^32. -/
def seqLt (a b : W32) : Bool := decide (a ≠ b) && decide ((b - a).toNat < 2 ^ 31)

/-- A message comes to rest at die `d`'s remote-op layer. -/
def toInbox (s : State) (d : Nat) (m : Msg) : State :=
  setLayer s d { layer s d with inbox := (layer s d).inbox ++ [⟨m, none, 15⟩] }

/-- Put a frame in die `d`'s router. -/
def queueFrame (s : State) (d : Nat) (q : QFrame) : State :=
  setRouter s d { router s d with queue := (router s d).queue ++ [q] }

/-- Send a message of die `d` to a node-die: within the device, over the bridge while it is up, or through the router
(R246, R247); a frame waits while the bridge retrains, and is lost once it has failed. `del` is what its arrival does. -/
def sendMsg (del : State → Nat → Msg → State) (s : State) (d dest : Nat) (m : Msg) : State :=
  if dest / 2 = s.boot.node ∧ dest % 2 = d then del s d m
  else if dest / 2 = s.boot.node ∧ s.bridge.st = 2 then del s (dest % 2) m
  else if dest / 2 = s.boot.node ∧ s.bridge.st = 3 then s
  else queueFrame s d
    { p := .op m, dest := dest, lane := m.cls.toNat, hopsLeft := 15, fromBridge := false, inPort := none }

/-- `RMOP.SYS_EPOCH` of die `d`. -/
def sysEpoch (s : State) (d : Nat) : W32 := rd s (pgRmop d) SYS_EPOCH

-- streams at the destination (R220 to R223) -------------------------------------------------------------------------

/-- The stream of a message: `group` is 0x8000 + group for an MCPUT. -/
def streamGroup (m : Msg) : Nat := if m.opc = 5 then 0x8000 + bitsOf m.addr.toNat 57 50 else 0

/-- The stream that a message belongs to. -/
def InStream.isOf (x : InStream) (m : Msg) : Bool :=
  decide (x.src = m.src.toNat) && decide (x.kind = m.kind.toNat) && decide (x.agent = m.agent.toNat) &&
  decide (x.cls = m.cls.toNat) && decide (x.group = streamGroup m)

def inStream (s : State) (d : Nat) (m : Msg) : Option InStream := (layer s d).inStreams.find? (fun x => x.isOf m)

/-- Replace or add the stream of a message. -/
def putInStream (s : State) (d : Nat) (m : Msg) (x : InStream) : State :=
  let L := layer s d
  setLayer s d { L with inStreams := x :: L.inStreams.filter (fun y => !y.isOf m) }

/-- The newest of a stream's sequence numbers. -/
def newestSeq (q : W32) (rs : List SeqRec) : W32 := rs.foldl (fun b r => if seqLt b r.seq then r.seq else b) q

/-- Record what is known of a `SEQ`, keeping the last 4,096 sequence numbers (R221). -/
def InStream.record (x : InStream) (q : W32) (st : SeqState) : InStream :=
  let rs := ⟨q, st⟩ :: x.recs.filter (fun r => r.seq ≠ q)
  { x with recs := rs.filter (fun r => decide ((newestSeq q rs - r.seq).toNat < 4096)) }

/-- The stream has taken a newer incarnation than an operation of its that is still under way: its originator has been reset (R223). -/
def staleMsg (s : State) (d : Nat) (m : Msg) : Bool := match inStream s d m with
  | some x => decide (x.incarn ≠ m.incarn)
  | none => false

/-- Record what is known of an operation, unless its stream has been replaced. -/
def recordSeq (s : State) (d : Nat) (m : Msg) (st : SeqState) : State :=
  match inStream s d m with
  | some x => if x.incarn = m.incarn then putInStream s d m (x.record m.seq st) else s
  | none => s

/-- An `ACK` frees the completions below it (R221, R222). -/
def InStream.acknowledge (x : InStream) (ack : W32) : InStream :=
  if seqLt ack x.ackTo then x
  else { x with
    ackTo := ack
    recs := x.recs.map (fun (r : SeqRec) => if seqLt r.seq ack then
      (match r.state with
       | .done _ => { r with state := .acked }
       | _ => r) else r) }

/-- The COMP of an operation (R213, Table 11-1): what the header has no use for is 0. -/
def compOf (s : State) (d : Nat) (m : Msg) (status reason : Nat) (data : List Byte) : Msg :=
  { m with
    opc := 8, sub := BitVec.ofNat 4 status, lenM1 := BitVec.ofNat 13 (data.length - 1), epoch := sysEpoch s d
    tag := 0, reason := BitVec.ofNat 8 reason, bell := 0, ack := 0, incarn := (layer s d).incarn, data := data, entered := false, due := none }

/-- Send a completion to the originator. -/
def sendComp (s : State) (d : Nat) (c : Msg) : State := sendMsg toInbox s d c.src.toNat c

-- multicast combining (R252, R253) ------------------------------------------------------------------------------------

/-- The device's part of a multicast copy: same stream, same `SEQ`. -/
def Combine.isOf (c : Combine) (m : Msg) : Bool :=
  decide (c.msg.src = m.src) && decide (c.msg.kind = m.kind) && decide (c.msg.agent = m.agent) &&
  decide (c.msg.cls = m.cls) && decide (c.msg.seq = m.seq) && decide (c.msg.incarn = m.incarn) && decide (streamGroup c.msg = 0x8000 + bitsOf m.addr.toNat 57 50)

/-- A failing member joins a combined completion: the lowest node-die's status stays, and its reason under FAILED (R11). -/
def Combine.fail (c : Combine) (status reason member count : Nat) : Combine :=
  if c.count = 0 ∨ member < c.member then
    { c with status := status, reason := if status = sFAILED then reason else 0, member := member, count := c.count + count }
  else { c with count := c.count + count }

/-- The combined completion of R253: the lowest failing member in `ADDR` [14:0] and their number in [46:32]. -/
def Combine.comp (s : State) (d : Nat) (c : Combine) : Msg :=
  { compOf s d c.msg c.status c.reason [] with
    addr := BitVec.ofNat 64 ((if c.count = 0 then 0x7FFF else c.member) + 2 ^ 32 * Nat.min 32767 c.count) }

/-- Every part of the combined completion has come, or time is up: it goes on UP, or to the originator at the root. -/
def combineDone (s : State) (d : Nat) (c : Combine) : State :=
  let s1 := setLayer s d { layer s d with combines := (layer s d).combines.map (fun x => if x.id = c.id then { c with sent := true } else x) }
  if c.up = 31 then toInbox s1 (c.msg.src.toNat % 2) (c.comp s d)
  else queueFrame s1 d { p := .op (c.comp s d), dest := 0x10000 + c.up, lane := c.msg.cls.toNat, hopsLeft := 15,
                         fromBridge := false, inPort := none }

/-- Change a combining state; it ends when nothing is awaited. -/
def updCombine (s : State) (d : Nat) (c : Combine) : State :=
  if c.wait = [] ∧ c.own = false then combineDone s d c
  else setLayer s d { layer s d with combines := (layer s d).combines.map (fun x => if x.id = c.id then c else x) }

/-- The own copy has completed at die `e`. -/
def combineOwn (s : State) (e : Nat) (m : Msg) (status reason : Nat) : State :=
  let go (d : Nat) : Option State :=
    match (layer s d).combines.find? (fun c => c.isOf m && c.own) with
    | none => none
    | some c =>
      let c1 := { c with own := false }
      some (updCombine s d (if status = sOK ∨ status = sCOLLIDED then c1 else c1.fail status reason (nodeDie s e) 1))
  ((go 0).orElse (fun _ => go 1)).getD s

/-- The completion of an operation at its home goes to its originator, or into the combined completion; none goes to an earlier incarnation,
which no longer waits (R223). -/
def homeComp (s : State) (d : Nat) (m : Msg) (status reason : Nat) (data : List Byte) : State :=
  let c := compOf s d m status reason data
  let s1 := recordSeq s d m (.done c)
  if m.opc = 5 then combineOwn s1 d m status reason else if staleMsg s d m then s1 else sendComp s1 d c

-- accesses at banks and stacks ------------------------------------------------------------------------------------------

/-- The message comes from a peer: it has come by a link port, whatever its `SRC` says, or names another node (R362). -/
def fromPeer (s : State) (m : Msg) : Bool := m.entered || decide (m.src.toNat / 2 ≠ s.boot.node)

/-- The originator as R148 judges it. -/
def originator (s : State) (m : Msg) : Agent :=
  if fromPeer s m then ⟨0, 0⟩
  else match m.kind.toNat with
    | 0 => ⟨btStope, m.agent.toNat⟩
    | 1 => ⟨btHoist, m.agent.toNat / 4⟩
    | 2 => ⟨btHost, 0⟩
    | 3 => ⟨btHeadframe, m.agent.toNat⟩
    | _ => ⟨btRouter, m.src.toNat % 2⟩

/-- It entered the device from a link port or from the host (R148). -/
def hasEntered (s : State) (m : Msg) : Bool := fromPeer s m || decide (m.kind = 2)

/-- End of the piece of memory that one access covers: a bank, or a 128-byte granule of one stack (Table 08-1). -/
def pieceSize (a : Nat) : Nat :=
  if aSpace a = 0 then 128 else if aOff a < 0x20000000 then 0x200000 else 0x400000

/-- The pieces of [a, a + len), as offset and length. -/
def piecesFrom : Nat → Nat → Nat → Nat → List (Nat × Nat)
  | 0, _, _, _ => []
  | fuel + 1, a, off, len =>
    if len = 0 then []
    else
      let n := Nat.min len (pieceSize a - aOff a % pieceSize a)
      (off, n) :: piecesFrom fuel (a + n) (off + n) (len - n)

def pieces (a len : Nat) : List (Nat × Nat) := piecesFrom (len + 1) a 0 len

/-- Queue an access at port B of its bank (R138, R263). -/
def enqueueBank (s : State) (x : Access) : State :=
  let b := bankOf x.addr
  setBank s b { bank s b with queue := (bank s b).queue ++ [x] }

/-- Sequence of service (R263): the earlier deadline, then the class, then arrival. -/
def servedBefore (x y : Access) : Bool :=
  decide (x.deadline < y.deadline) || (decide (x.deadline = y.deadline) && decide (x.cls < y.cls))

/-- The access that a queue serves next. -/
def edfHead : List Access → Option Access
  | [] => none
  | x :: rest =>
    match edfHead rest with
    | none => some x
    | some y => if servedBefore y x then some y else some x

-- completions at the originator ---------------------------------------------------------------------------------------------

/-- Streams at an originator. -/
def OutStream.isOf (x : OutStream) (o : ROp) : Bool :=
  decide (x.dest = o.dest) && decide (x.kind = o.msg.kind.toNat) && decide (x.agent = o.msg.agent.toNat) &&
  decide (x.cls = o.msg.cls.toNat)

/-- A stream on which nothing has been sent. -/
def OutStream.new (dest kind agent cls : Nat) : OutStream :=
  { dest := dest, kind := kind, agent := agent, cls := cls, next := 0, base := 0, got := [], fired := [], ackDue := none }

def outStream (s : State) (d : Nat) (o : ROp) : OutStream :=
  ((layer s d).outStreams.find? (fun x => x.isOf o)).getD
    (OutStream.new o.dest o.msg.kind.toNat o.msg.agent.toNat o.msg.cls.toNat)

def putOutStream (s : State) (d : Nat) (o : ROp) (x : OutStream) : State :=
  let L := layer s d
  setLayer s d { L with outStreams := x :: L.outStreams.filter (fun y => !y.isOf o) }

/-- Move `base` up over the completions received. -/
def slideBase : Nat → W32 → List W32 → W32 × List W32
  | 0, b, g => (b, g)
  | fuel + 1, b, g => if g.contains b then slideBase fuel (b + 1) (g.filter (fun q => q ≠ b)) else (b, g)

/-- The completion of `q` counts as received (R222). -/
def OutStream.receive (x : OutStream) (q : W32) : OutStream :=
  let r := slideBase (x.got.length + 1) x.base (q :: x.got)
  { x with base := r.1, got := r.2 }

/-- An inner operation of a hoist script has completed: its step takes the outcome and a read's data (R198); a record's write has ended,
whatever its status (R209). -/
def innerDone (s : State) (c op status reason : Nat) (data : List Byte) : State :=
  let ch := channel s c
  match ch.run with
  | none => s
  | some r =>
    setChannel s c { ch with run := some { r with
      inner := r.inner.map (fun (i : Inner) =>
        if i.op = some op then { i with res := some (status, reason), data := if i.isRead then data else i.data } else i)
      recs := r.recs.filter (fun w => w.op ≠ some op) } }

/-- What the completion of a remote operation does at who issued it. -/
def completeOrigin (s : State) (o : ROp) (status reason : Nat) (data : List Byte) : State :=
  match o.origin with
  | .stope st => completeAsync s st o.id (statusWord status reason)
  | .hoist c _ => innerDone s c o.id status reason data
  | .host _ => hostComplete s o.id status reason data
  | .apRead id => aperturePiece s id o.id status data
  | .apWrite id => aperturePiece s id o.id status []
  | .notice => if status = sOK then s else bump s (pgRmop (o.msg.src.toNat % 2)) MC_FAIL 1

/-- An operation of die `d` completes FAILED with reason deadline (Table 13-6). -/
def countDeadline (s : State) (d status reason : Nat) : State :=
  if status = sFAILED ∧ reason = rDeadline then bump s (pgTime d) DL_FAILS 1 else s

/-- Number of bytes an operation concerns. -/
def msgLen (m : Msg) : Nat := m.lenM1.toNat + 1

/-- Take back the accesses of an operation at its home that wait in the queues of banks and stacks. -/
def takeBack (s : State) (d : Nat) (h : HomeOp) : State :=
  let keep (x : Access) : Bool := match x.client with
    | .home e i _ => !(decide (e = d) && decide (i = h.id))
    | _ => true
  (pieces h.msg.addr.toNat (msgLen h.msg)).foldl (fun t p =>
    let a := low50 (h.msg.addr.toNat + p.1)
    if aSpace a = 0 then
      let k := stackOf (aDie a) (aOff a)
      setStack t k { stack t k with queue := (stack t k).queue.filter keep }
    else setBank t (bankOf a) { bank t (bankOf a) with queue := (bank t (bankOf a)).queue.filter keep }) s

/-- Nobody waits any more for what a home performs: what has not begun is taken back, and what has begun is performed to its end (R219). -/
def forgetHomes (s : State) (d : Nat) (p : HomeOp → Bool) : State :=
  let L := layer s d
  let s1 := setLayer s d { L with
    homes := (L.homes.filter (fun h => !(p h && !h.begun))).map (fun h => if p h then { h with for_ := .lost } else h) }
  (L.homes.filter (fun h => p h && !h.begun)).foldl (fun t h => takeBack t d h) s1

/-- Writes held at the directory that satisfy `p` are dropped. -/
def dropHeld (s : State) (d : Nat) (p : HeldWrite → Bool) : State :=
  if (layer s d).dir.any (fun l => l.heldWrites.any p) then
    setLayer s d { layer s d with dir := (layer s d).dir.map (fun l => { l with heldWrites := l.heldWrites.filter (fun w => !p w) }) }
  else s

/-- The accesses of its local buffer that an operation has waiting are taken back. -/
def dropLocal (s0 : State) (d : Nat) (o : ROp) : State :=
  let back (f : HomeFor) : Bool := decide (f = .back o.id)
  let s1 := if (layer s0 d).homes.any (fun h => back h.for_) then forgetHomes s0 d (fun h => back h.for_) else s0
  let s := dropHeld s1 d (fun w => back w.for_)
  let mine (x : Access) : Bool := match x.client with
    | .source e op => decide (e = d) && decide (op = o.id)
    | .writeBack e op => decide (e = d) && decide (op = o.id)
    | _ => false
  let b := bankOf (low50 o.localAddr)
  if (bank s b).queue.any mine then setBank s b { bank s b with queue := (bank s b).queue.filter (fun x => !mine x) } else s

/-- An operation ends at its originator's layer on die `d`. `timer`: its deadline timer fired. -/
def endOp (s0 : State) (d : Nat) (o : ROp) (status reason : Nat) (data : List Byte) (timer : Bool) : State :=
  let s := countDeadline (dropLocal s0 d o) d status reason
  let L := layer s d
  let s1 := setLayer s d { L with ops := L.ops.filter (fun p => p.id ≠ o.id), fills := L.fills.filter (fun f => f.op ≠ o.id) }
  let s2 := match o.phase with
    | .sent =>
      let x := (outStream s1 d o).receive o.msg.seq
      putOutStream s1 d o { x with
        fired := if timer then o.msg.seq :: x.fired else x.fired
        ackDue := if timer then x.ackDue else some (x.ackDue.getD (now s d)) }
    | _ => s1
  completeOrigin s2 o status reason data

/-- The operation with this number at die `d`'s layer. -/
def findOp (s : State) (d op : Nat) : Option ROp := (layer s d).ops.find? (fun o => o.id = op)

/-- Replace an operation. -/
def putOp (s : State) (d : Nat) (o : ROp) : State :=
  setLayer s d { layer s d with ops := (layer s d).ops.map (fun p => if p.id = o.id then o else p) }

-- the home of an ATOM or a FLAG: its word lies in one bank, so it waits only for that bank's atomic unit -------------------

/-- Accesses of an operation performed at its home. -/
def homeAccess (s : State) (d id : Nat) (m : Msg) (kind : AccKind) (off len : Nat) : Access :=
  { id := s.nextOp, kind := kind, addr := low50 (m.addr.toNat + off), len := len
    data := if m.opc = 2 then [] else sliceB m.data off len
    deadline := m.deadline.toNat, cls := m.cls.toNat, by_ := originator s m, entered := hasEntered s m
    client := .home d id off, done := 0, got := [], coll := false, poison := false, denied := false
    passed := none }

/-- Start an operation's state at its home; answers its number. -/
def openHome (s : State) (d : Nat) (m : Msg) (f : HomeFor) (parts : Nat) : State × Nat :=
  let r := freshOp s
  let h : HomeOp := { id := r.2, msg := m, for_ := f, group := streamGroup m, left := parts, begun := false, late := false, coll := false,
                      poison := false, denied := false, reason := 0, data := [] }
  let s1 := if f = .remote then recordSeq r.1 d m (.performing (decide (m.opc = 1))) else r.1
  (setLayer s1 d { layer s1 d with homes := (layer s1 d).homes ++ [h] }, r.2)

/-- Bytes of the target that an atomic reads and writes: CAS acts on 8 (Table 07-9). -/
def atomSpan (sub len : Nat) : Nat := if sub = 5 then 8 else len

/-- Bytes that an operation touches at its target. -/
def touchLen (opc sub len : Nat) : Nat := if opc = 3 then atomSpan sub len else len

/-- `SUB`, size, alignment and place of an atomic keep Table 07-9 and R153. -/
def atomOk (sub a len : Nat) : Bool :=
  decide (aSpace a = 1) && inRange a (atomSpan sub len) && decide (0 < len) && decide (len ≤ 4096) &&
  decide ((pieces a (atomSpan sub len)).length = 1) &&
  (match sub with
   | 0 => decide (len % 4 = 0) && decide (a % 4 = 0)
   | 1 => decide (len % 8 = 0) && decide (a % 8 = 0)
   | 2 => decide (len % 4 = 0) && decide (a % 4 = 0)
   | 3 => decide (len % 2 = 0) && decide (a % 2 = 0)
   | 4 => decide (len % 8 = 0) && decide (a % 8 = 0)
   | 5 => decide (len = 16) && decide (a % 8 = 0)
   | _ => false)

/-- Queue an ATOM or FLAG at its bank. -/
def atomToBank (s : State) (d : Nat) (m : Msg) : State :=
  let a := m.addr.toNat
  let kind : AccKind := if m.opc = 3 then .atomic m.sub.toNat
    else if m.sub = 0 then .flagSet m.bell.toNat else .flagAdd m.bell.toNat
  let r := openHome s d m .remote 1
  let x := homeAccess r.1 d r.2 m kind 0 (if m.opc = 3 then atomSpan m.sub.toNat (msgLen m) else 8)
  enqueueBank (freshOp r.1).1 { x with data := m.data, addr := low50 a }

-- the directory (R231) ----------------------------------------------------------------------------------------------------------

/-- Lines of 256 bytes that a range touches. -/
def linesOf (a len : Nat) : List Nat :=
  (List.range (ceilDiv (low50 a % 256 + len) 256)).map (fun i => low50 a / 256 * 256 + 256 * i)

/-- Sharers whose lease has not ended. -/
def DirLine.live (l : DirLine) (t : Ns) : List Sharer := l.sharers.filter (fun x => decide (t < x.leaseEnd))

/-- The directory's entry for a line. -/
def dirLine (s : State) (d line : Nat) : Option DirLine := (layer s d).dir.find? (fun l => l.line = line)

/-- Replace an entry; one without sharers and held operations goes. -/
def putDir (s : State) (d : Nat) (l : DirLine) : State :=
  let L := layer s d
  let rest := L.dir.filter (fun x => x.line ≠ l.line)
  setLayer s d { L with dir := if l.sharers = [] ∧ l.heldWrites = [] ∧ l.heldGets = [] then rest else rest ++ [l] }

/-- Send a coherence message (R213, R233): one ordered stream in each direction between a cache die and a home die. `src`
is the cache die, `peer` the other end; `kind` 4 home directory, 5 cache; `due` ranks a FILL (R263). -/
def sendCoh (s : State) (d peer src kind opc cls addr deadline tag status reason : Nat) (data : List Byte) (due : Option Nat := none) : State :=
  let L := layer s d
  let key (x : OutStream) : Bool := decide (x.dest = peer) && decide (x.kind = kind) && decide (x.cls = 4)
  let x := (L.outStreams.find? key).getD (OutStream.new peer kind 0 4)
  let s1 := setLayer s d { L with outStreams := { x with next := x.next + 1 } :: L.outStreams.filter (fun y => !key y) }
  sendMsg toInbox s1 d peer
    { opc := BitVec.ofNat 8 opc, sub := BitVec.ofNat 4 status, cls := BitVec.ofNat 2 cls, lenM1 := BitVec.ofNat 13 (data.length - 1)
      seq := x.next, addr := BitVec.ofNat 64 addr, deadline := BitVec.ofNat 64 deadline, src := BitVec.ofNat 15 src
      agent := 0, kind := BitVec.ofNat 4 kind, epoch := sysEpoch s d, gen := BitVec.ofNat 16 (router s d).live.gen
      tag := BitVec.ofNat 16 tag, reason := BitVec.ofNat 8 reason, bell := 0, ack := 0, incarn := L.incarn, data := data, due := due }

/-- Global address of a line of die `d`. -/
def lineAddr (s : State) (line : Nat) : Nat := nodeBase s + line

/-- A tag is in use. -/
def tagUsed (L : RemoteLayer) (t : Ns) (g : Nat) : Bool :=
  L.dir.any (fun l => l.sharers.any (fun x => x.tag == some g)) || L.staleTags.any (fun x => x.1 == g && decide (t < x.2))

/-- A fresh tag from `g` on. -/
def freshTag : Nat → RemoteLayer → Ns → Nat → Nat
  | 0, _, _, g => g % 65536
  | fuel + 1, L, t, g => if tagUsed L t (g % 65536) then freshTag fuel L t (g + 1) else g % 65536

/-- Send INV to a sharer that has none outstanding, and mark it. -/
def sendInv (s : State) (d cls deadline : Nat) (l : DirLine) (x : Sharer) : State × Sharer :=
  match x.tag with
  | some _ => (s, x)
  | none =>
    let L := layer s d
    let g := freshTag (L.staleTags.length + L.dir.length * 4 + 1) L (now s d) L.nextTag
    let s1 := setLayer s d { L with nextTag := (g + 1) % 65536 }
    (bump (sendCoh s1 d x.node x.node 4 0x12 cls (lineAddr s l.line) deadline g 0 0 []) (pgRmop d) INV_SENT 1,
     { x with tag := some g })

/-- A cached FILL of the line for a sharer is being read: its INV must follow the FILL (R233). -/
def filling (L : RemoteLayer) (line node : Nat) : Bool :=
  L.homes.any (fun h => match h.for_ with
    | .fill true _ => decide (h.msg.src.toNat = node) && decide (low50 h.msg.addr.toNat = line)
    | _ => false)

/-- INV to every sharer of a list whose lease has not ended, once its FILL has been sent. -/
def sendInvs (s : State) (d cls deadline : Nat) (l : DirLine) : List Sharer → State × List Sharer
  | [] => (s, [])
  | x :: rest =>
    let r := if now s d < x.leaseEnd ∧ filling (layer s d) l.line x.node = false then sendInv s d cls deadline l x else (s, x)
    let q := sendInvs r.1 d cls deadline l rest
    (q.1, r.2 :: q.2)

/-- Before a write that touches a line: INV to its live sharers; answers whether the write must wait for them. -/
def invLine (s : State) (d cls deadline line : Nat) : State × Bool :=
  match dirLine s d line with
  | none => (s, false)
  | some l =>
    if l.live (now s d) = [] then (s, decide (l.heldWrites ≠ []))
    else
      let r := sendInvs s d cls deadline l l.sharers
      (putDir r.1 d { l with sharers := r.2 }, true)

/-- The first line of a list for which a write must wait, after INV to the sharers of all of them. -/
def invLines (s : State) (d cls deadline : Nat) : List Nat → State × Option Nat
  | [] => (s, none)
  | line :: rest =>
    let r := invLine s d cls deadline line
    let q := invLines r.1 d cls deadline rest
    (q.1, if r.2 then some line else q.2)

/-- Hold a write at a line. -/
def holdWrite (s : State) (d line : Nat) (m : Msg) (f : HomeFor) : State :=
  match dirLine s d line with
  | some l => putDir s d { l with heldWrites := l.heldWrites ++ [⟨m, f⟩] }
  | none => s

-- arrival at the home (R218 to R224, R347) -----------------------------------------------------------------------------------------

/-- The stream of `m` takes a newer incarnation: what its earlier one has waiting here, and not begun, is discarded unperformed and counted
(R223). -/
def dropStale (s : State) (d : Nat) (m : Msg) : State :=
  let old (x : Msg) : Bool := decide (x.src = m.src) && decide (x.kind = m.kind) && decide (x.agent = m.agent) && decide (x.cls = m.cls) &&
    decide (streamGroup x = streamGroup m) && decide (x.incarn ≠ m.incarn)
  let oldWrite (w : HeldWrite) : Bool := decide (w.for_ = .remote) && old w.m
  let L := layer s d
  let gone := L.homes.filter (fun h => decide (h.for_ = .remote) && !h.begun && old h.msg)
  let n := (L.heldPuts.filter old).length + (L.dir.map (fun l => (l.heldWrites.filter oldWrite).length)).sum + gone.length
  let dir := (L.dir.map (fun l => { l with heldWrites := l.heldWrites.filter (fun w => !oldWrite w) })).filter (fun l =>
    !(decide (l.sharers = []) && decide (l.heldWrites = []) && decide (l.heldGets = [])))
  let s1 := setLayer s d { L with heldPuts := L.heldPuts.filter (fun x => !old x), dir := dir
                                  homes := L.homes.filter (fun h => !gone.any (fun g => g.id = h.id)) }
  bump (gone.foldl (fun t h => takeBack t d h) s1) (pgRmop d) STALE_DISCARD n

/-- Judge the stream of an arriving operation: incarnation, base and window (R221, R223), and take its `ACK`. Answers
whether it goes on to be performed. -/
def judgeStream (s : State) (d : Nat) (m : Msg) : State × Bool :=
  let new (base : W32) : InStream :=
    { src := m.src.toNat, kind := m.kind.toNat, agent := m.agent.toNat, cls := m.cls.toNat, group := streamGroup m,
      incarn := m.incarn, base := base, ackTo := m.ack, recs := [] }
  match inStream s d m with
  | none => (putInStream s d m (new m.seq), true)
  | some x =>
    if x.incarn ≠ m.incarn then
      if seqLt x.incarn m.incarn then (putInStream (dropStale s d m) d m (new 0), true)
      else (bump s (pgRmop d) STALE_DISCARD 1, false)
    else
      let x1 := x.acknowledge m.ack
      let s1 := putInStream s d m x1
      match x1.recs.find? (fun r => r.seq = m.seq) with
      | some ⟨_, .done c⟩ =>
        (if m.opc = 5 then combineOwn (bump s1 (pgRmop d) DUP_DISCARD 1) d m c.sub.toNat c.reason.toNat
         else sendComp (bump s1 (pgRmop d) DUP_DISCARD 1) d c, false)
      | some ⟨_, .performing _⟩ => (bump s1 (pgRmop d) DUP_DISCARD 1, false)
      | some ⟨_, .acked⟩ => (bump s1 (pgRmop d) DUP_DISCARD 1, false)
      | some ⟨_, .dropped⟩ => (s1, true)
      | none =>
        if seqLt m.seq x1.base ∧ (x1.base - m.seq).toNat ≤ 4096 then
          (if m.opc = 5 then combineOwn s1 d m sFAILED rWithdrawn else sendComp s1 d (compOf s1 d m sFAILED rWithdrawn []), false)
        else
          (if (m.seq - x1.base).toNat > 8192 ∧ seqLt x1.base m.seq then putInStream s1 d m { x1 with base := m.seq - 8192 }
           else s1, true)

/-- The right that a message needs at its home (R362): an MCPUT copy writes. -/
def rightOf (m : Msg) : Nat :=
  match m.opc.toNat with
  | 2 => rtREAD
  | 3 => rtATOM
  | 4 => rtFLAG
  | _ => rtWRITE

/-- Address of an operation at its home: an MCPUT's `ADDR` [49:0] on this device (R215). -/
def homeAddr (s : State) (m : Msg) : Nat := if m.opc = 5 then nodeBase s + low50 m.addr.toNat else m.addr.toNat

/-- Bytes of its target that an arriving operation touches. -/
def msgTouch (m : Msg) : Nat := touchLen m.opc.toNat m.sub.toNat (msgLen m)

/-- How a drain answers an operation of a peer that it does not perform: any once the window has ended, FAILED drained; until then all but a GET
whose every byte lies in a copy-out region, REFUSED (R347, R348). -/
def drainAnswer (s : State) (d : Nat) (m : Msg) : Option (Nat × Nat) :=
  if draining s d = false ∨ fromPeer s m = false then none
  else if (service s d).drained then some (sFAILED, rDrained)
  else if m.opc = 2 ∧ inCopyOut s m.addr.toNat (msgLen m) = true then none
  else some (sREFUSED, 0)

/-- Epoch, deadline, drain, address and peers' rights of an arriving operation (R218, R224, R347, R348, R26, R362): answers
whether it is performed. -/
def judgeOp (s : State) (d : Nat) (m : Msg) : State × Bool :=
  if m.epoch ≠ sysEpoch s d then
    (homeComp (bump s (pgRmop d) EPOCH_REJ 1) d m sEPOCH 0 [], false)
  else if m.deadline.toNat ≤ now s d then (recordSeq s d m .dropped, false)
  else match drainAnswer s d m with
    | some a => (homeComp s d m a.1 a.2 [], false)
    | none =>
      if !inRange m.addr.toNat (msgTouch m) ∨ fromPeer s m && !grants (peerWindows s) (homeAddr s m) (msgTouch m) (rightOf m) then
        (homeComp s d m sDENIED 0 [], false)
      else (s, true)

/-- An ATOM or FLAG arrives at its home: it is judged and goes to its bank, after the directory's invalidations. -/
def arriveAtomic (s : State) (d : Nat) (m : Msg) : State :=
  let r := judgeStream s d m
  if !r.2 then r.1
  else
    let q := judgeOp r.1 d m
    if !q.2 then q.1
    else if m.opc = 3 ∧ !atomOk m.sub.toNat m.addr.toNat (msgLen m) ∨
        m.opc = 4 ∧ (aSpace m.addr.toNat ≠ 1 ∨ m.addr.toNat % 8 ≠ 0) then homeComp q.1 d m sDENIED 0 []
    else
      let h := invLines q.1 d m.cls.toNat m.deadline.toNat (linesOf m.addr.toNat (msgTouch m))
      match h.2 with
      | some line => recordSeq (holdWrite h.1 d line m .remote) d m (.performing false)
      | none => atomToBank h.1 d m

/-- A message arrives within the device: an ATOM or FLAG at its home's bank, any other at the remote-op layer. -/
def deliver (s : State) (d : Nat) (m : Msg) : State :=
  if m.opc = 3 ∨ m.opc = 4 then arriveAtomic s d m else toInbox s d m

-- sending (R217, R220, R252) ---------------------------------------------------------------------------------------------------------

/-- Set bits of a number below `n`, upward. -/
def bitList (n v : Nat) : List Nat := (List.range n).filter (fun i => bitsOf v i i == 1)

/-- A multicast copy goes on every DOWN port of the entry, and to the own member; its combining state is kept at die `d`. A
DOWN port that is not up counts as a failing member (R253). -/
def multicast (s : State) (d : Nat) (m : Msg) (up hopsLeft : Nat) : State × Bool :=
  let e := Sparse.get 0 (copyOf s d m.gen.toNat).mc (bitsOf m.addr.toNat 57 50)
  let down := bitList 24 (fld e 23 0)
  let live := down.filter (fun p => (port s p).st == 5 || ((port s p).st == 4 && m.cls == 3))
  let own := decide (fld e 29 29 = 1)
  let L := layer s d
  let s1 := if L.combines.any (fun c => c.isOf m && !c.sent) then s
    else
      let c : Combine := { id := s.nextOp, msg := m, up := up, depth := if up = 31 then 0 else fld e 35 32, down := live, wait := live, own := own
                           status := 0, reason := 0, member := 0, count := 0, sent := false }
      let c1 := (down.filter (fun p => !live.contains p)).foldl (fun (c : Combine) p =>
        c.fail sFAILED rUnreachable (fld (rd s (pgPort p) PEER) 14 0) 1) c
      let old := L.combines.filter (fun c => !c.sent || (!c.isOf m && decide (now s d < c.msg.deadline.toNat)))
      setLayer (freshOp s).1 d { L with combines := old ++ [c1] }
  (live.foldl (fun t p => queueFrame t d
    { p := .op m, dest := 0x10000 + p, lane := m.cls.toNat, hopsLeft := hopsLeft, fromBridge := false, inPort := none }) s1, own)

/-- The combining state of a copy with nothing to wait for ends at once. -/
def combineIfDone (s : State) (d : Nat) (m : Msg) : State :=
  match (layer s d).combines.find? (fun c => c.isOf m && !c.sent) with
  | some c => updCombine s d c
  | none => s

/-- Copies whose combining state one router holds (R252). -/
def combineMax : Nat := 8192

/-- A copy finds combining state: its own, or room for it. -/
def combineRoom (s : State) (d : Nat) (m : Msg) : Bool :=
  let live := (layer s d).combines.filter (fun c => !c.sent)
  decide (live.length < combineMax) || live.any (fun c => c.isOf m)

/-- Send the message of an operation: an MCPUT starts at the root, and where it finds no combining state it waits there for its next
transmission (R252). -/
def transmit (s : State) (d : Nat) (o : ROp) (m : Msg) : State :=
  if m.opc = 5 then
    if !combineRoom s d m then s
    else
    let r := multicast s d m 31 15
    if r.2 then sendMsg toInbox r.1 d (2 * s.boot.node + aDie m.addr.toNat) m else combineIfDone r.1 d m
  else sendMsg deliver s d o.dest m

/-- Number an operation and send it; one that must cross a failed bridge fails (R163). -/
def sendOp (s : State) (d : Nat) (o : ROp) : State :=
  if o.crosses ∧ s.bridge.st = 3 then endOp s d { o with phase := .ready } sFAILED rSplit [] false
  else
    let x := outStream s d o
    let m := { o.msg with seq := x.next, epoch := sysEpoch s d, ack := x.base, incarn := (layer s d).incarn
                          src := BitVec.ofNat 15 (nodeDie s d) }
    let o1 := { o with msg := m, phase := .sent, sentAt := now s d }
    let s1 := putOutStream (putOp s d o1) d o1 { x with next := x.next + 1, ackDue := none }
    transmit s1 d o1 m

/-- Two operations of one stream. -/
def sameStream (o p : ROp) : Bool :=
  decide (o.dest = p.dest) && decide (o.msg.kind = p.msg.kind) && decide (o.msg.agent = p.msg.agent) &&
  decide (o.msg.cls = p.msg.cls)

/-- The first operation that is ready and that no earlier unsent operation of its stream precedes (R220). -/
def nextReady : List ROp → List ROp → Option ROp
  | _, [] => none
  | early, o :: rest =>
    match o.phase with
    | .ready => if early.any (sameStream o) then nextReady (o :: early) rest else some o
    | .prep => nextReady (o :: early) rest
    | _ => nextReady early rest

/-- Send what is ready; `fuel` bounds the sends. -/
def flushN : Nat → State → Nat → State
  | 0, s, _ => s
  | fuel + 1, s, d =>
    match nextReady [] (layer s d).ops with
    | none => s
    | some o => flushN fuel (sendOp s d o) d

def flush (s : State) (d : Nat) : State := flushN (layer s d).ops.length s d

/-- An operation ends, and what it held back is sent. -/
def finishOp (s : State) (d : Nat) (o : ROp) (status reason : Nat) (data : List Byte) (timer : Bool) : State :=
  flush (endOp s d o status reason data timer) d

end Sys2Proof.Machine
end

