-- ==== Sys2Proof/Machine/Wire.lean ====
section
/-!
DEFINITION. Bytes on a link: the message header of Table 11-1, the frame of R237 with Table 12-1, and link encryption (R360).
-/

namespace Sys2Proof.Machine

-- messages ------------------------------------------------------------------------------------------------------------

/-- The 48-byte header of Table 11-1. -/
def msgHeader (m : Msg) : List Byte :=
  toLE 4 (m.opc.toNat + 2 ^ 8 * m.sub.toNat + 2 ^ 12 * m.cls.toNat + 2 ^ 16 * m.lenM1.toNat) ++ toLE 4 m.seq.toNat ++
  toLE 8 m.addr.toNat ++ toLE 8 m.deadline.toNat ++ toLE 4 (m.src.toNat + 2 ^ 16 * m.agent.toNat + 2 ^ 28 * m.kind.toNat) ++
  toLE 4 m.epoch.toNat ++ toLE 4 (m.gen.toNat + 2 ^ 16 * m.tag.toNat) ++ toLE 4 (m.reason.toNat + 2 ^ 8 * m.bell.toNat) ++
  toLE 4 m.ack.toNat ++ toLE 4 m.incarn.toNat

/-- A message with its data. -/
def msgBytes (m : Msg) : List Byte := msgHeader m ++ m.data

/-- Message types of Table 11-2. -/
def opcKnown (o : Nat) : Bool := [1, 2, 3, 4, 5, 8, 9, 0x10, 0x11, 0x12, 0x13, 0x14, 0x15].contains o

/-- Types that carry data: a COMP may. -/
def opcData (o : Nat) : Bool := [1, 3, 4, 5, 8, 0x11].contains o

/-- `SUB` and `REASON` of a completion or a FILL hold a status of Table 00-5 and, under FAILED, a reason of Table 00-6: a reserved encoding makes
the message malformed (R8, R11, R213; log entry 137). -/
def answerOk (h : List Byte) : Bool :=
  let st := bitsOf (leAt h 0 4) 11 8
  let rs := leAt h 0x24 1
  (decide (leAt h 0 1 ≠ 8) && decide (leAt h 0 1 ≠ 0x11)) || (decide (st < 8) && (decide (st ≠ sFAILED) || (decide (rs ≠ 0) && decide (rs < 8))))

/-- A message whose header begins with the word `w` brings data: a completion or a FILL only under OK. -/
def bringsData (w : Nat) : Bool := opcData (w % 256) && ((decide (w % 256 ≠ 8) && decide (w % 256 ≠ 0x11)) || decide (bitsOf w 11 8 = 0))

/-- The reserved fields of a header are 0 and its type, kind, status and reason are known (R213). -/
def headerOk (h : List Byte) : Bool := answerOk h &&
  opcKnown (leAt h 0 1) && decide (bitsOf (leAt h 0 4) 15 14 = 0) && decide (bitsOf (leAt h 0 4) 31 29 = 0) &&
  decide (bitsOf (leAt h 0x18 4) 15 15 = 0) && decide (bitsOf (leAt h 0x18 4) 31 28 < 6) && decide (bitsOf (leAt h 0x24 4) 31 13 = 0)

/-- The message that a frame body spells, as one that has come by a link; bytes past it are padding. `none` where it is malformed. -/
def parseMsg (bs : List Byte) : Option Msg :=
  let w0 := leAt bs 0 4
  let w6 := leAt bs 0x18 4
  let len := bitsOf w0 28 16 + 1
  if bs.length < 48 ∨ headerOk bs = false then none
  else some {
    opc := BitVec.ofNat 8 w0, sub := BitVec.ofNat 4 (bitsOf w0 11 8), cls := BitVec.ofNat 2 (bitsOf w0 13 12)
    lenM1 := BitVec.ofNat 13 (len - 1), seq := BitVec.ofNat 32 (leAt bs 4 4), addr := BitVec.ofNat 64 (leAt bs 8 8)
    deadline := BitVec.ofNat 64 (leAt bs 0x10 8), src := BitVec.ofNat 15 w6, agent := BitVec.ofNat 12 (bitsOf w6 27 16)
    kind := BitVec.ofNat 4 (bitsOf w6 31 28), epoch := BitVec.ofNat 32 (leAt bs 0x1C 4), gen := BitVec.ofNat 16 (leAt bs 0x20 2)
    tag := BitVec.ofNat 16 (leAt bs 0x22 2), reason := BitVec.ofNat 8 (leAt bs 0x24 1), bell := BitVec.ofNat 5 (leAt bs 0x25 1)
    ack := BitVec.ofNat 32 (leAt bs 0x28 4), incarn := BitVec.ofNat 32 (leAt bs 0x2C 4)
    data := if bringsData w0 && decide (48 + len ≤ bs.length) then sliceB bs 48 len else [], entered := true }

/-- The message that a route notice spells: the header of the failed message, with a reason of Table 00-6 (R248). -/
def parseNotice (bs : List Byte) : Option Msg :=
  (parseMsg (sliceB bs 0 48)).filter (fun m => decide (m.reason ≠ 0) && decide (m.reason.toNat < 8))

/-- Node-die to which a message travels: a completion or a message to a cache goes to `SRC`, every other to its address. -/
def msgDest (m : Msg) : Nat := if m.opc = 8 ∨ m.opc = 0x11 ∨ m.opc = 0x12 then m.src.toNat else aNodeDie m.addr.toNat

-- frames (R237) ------------------------------------------------------------------------------------------------------------

/-- `FTYPE` of a payload, and its body in clear. -/
def Payload.ftype : Payload → Nat
  | .op _ => 0
  | .idle => 1
  | .agree _ => 2
  | .time _ => 3
  | .notice _ => 4
  | .safeIdle _ => 5
  | .attest _ => 6

def Payload.body : Payload → List Byte
  | .op m => msgBytes m
  | .notice m => msgHeader m
  | .agree b => b
  | .time b => b
  | .safeIdle b => b
  | .attest b => b
  | .idle => []

/-- Length of a frame: the counter and tag of link encryption count (R237, R360). -/
def frameBytes (body : Nat) (crypt : Bool) : Nat := 16 * ceilDiv (20 + body + (if crypt then 24 else 0)) 16

/-- Length of a payload's frame on a port. -/
def frameLen (x : Port) (p : Payload) : Nat := frameBytes p.body.length (x.keys.isSome && decide (p.ftype = 0))

/-- A received frame's header, with its body and padding. -/
structure RxFrame where
  lseq : Nat
  lane : Nat
  lack : Nat
  nak : Bool
  ftype : Nat
  hopsLeft : Nat
  crUnits : Nat
  crLane : Nat
  bytes : Nat
  body : List Byte
deriving DecidableEq, Repr

/-- The first twelve bytes of a link header. -/
def linkHead (f : RxFrame) : List Byte :=
  toLE 12 (f.lseq + 2 ^ 12 * f.lane + 2 ^ 16 * f.lack + (if f.nak then 2 ^ 28 else 0) +
    2 ^ 32 * (f.ftype + 2 ^ 8 * f.hopsLeft + 2 ^ 12 * f.crUnits + 2 ^ 28 * f.crLane) + 2 ^ 64 * (f.bytes / 16))

/-- Body bytes that `HCRC` covers. -/
def hcrcSpan (ftype : Nat) (body : List Byte) : Nat :=
  match ftype with
  | 1 => 0
  | 3 => 32
  | 5 => 8
  | 6 => Nat.min 48 (8 + Nat.min 1024 (leAt body 4 2 - leAt body 2 2))
  | _ => 48

/-- The sixteen bytes of a link header before a body: `HCRC` follows the first twelve (Table 12-1). -/
def fullHead (f : RxFrame) (body : List Byte) : List Byte :=
  let h := linkHead f
  h ++ toLE 4 (crc16 (h ++ body.take (hcrcSpan f.ftype body)))

/-- The bytes of a frame: header, body, padding and CRC-32C. -/
def encodeFrame (f : RxFrame) : List Byte :=
  let pre := fullHead f f.body ++ f.body
  let whole := pre ++ List.replicate (f.bytes - 4 - pre.length) 0
  whole ++ toLE 4 (crc32c whole).toNat

/-- A copy that has begun before its frame's CRC failed: it ends with the inverse of the CRC of what was sent (R240). -/
def stompFrame (f : RxFrame) : List Byte :=
  let bs := encodeFrame f
  bs.take (bs.length - 4) ++ toLE 4 (0xFFFFFFFF - leAt bs (bs.length - 4) 4)

/-- How a received frame checks (R239, R240): `broken` has a good `HCRC` and a bad CRC. -/
inductive Checked where
  | good (f : RxFrame)
  | stomped
  | broken (f : RxFrame)
  | bad
deriving DecidableEq, Repr

/-- Check a frame: lengths, reserved fields, `HCRC` and CRC. A CRC equal to the inverse of the computed one is a stomp. -/
def checkFrame (bs : List Byte) : Checked :=
  let v := leAt bs 0 12
  let n := bs.length
  let body := (bs.drop 16).take (n - 20)
  let f : RxFrame :=
    { lseq := bitsOf v 11 0, lane := bitsOf v 14 12, lack := bitsOf v 27 16, nak := bitsOf v 28 28 == 1, ftype := bitsOf v 39 32
      hopsLeft := bitsOf v 43 40, crUnits := bitsOf v 59 44, crLane := bitsOf v 62 60, bytes := 16 * bitsOf v 79 64, body := body }
  if n < 32 ∨ f.bytes ≠ n ∨ n > 4192 ∨ leAt bs 12 2 ≠ crc16 (bs.take 12 ++ body.take (hcrcSpan f.ftype body)) then .bad
  else
    let c := (crc32c (bs.take (n - 4))).toNat
    if leAt bs (n - 4) 4 = 0xFFFFFFFF - c then .stomped
    else if f.lane < 5 ∧ f.ftype < 7 ∧ f.crLane < 5 ∧ linkHead f = bs.take 12 ∧ leAt bs 14 2 = 0 then
      (if leAt bs (n - 4) 4 = c then .good f else .broken f)
    else .bad

-- link encryption (R360) -----------------------------------------------------------------------------------------------------------

/-- The encrypted body of an operation frame: counter, ciphertext, tag. The tag covers the whole link header, whose `HCRC` is that of the
counter and the ciphertext. -/
def sealBody (k : LinkKeys) (count : Nat) (f : RxFrame) : List Byte :=
  let c := toLE 8 count
  let ct := Crypto.gctr k.txKey (k.txSalt ++ c) (f.body.length + 1) 2 f.body
  c ++ ct ++ Crypto.gcmTag k.txKey (k.txSalt ++ c) (fullHead f (c ++ ct)) ct

/-- The frame as a port sends it: an operation frame is encrypted where the port has a session (R360). -/
def Port.seals (x : Port) (ftype : Nat) : Bool := x.keys.isSome && decide (ftype = 0)
def Port.sealFrame (x : Port) (f : RxFrame) : RxFrame := match x.keys with
  | some k => if f.ftype = 0 then { f with body := sealBody k x.cryptCount f } else f
  | none => f

/-- The word that the decrypted header begins with, and the length of the message that it names. -/
def sealedWord (k : LinkKeys) (body : List Byte) : Nat :=
  leAt (Crypto.gctr k.rxKey (k.rxSalt ++ body.take 8) 1 2 ((body.drop 8).take 16)) 0 4
def sealedLen (w : Nat) : Nat := 48 + (if bringsData w then bitsOf w 28 16 + 1 else 0)

/-- What an encrypted body, padding included, decrypts to, before its tag has been checked. -/
def plainBody (k : LinkKeys) (body : List Byte) : List Byte :=
  let n := sealedLen (sealedWord k body)
  Crypto.gctr k.rxKey (k.rxSalt ++ body.take 8) (n + 1) 2 ((body.drop 8).take n)

/-- Open an encrypted body, padding included: its length is that of the message, as the decrypted header gives it; an OK completion may bring no
data. -/
def openBody (k : LinkKeys) (f : RxFrame) : Option (List Byte) :=
  let iv := k.rxSalt ++ f.body.take 8
  let head := fullHead f f.body
  let ct := f.body.drop 8
  let w := sealedWord k f.body
  let n := sealedLen w
  if ct.length < 64 then none
  else ((Crypto.gcmOpen k.rxKey iv head (ct.take (n + 16))).filter (fun _ => decide (n + 16 ≤ ct.length))).orElse
    (fun _ => if w % 256 = 8 then Crypto.gcmOpen k.rxKey iv head (ct.take 64) else none)

end Sys2Proof.Machine
end

