-- ==== Sys2Proof/Machine/Sending.lean ====
section
/-!
DEFINITION. What a port sends next, and the way that a router's frame takes (R236 to R239, R243, R247, R248, R250, R262, R263).
-/

namespace Sys2Proof.Machine

-- a port's state -----------------------------------------------------------------------------------------------------------

/-- The die of port `p`. -/
def portDie (p : Nat) : Nat := p / 12

/-- The port's domain has power. -/
def portOn (s : State) (p : Nat) : Bool := decide (2 ≤ domain s (domPort p))

/-- The port waits for its peer's agree frame, idle frames running (Table 12-2). -/
def Port.agreeing (x : Port) : Bool := match x.training with
  | .agree _ => true
  | _ => false

/-- Frames run on the port: it is up, in time wait or quarantined, or waits for the agree frame, and no retrain is under way. -/
def Port.active (x : Port) : Bool :=
  (decide (3 ≤ x.st ∧ x.st ≤ 5) || (decide (x.st = 2) && x.agreeing)) && decide (x.training ≠ .fast)

/-- The port sends and takes frames: it has power and its die is not in the safe state (R245). -/
def linkRuns (s : State) (p : Nat) : Bool := portOn s p && (port s p).active && !isSafe s (portDie p)

/-- A state carries a lane's operations (R243, R244). -/
def carries (st lane : Nat) : Bool := decide (st = 5) || (decide (st = 4) && decide (3 ≤ lane))

/-- A state carries a payload: quarantine and training only agree, time and attestation frames (R244). -/
def carriesP (st lane : Nat) (p : Payload) : Bool := match p with
  | .op _ => carries st lane
  | .notice _ => decide (4 ≤ st)
  | _ => true

/-- Number `i` of a list of lane counts, and that list with another one there. -/
def lane (l : List Nat) (i : Nat) : Nat := l.getD i 0

/-- Bytes of a lane freed in the receive buffer. -/
def freed (s : State) (p ln n : Nat) : State :=
  let x := port s p
  setPort s p { x with owed := x.owed.set ln (lane x.owed ln + n) }

-- sending ----------------------------------------------------------------------------------------------------------------------

/-- The lane whose freed bytes an outgoing frame returns: the first that has a whole 64-byte unit. -/
def creditLane (x : Port) : Nat := ((List.range 5).find? (fun i => decide (64 ≤ lane x.owed i))).getD 0

/-- Send a frame with the port's `LACK` and credit. -/
def emitFrame (s : State) (p seq ln hops : Nat) (pl : Payload) (nak : Bool) : State :=
  let x := port s p
  let cl := creditLane x
  let cu := Nat.min 65535 (lane x.owed cl / 64)
  let f : RxFrame :=
    { lseq := seq, lane := ln, lack := (x.rxNext + 4095) % 4096, nak := nak, ftype := pl.ftype, hopsLeft := hops, crUnits := cu, crLane := cl
      bytes := frameLen x pl, body := pl.body }
  emit (setPort s p { x with
    owed := x.owed.set cl (lane x.owed cl - 64 * cu), sentAt := elapsed s
    cryptCount := if x.seals pl.ftype then x.cryptCount + 1 else x.cryptCount }) (.frame p (encodeFrame (x.sealFrame f)))

/-- Send an idle frame; it does not advance `LSEQ`. -/
def emitIdle (s : State) (p : Nat) (nak : Bool) : State := emitFrame s p (port s p).txNext 4 0 .idle nak

/-- Queue a frame of the port's own for lane 4. -/
def queueOwn (s : State) (p : Nat) (pl : Payload) : State :=
  let x := port s p
  setPort s p { x with queue := x.queue ++ [⟨0, 4, 0, pl, frameLen x pl, false, none⟩] }

/-- Deadline of a payload, where it has one: an ACK and an uncached FILL carry none (log entries 12 and 62). -/
def Payload.deadline : Payload → Option Nat
  | .op m => if m.deadline = 0 ∧ (m.opc = 9 ∨ m.opc = 0x11) then none else some m.deadline.toNat
  | _ => none

/-- The deadline by which a payload is ranked: that of the operation which a FILL serves, or its own; without one it comes last (R263). -/
def Payload.rank : Payload → Nat
  | .op m => (m.due.orElse (fun _ => (Payload.op m).deadline)).getD (2 ^ 64)
  | _ => 2 ^ 64

/-- A queued frame's deadline has passed (R248). -/
def LFrame.late (f : LFrame) (t : Ns) : Bool := match f.p.deadline with
  | some dl => decide (dl ≤ t)
  | none => false

/-- Count a frame dropped for its deadline at the port by which it came. -/
def countLate (s : State) (inPort : Option Nat) : State := match inPort with
  | some p => bump s (pgPort p) LATE_DROP 1
  | none => s

/-- `a` is served before `b`: lane 4 first, then the earlier deadline, then the class (R238, R263). -/
def LFrame.before (a b : LFrame) : Bool :=
  let da := a.p.rank
  let db := b.p.rank
  if a.lane = 4 then decide (b.lane ≠ 4)
  else decide (b.lane ≠ 4) && (decide (da < db) || (decide (da = db) && decide (a.lane < b.lane)))

/-- The frame of a list that is served first. -/
def firstFrame : List LFrame → Option LFrame
  | [] => none
  | f :: rest => match firstFrame rest with
    | none => some f
    | some g => if g.before f then some g else some f

/-- Bytes that a port holds for replay, and the limits of R239. -/
def heldBytes (x : Port) : Nat := (x.held.map (fun f => f.bytes)).foldl (· + ·) 0
def holdRoom (x : Port) (n : Nat) : Bool := decide (x.held.length < 2048) && decide (heldBytes x + n ≤ 524288)

/-- Late frames leave a port's queue. -/
def dropLate (s : State) (p : Nat) : State :=
  let x := port s p
  let t := now s (portDie p)
  let s1 := setPort s p { x with queue := x.queue.filter (fun f => !f.late t) }
  (x.queue.filter (fun f => f.late t)).foldl (fun u f => countLate u f.inPort) s1

/-- A body of Table 13-4, and the time frame that port `p` sends now: it is stamped as it leaves (R267). -/
def timeBody (tx echoTx echoRx dist : Nat) (doubt : Bool) : List Byte :=
  toLE 8 tx ++ toLE 8 echoTx ++ toLE 8 echoRx ++ toLE 4 (dist + (if doubt then 16 else 0)) ++ toLE 4 0
def stampTime (s : State) (p : Nat) : List Byte :=
  let t := timeBlk s (portDie p)
  timeBody t.now (port s p).peerTx (port s p).peerRx t.dist (decide (t.st ≠ 1))

/-- The frame that a lane's queue serves first, of those that the port's state carries (R238, R243, R244). -/
def laneHead (x : Port) (ln : Nat) : Option LFrame := firstFrame (x.queue.filter (fun f => decide (f.lane = ln) && carriesP x.st ln f.p))

/-- A frame may leave: its lane's credit and the limits of R239 take it, and one of lane 4 waits until those before it fit into 1 % of the port,
1 byte each ns (R238; log entry 124). -/
def mayLeave (x : Port) (t : Ns) (f : LFrame) : Bool :=
  decide (f.bytes ≤ lane x.credit f.lane) && holdRoom x f.bytes && (decide (f.lane ≠ 4) || decide (x.lane4At ≤ t))

/-- A queued frame leaves: it is numbered, and held until `LACK` covers it. -/
def sendFrame (s : State) (p : Nat) (f : LFrame) : State :=
  let x := port s p
  let t := now s (portDie p)
  let u := elapsed s
  let isTime := decide (f.p.ftype = 3)
  let g := { f with lseq := x.txNext, sent := true, p := if isTime then .time (stampTime s p) else f.p }
  emitFrame (setPort s p { x with
    queue := x.queue.eraseP (fun h => h == f), held := x.held ++ [g], txNext := (x.txNext + 1) % 4096
    credit := x.credit.set f.lane (lane x.credit f.lane - f.bytes), progressAt := if x.held = [] then u else x.progressAt
    lane4At := if f.lane = 4 then Nat.max x.lane4At u + f.bytes else x.lane4At, lastTx := if isTime then t else x.lastTx })
    p g.lseq g.lane g.hopsLeft g.p false

/-- The next frame of a port: one under replay that the port's state carries, or else the first of its lanes' first frames that may leave (R238,
R239, R243, R262, R263). -/
def transmitNext (s : State) (p : Nat) : State :=
  let s1 := dropLate s p
  let x := port s1 p
  match x.held.find? (fun f => !f.sent && carriesP x.st f.lane f.p) with
  | some f =>
    let s2 := setPort s1 p { x with held := x.held.map (fun g => if g.lseq = f.lseq then { g with sent := true } else g) }
    emitFrame s2 p f.lseq f.lane f.hopsLeft f.p false
  | none =>
    match firstFrame (((List.range 5).filterMap (laneHead x)).filter (mayLeave x (elapsed s1))) with
    | none => s1
    | some f => sendFrame s1 p f

-- choosing a way (R247, R250) -------------------------------------------------------------------------------------------------

/-- What the router does with a queued frame now. -/
inductive Way where
  /-- its own remote-op layer, or the other die's over the bridge -/
  | here
  | across
  | out (p : Nat)
  /-- to the other die's router, to leave by a port there -/
  | bridge
  | wait
  /-- no candidate: the reason of the notice -/
  | none (reason : Nat)
  | hops
  /-- a copy whose port has gone -/
  | lost
deriving DecidableEq, Repr

/-- Free credit of a port's lane, beyond the frames that already wait for it. -/
def freeCredit (x : Port) (ln : Nat) : Nat :=
  lane x.credit ln - ((x.queue.filter (fun f => f.lane = ln)).map (fun f => f.bytes)).foldl (· + ·) 0

/-- The port takes a lane's frames, and has credit for this one. -/
def portTakes (s : State) (p : Nat) (q : QFrame) : Bool :=
  linkRuns s p && decide (domain s (domPort p) = 2) && carriesP (port s p).st q.lane q.p
def portHolds (s : State) (p : Nat) (q : QFrame) : Bool :=
  portTakes s p q && decide (frameLen (port s p) q.p ≤ freeCredit (port s p) q.lane)

/-- The port is training still. -/
def portTrains (s : State) (p : Nat) : Bool := portOn s p && (decide ((port s p).st = 2) || decide ((port s p).training = .fast))

/-- The ports of a mask on die `d`, ascending. -/
def maskPorts (d mask : Nat) : List Nat := (bitList 12 mask).map (fun i => 12 * d + i)

/-- Of two ports, the one with more free credit; the first on a tie. -/
def moreCredit (s : State) (ln : Nat) : List Nat → Option Nat
  | [] => .none
  | p :: rest => match moreCredit s ln rest with
    | .none => some p
    | some r => if freeCredit (port s p) ln < freeCredit (port s r) ln then some r else some p

/-- The choice within one mask: among ports that hold credit, then the bridge (log entry 43). -/
def pickMask (s : State) (d mask : Nat) (q : QFrame) : Option Way :=
  match moreCredit s q.lane ((maskPorts d mask).filter (fun p => portHolds s p q)) with
  | some p => some (.out p)
  | .none => if bitsOf mask 12 12 = 1 ∧ s.bridge.st = 2 then some .bridge else .none

/-- The profile copy of a frame. -/
def copyFor (s : State) (d : Nat) (q : QFrame) : ProfCopy := match q.p with
  | .op m => copyOf s d m.gen.toNat
  | .notice m => copyOf s d m.gen.toNat
  | _ => (router s d).live

/-- The reason of a notice where no candidate is left (R248). -/
def noWay (s : State) (d a b : Nat) (q : QFrame) : Nat :=
  let ps := maskPorts d (a ||| b)
  if ps ≠ [] ∧ ps.all (fun p => (port s p).st = 4) = true ∧ q.lane < 3 then rTimeDoubt
  else if (a ||| b) = 4096 ∧ s.bridge.st = 3 then rSplit
  else rUnreachable

/-- The way of a frame in die `d`'s router (R247, R248). -/
def wayOf (s : State) (d : Nat) (q : QFrame) : Way :=
  if 0x10000 ≤ q.dest then
    let p := q.dest - 0x10000
    if p / 12 ≠ d then (if s.bridge.st = 2 then .bridge else if s.bridge.st = 3 then .lost else .wait)
    else if portHolds s p q then .out p
    else if portTakes s p q || portTrains s p then .wait else .lost
  else if q.dest / 2 = s.boot.node then
    if q.dest % 2 = d then .here
    else if s.bridge.st = 2 then .across else if s.bridge.st = 3 then .none rSplit else .wait
  else if q.hopsLeft = 0 then .hops
  else
    let e := Sparse.get 0 (copyFor s d q).routes (q.dest / 2)
    let keep (m : Nat) : Nat := if q.fromBridge then m % 4096 else m
    let a := if fld e 47 47 = 1 then keep (fld e 12 0) else 0
    let b := if fld e 47 47 = 1 then keep (fld e 28 16) else 0
    match (pickMask s d a q).orElse (fun _ => pickMask s d b q) with
    | some w => w
    | .none =>
      if (maskPorts d (a ||| b)).any (fun p => portTakes s p q || portTrains s p) || (bitsOf (a ||| b) 12 12 == 1 && decide (s.bridge.st < 2))
      then .wait else .none (noWay s d a b q)

-- the last completions of a die that becomes safe (R351) -----------------------------------------------------------------------

/-- Every held frame that a replay has still to send goes out. -/
def resendHeld (s : State) (p : Nat) : State :=
  let x := port s p
  (x.held.filter (fun f => !f.sent)).foldl (fun t f => emitFrame t p f.lseq f.lane f.hopsLeft f.p false)
    (setPort s p { x with held := x.held.map (fun g => { g with sent := true }) })

/-- A completion leaves at once by the port of its route that holds credit for it, behind what that port has still to send again; one that finds
no such port is not sent. -/
def sendLast (s : State) (d : Nat) (q : QFrame) : State :=
  let by_ (e : Nat) (r : QFrame) : State := match wayOf s e r with
    | .out p =>
      let x := port s p
      if holdRoom x (frameLen x r.p) && x.held.all (fun f => f.sent || carriesP x.st f.lane f.p) then
        sendFrame (resendHeld s p) p ⟨0, r.lane, r.hopsLeft - 1, r.p, frameLen x r.p, false, none⟩
      else s
    | _ => s
  match wayOf s d q with
  | .bridge => by_ (1 - d) { q with fromBridge := true }
  | _ => by_ d q

/-- Die `d` sends the completions of its own that its router holds. -/
def sendOwnComps (s : State) (d : Nat) : State :=
  ((router s d).queue.filter (fun q => q.inPort.isNone && (match q.p with
    | .op m => decide (m.opc = 8) || decide (m.opc = 0x11)
    | _ => false))).foldl (fun t q => sendLast t d q) s

end Sys2Proof.Machine
end

