-- ==== Sys2Proof/Machine/Home.lean ====
section
/-!
DEFINITION. What a home performs: operations of spaces 0 and 1 piece by piece at banks and stacks, line reads for its directory, reads and
writes of the cache's banks, and how each ends (R160, R168, R218, R227 to R234, R263, R380).
-/

namespace Sys2Proof.Machine

-- performing at the home ------------------------------------------------------------------------------------------------------------------

/-- Why a stack serves nothing: closed (R380), or critical (R168). -/
def stackReason (s : State) (k : Nat) : Nat :=
  if stackClosed s k then rWithdrawn else if stackCritical s k then rThermal else 0

/-- The status of an operation performed at its home: DENIED, POISONED, FAILED, COLLIDED or OK. -/
def HomeOp.status (h : HomeOp) : Nat :=
  if h.denied then sDENIED else if h.poison then sPOISONED else if h.reason ≠ 0 then sFAILED
  else if h.coll ∧ h.msg.opc ≠ 3 ∧ h.msg.opc ≠ 4 then sCOLLIDED else sOK

/-- A write of this home touches the line. -/
def HomeOp.writes (h : HomeOp) (line : Nat) : Bool := decide (h.msg.opc ≠ 2) && (linesOf h.msg.addr.toNat (msgTouch h.msg)).contains line

/-- A line is being written, or a write that touches it is held, at this line or at another of its own (R231). -/
def lineBusy (s : State) (d : Nat) (l : DirLine) : Bool :=
  (layer s d).dir.any (fun x => x.heldWrites.any (fun w => (linesOf w.m.addr.toNat (msgTouch w.m)).contains l.line)) ||
  (layer s d).homes.any (fun h => h.writes l.line)

/-- The weight-epoch word's line on die 0 is never filled (R227). -/
def epochWord : Nat := 2 ^ 47 + 0x203FFFF8
def holdsEpochWord (a len : Nat) : Bool := overlaps (low50 a) len epochWord 8

/-- Lines a die's directory keeps (R231). -/
def dirMax : Nat := 262144

/-- A live region of die `d` covers the line (R227). -/
def regionHolds (s : State) (d a len : Nat) : Bool :=
  (List.range 16).any (fun i =>
    let pg := pgRmop d
    let base := (rd64 s pg (RM_REGION + 16 * i)).toNat
    let size := 4096 * (rd s pg (RM_REGION + 16 * i + 8)).toNat
    decide (size ≠ 0) && decide (low50 base ≤ low50 a) && decide (low50 a + len ≤ low50 base + size))

/-- What one access brings to its operation. -/
structure Piece where
  data : List Byte
  coll : Bool
  poison : Bool
  denied : Bool
  reason : Nat
  late : Bool
deriving DecidableEq, Repr

-- the cache die's side of a GET (R230 to R233) -----------------------------------------------------------------------------------

/-- An access of the originator's local operand, or of the buffer a completion's data goes to. -/
def localAccess (s : State) (d : Nat) (o : ROp) (client : Client) (kind : AccKind) (len : Nat) (data : List Byte) : Access :=
  { id := s.nextOp, kind := kind, addr := low50 o.localAddr, len := len, data := data, deadline := o.msg.deadline.toNat
    cls := o.msg.cls.toNat, by_ := originator s { o.msg with src := BitVec.ofNat 15 (nodeDie s d) }, entered := false
    client := client, done := 0, got := [], coll := false, poison := false, denied := false
    passed := none }

/-- How long before `DEADLINE` a timer fires (R265). -/
def guardNs (o : Origin) : Nat :=
  match o with
  | .host _ | .apRead _ | .apWrite _ => 1500
  | _ => 100

/-- The timer of an operation fires before now (R265): a completion of the same moment is taken. -/
def timerPast (s : State) (d : Nat) (o : ROp) : Bool := decide (o.msg.deadline.toNat < now s d + guardNs o.origin)

/-- The accesses of an operation at its home, one for each piece, join the queues of its banks and stacks. -/
def queuePieces (s : State) (d id : Nat) (m : Msg) : State :=
  (pieces m.addr.toNat (msgLen m)).foldl (fun t p =>
    let x := homeAccess t d id m (if m.opc = 2 then .read else .write) p.1 p.2
    let t1 := (freshOp t).1
    if aSpace x.addr = 0 then
      let k := stackOf d (aOff x.addr)
      setStack t1 k { stack t1 k with queue := (stack t1 k).queue ++ [x] }
    else enqueueBank t1 x) s

/-- The write of an operation's data to its local buffer, as a home performs it. -/
def backMsg (s : State) (d : Nat) (o : ROp) (data : List Byte) : Msg :=
  { o.msg with opc := 1, sub := 0, lenM1 := BitVec.ofNat 13 (data.length - 1), addr := BitVec.ofNat 64 (nodeBase s + low50 o.localAddr)
               src := BitVec.ofNat 15 (nodeDie s d), data := data }

/-- A local buffer in a read-mostly region is written as the directory orders it (R229): after INV to the sharers of its lines, and held until
they have answered. -/
def orderedBack (s : State) (d : Nat) (o : ROp) (data : List Byte) : State :=
  let m := backMsg s d o data
  let h := invLines s d m.cls.toNat m.deadline.toNat (linesOf m.addr.toNat (msgLen m))
  match h.2 with
  | some line => holdWrite h.1 d line m (.back o.id)
  | none =>
    let r := openHome h.1 d m (.back o.id) (pieces m.addr.toNat (msgLen m)).length
    queuePieces r.1 d r.2 m

/-- A range touches a live region of die `d`, or a line that its directory still controls (R229, R235). -/
def ordered (s : State) (d a len : Nat) : Bool := (linesOf a len).any (fun l => regionHolds s d l 256 || (dirLine s d l).isSome)

/-- Data for an operation has come to its originator: a stope's goes to its local buffer through port B, any other's to who
issued it. Where its timer fires earlier, it has failed by its deadline. -/
def arriveData (s : State) (d : Nat) (o : ROp) (status reason : Nat) (data : List Byte) : State :=
  if timerPast s d o then finishOp s d o sFAILED rDeadline [] false
  else match o.origin with
  | .stope _ =>
    if status = sOK ∧ data ≠ [] then
      let s1 := putOp s d { o with phase := .back status reason }
      if ordered s d (low50 o.localAddr) data.length then orderedBack s1 d o data
      else enqueueBank (freshOp s1).1 (localAccess s d o (.writeBack d o.id) .write data.length data)
    else finishOp s d o status reason [] false
  | _ => finishOp s d o status reason data false

/-- Lines of 256 bytes that a global range touches. -/
def globalLines (a len : Nat) : List Nat :=
  (List.range (ceilDiv (a % 256 + len) 256)).map (fun i => a / 256 * 256 + 256 * i)

/-- The bytes of a GET, from its lines. -/
def gather (f : FillWait) (a len : Nat) : List Byte :=
  sliceB (f.lines.flatMap (fun p => match p.2 with
    | .have_ bs _ => bs
    | _ => [])) (a % 256) len

/-- Send a GETS for a line, with the class and deadline of the GET that misses it. -/
def sendGets (s : State) (d line : Nat) (m : Msg) : State :=
  sendCoh s d (aNodeDie line) (nodeDie s d) 5 0x10 m.cls.toNat line m.deadline.toNat 0 0 0 []

/-- Precedence of the statuses of a GET's lines (R68, R230). -/
def statusRank (st : Nat) : Nat :=
  if st = sDENIED then 4 else if st = sPOISONED then 3 else if st = sFAILED then 2 else if st = sOK then 0 else 1

/-- A line has come for a waiting GET: a status worse than those before it stands. -/
def FillWait.take (f : FillWait) (line st rs : Nat) (data : List Byte) (lease : Option Ns) : FillWait :=
  let f1 := { f with lines := f.lines.map (fun p => if p.1 = line then (line, .have_ data lease) else p) }
  if statusRank f.status < statusRank st then { f1 with status := st, reason := if st = sFAILED then rs else 0 } else f1

/-- A line whose lease has ended while the GET waited for others: it is never served (R232). -/
def leaseGone (t : Ns) (x : LineState) : Bool := match x with
  | .have_ _ (some e) => decide (e ≤ t)
  | _ => false

/-- A GET with all of its lines completes, with the status of the worst line; one with a line whose lease has ended in the meantime misses that
line again. -/
def finishFill (s : State) (d : Nat) (f : FillWait) : State :=
  match findOp s d f.op with
  | none => s
  | some o =>
    let late := f.lines.filter (fun p => leaseGone (now s d) p.2)
    let others := (layer s d).fills.filter (fun g => g.op ≠ f.op)
    if late = [] ∨ f.status ≠ sOK then
      arriveData (setLayer s d { layer s d with fills := others }) d o f.status f.reason
        (if f.status = sOK then gather f o.msg.addr.toNat (msgLen o.msg) else [])
    else
      let f1 := { f with lines := f.lines.map (fun p => if leaseGone (now s d) p.2 then (p.1, .missing) else p) }
      late.foldl (fun t p => sendGets t d p.1 o.msg)
        (bump (setLayer s d { layer s d with fills := others ++ [f1] }) (pgRmop d) RC_MISSES late.length)

/-- A waiting GET has all of its lines. -/
def FillWait.full (f : FillWait) : Bool := f.lines.all (fun p => match p.2 with
  | .have_ _ _ => true
  | _ => false)

/-- Complete the GETs that have all of their lines. -/
def finishFills (s : State) (d : Nat) : State := ((layer s d).fills.filter FillWait.full).foldl (fun t f => finishFill t d f) s

/-- Hits on a line that are still being read from its cache bank. -/
def hitsOn (s : State) (d line : Nat) : Bool := (layer s d).homes.any (fun h => match h.for_ with
  | .hit _ l _ => decide (l = line)
  | _ => false)

/-- A hit has been read: the GET takes the line, and an IACK that waited for the last hit on it goes to the home (R233). -/
def hitDone (s : State) (d op line : Nat) (lease : Ns) (st rs : Nat) (data : List Byte) : State :=
  let s1 := setLayer s d { layer s d with fills := (layer s d).fills.map (fun f =>
    if f.op = op then f.take line st rs data (some lease) else f) }
  let s2 := finishFills s1 d
  if hitsOn s2 d line then s2
  else
    let mine := (layer s2 d).heldIacks.filter (fun m => m.addr.toNat = line)
    mine.foldl (fun t m => sendCoh t d (aNodeDie line) (nodeDie t d) 5 0x13 m.cls.toNat line m.deadline.toNat m.tag.toNat 0 0 [])
      (setLayer s2 d { layer s2 d with heldIacks := (layer s2 d).heldIacks.filter (fun m => m.addr.toNat ≠ line) })

/-- The gallery bank of a row of die `d`. -/
def galleryBank (d row : Nat) : Fin 544 := Fin.ofNat 544 (512 + 16 * d + row)

/-- Address of a place of 256 bytes in the cache bank of a row. -/
def placeAddr (s : State) (d row slot : Nat) : Nat := nodeBase s + bankBase (galleryBank d row) + 256 * slot

/-- A kept line has been written to its place in its bank: it may be hit there, unless the write failed. -/
def keepDone (s : State) (d line place st : Nat) : State :=
  if st = sOK ∨ st = sCOLLIDED then
    setLayer s d { layer s d with cache := (layer s d).cache.map (fun c =>
      if c.addr = line ∧ placeAddr s d c.row c.slot = place then { c with ready := true } else c) }
  else s

/-- The write of a completion's data to its local buffer has ended. Where the local buffer of an ATOM may no longer be written, it ends FAILED
withdrawn, for DENIED would say that the target is unchanged (R219; log entry 122). -/
def backDone (s : State) (d op : Nat) (p : Piece) : State :=
  match findOp s d op with
  | none => s
  | some o =>
    match o.phase with
    | .back st rs =>
      if p.late then finishOp s d o sFAILED rDeadline [] false
      else if p.denied ∧ o.msg.opc = 3 then finishOp s d o sFAILED rWithdrawn [] false
      else finishOp s d o (if p.denied then sDENIED else if p.poison then sPOISONED else st) rs [] false
    | _ => s

/-- A read of the image that a stope loads has ended: its bytes join those read before, or the image cannot be read (R132). -/
def imageRead (s : State) (n tag : Nat) (ok : Bool) (data : List Byte) : State :=
  let x := stope s n
  if x.prog = .loading ∧ x.imgOp = some tag then
    setStope s n { x with imgOp := none, img := if ok then x.img ++ data else x.img, imgBad := x.imgBad || !ok }
  else s

-- the ends of what a home performs -------------------------------------------------------------------------------------------

/-- Lines of a write that has ended, or was dropped: `serve` serves the GETS held there. -/
def afterWrite (serve : State → Nat → Nat → State) (s : State) (d : Nat) (m : Msg) : State :=
  if m.opc = 2 then s else (linesOf m.addr.toNat (msgTouch m)).foldl (fun t l => serve t d l) s

/-- A line has been read for a GETS: its FILL goes to the cache die, with a lease or without one; a sharer that a write waits for then gets
its INV, and one whose FILL brings no line is none (R230 to R233). A GETS whose deadline came first is dropped: its FILL does not go, for no layer but
the originator's makes a deadline failure (R218, R265). -/
def fillDone (s : State) (d : Nat) (h : HomeOp) (cached : Bool) (lease : Ns) : State :=
  let line := low50 h.msg.addr.toNat
  let c := h.msg.src.toNat
  let st := h.status
  let keep := cached && decide (st = sOK) && !h.late
  let s1 := if h.late then s
    else sendCoh s d c c 4 0x11 h.msg.cls.toNat (lineAddr s line) (if keep then lease else 0) 0 st (if st = sFAILED then h.reason else 0)
      (if st = sOK then h.data else []) (some h.msg.deadline.toNat)
  match dirLine s1 d line with
  | none => s1
  | some l =>
    if !cached then s1
    else if !keep then putDir s1 d { l with sharers := l.sharers.filter (fun x => !(decide (x.node = c) && x.tag.isNone)) }
    else match l.heldWrites with
      | [] => s1
      | w :: _ =>
        let r := sendInvs s1 d w.m.cls.toNat w.m.deadline.toNat l l.sharers
        putDir r.1 d { l with sharers := r.2 }

/-- Every piece of an operation has been performed at its home, or none is to be: its outcome goes to whom it was performed for. `serve`
serves the GETS held at a line. -/
def homeFinish (serve : State → Nat → Nat → State) (s : State) (d : Nat) (h : HomeOp) : State :=
  let s1 := setLayer s d { layer s d with homes := (layer s d).homes.filter (fun x => x.id ≠ h.id) }
  let rs := if h.status = sFAILED then h.reason else 0
  match h.for_ with
  | .remote =>
    let s2 := if h.late then recordSeq s1 d h.msg .dropped
      else homeComp s1 d h.msg h.status rs (if h.status = sOK ∧ (h.msg.opc = 2 ∨ h.msg.opc = 3) then h.data else [])
    afterWrite serve s2 d h.msg
  | .hoist c op =>
    let s2 := if h.late then innerDone s1 c op sFAILED rDeadline []
      else innerDone s1 c op h.status rs (if h.status = sOK ∧ h.msg.opc = 2 then h.data else [])
    afterWrite serve s2 d h.msg
  | .fill cached lease => fillDone s1 d h cached lease
  | .hit op line lease =>
    if h.late then hitDone s1 d op line lease sFAILED rDeadline []
    else hitDone s1 d op line lease (if h.status = sCOLLIDED then sOK else h.status) rs h.data
  | .keep line => keepDone s1 d line h.msg.addr.toNat (if h.late then sFAILED else h.status)
  | .back op => afterWrite serve (backDone s1 d op ⟨[], h.coll, h.poison, h.denied, 0, h.late⟩) d h.msg
  | .image n tag => imageRead s1 n tag (decide (h.status = sOK) && !h.late) h.data
  | .lost => afterWrite serve s1 d h.msg

/-- Reason for which a range of space 0 is not served: some stack of it is closed or critical; 0 where all serve. -/
def rangeReason (s : State) (a len : Nat) : Nat :=
  ((stacksOf (aDie a) (aOff a) len).map (stackReason s)).foldl (fun r x => if r = 0 then x else r) 0

/-- Perform a PUT or GET of spaces 0 and 1 at its home: an access for each piece. One that touches a stack which serves nothing is performed
in none, and ends FAILED at once (R168, R380). -/
def performWith (serve : State → Nat → Nat → State) (s : State) (d : Nat) (m : Msg) (f : HomeFor) : State :=
  let a := m.addr.toNat
  let r := openHome s d m f (pieces a (msgLen m)).length
  if aSpace a = 0 ∧ rangeReason s a (msgLen m) ≠ 0 then
    match (layer r.1 d).homes.find? (fun h => h.id = r.2) with
    | some h => homeFinish serve r.1 d { h with reason := rangeReason s a (msgLen m) }
    | none => r.1
  else queuePieces r.1 d r.2 m

/-- Serve a GETS (R230 to R232): the line is read, and answered by a cached fill with a lease, or, where the directory is full, the line has
4 sharers, or the line may not be filled, by an uncached one: `DEADLINE` 0 marks it (log entry 12). -/
def serveGets (serve : State → Nat → Nat → State) (s : State) (d : Nat) (m : Msg) : State :=
  let line := low50 m.addr.toNat / 256 * 256
  let l := (dirLine s d line).getD ⟨line, [], [], []⟩
  let c := m.src.toNat
  let others := (l.live (now s d)).filter (fun x => x.node ≠ c)
  let known := decide (dirLine s d line ≠ none)
  let cached := regionHolds s d line 256 && !holdsEpochWord line 256 && decide (others.length < 4) &&
    (known || decide ((layer s d).dir.length < dirMax))
  let e := now s d + 1000 * fld (rd s (pgRmop d) RC_LIFE) 9 0
  performWith serve (if cached then putDir s d { l with sharers := others ++ [⟨c, e, none⟩] } else s) d
    { m with opc := 2, lenM1 := 255, addr := BitVec.ofNat 64 (lineAddr s line) } (.fill cached e)

/-- Serve the GETS held at a line that is no longer being written; `fuel` bounds the lines that fail at once and free others. -/
def serveHeldN : Nat → State → Nat → Nat → State
  | 0, s, _, _ => s
  | fuel + 1, s, d, line =>
    match dirLine s d line with
    | none => s
    | some l =>
      if l.heldGets = [] ∨ lineBusy s d l ∨ l.live (now s d) ≠ [] then s
      else l.heldGets.foldl (fun t m => serveGets (serveHeldN fuel) t d m) (putDir s d { l with heldGets := [] })

def serveHeld (s : State) (d line : Nat) : State := serveHeldN 4 s d line

/-- Perform a PUT, a GET, a hoist's access or a line's read at its home. -/
def performAt (s : State) (d : Nat) (m : Msg) (f : HomeFor) : State := performWith serveHeld s d m f

/-- A write of spaces 0 and 1 is performed after the directory's invalidations, and held until its sharers have answered (R231). -/
def writeAt (s : State) (d : Nat) (m : Msg) (f : HomeFor) : State :=
  let h := invLines s d m.cls.toNat m.deadline.toNat (linesOf m.addr.toNat (msgTouch m))
  match h.2 with
  | some line => holdWrite h.1 d line m f
  | none => performAt h.1 d m f

/-- A piece of a home operation has ended. -/
def homePiece (s : State) (d id off : Nat) (p : Piece) : State :=
  match (layer s d).homes.find? (fun h => h.id = id) with
  | none => s
  | some h =>
    let h1 := { h with
      left := h.left - 1, coll := h.coll || p.coll, poison := h.poison || p.poison, denied := h.denied || p.denied
      reason := if h.reason = 0 then p.reason else h.reason, late := h.late || p.late
      data := if p.data = [] then h.data else spliceB h.data off p.data }
    if h1.left = 0 then homeFinish serveHeld s d h1
    else setLayer s d { layer s d with homes := (layer s d).homes.map (fun x => if x.id = id then h1 else x) }

/-- The pieces of a home operation of die `d` that wait at the die's stacks are taken back. -/
def dropPieces (s : State) (d id : Nat) : State :=
  let mine (x : Access) : Bool := match x.client with
    | .home e i _ => decide (e = d) && decide (i = id)
    | _ => false
  [0, 1, 2, 3].foldl (fun t j =>
    let k := 4 * d + j
    if (stack t k).queue.any mine then setStack t k { stack t k with queue := (stack t k).queue.filter (fun x => !mine x) } else t) s

/-- An operation with a piece at a stack that serves nothing any more ends FAILED at once: the pieces that wait elsewhere are performed in
no stack (R168, R380). -/
def failHome (s : State) (d id reason : Nat) : State :=
  match (layer s d).homes.find? (fun h => h.id = id) with
  | none => s
  | some h => homeFinish serveHeld (dropPieces s d id) d { h with reason := if h.reason = 0 then reason else h.reason, late := false }

/-- An access is a piece of an operation of which some piece has been performed. -/
def homeBegun (s : State) (x : Access) : Bool := match x.client with
  | .home d id _ => (layer s d).homes.any (fun h => decide (h.id = id) && h.begun)
  | _ => false

/-- An access whose deadline has passed before it has begun: it is dropped (R21, R160). -/
def accLate (s : State) (x : Access) : Bool := decide (x.deadline ≤ now s (aDie x.addr)) && !homeBegun s x

/-- A port-B access of the assay block for a stope's canary, of the class that other work goes before (R338). -/
def canaryAccess (s : State) (st : Fin 512) (op : Nat) (dst : Option Nat) (kind : AccKind) (a len due : Nat) (data : List Byte) : Access :=
  { id := s.nextOp, kind := kind, addr := low50 a, len := len, data := data, deadline := due, cls := scavenge, by_ := ⟨btAssay, quadOf st⟩
    entered := false, client := .canary st op dst, done := 0, got := [], coll := false, poison := false, denied := false, passed := none }

/-- The assay block's access waits at its bank. -/
def queueCanary (s : State) (st : Fin 512) (op : Nat) (dst : Option Nat) (kind : AccKind) (a len due : Nat) (data : List Byte) : State :=
  enqueueBank (freshOp s).1 (canaryAccess s st op dst kind a len due data)

/-- A canary's access cannot be made: one that is not yet compared is skipped, and its tile completes on its own result (R338; log entry 141). -/
def canaryFails (s : State) (st : Fin 512) (op : Nat) : State :=
  let phase : Option CanaryPhase := (s.canaries.find? (fun c => c.op = op)).map (fun c => c.phase)
  match phase with
  | some .copying => bump { s with canaries := s.canaries.filter (fun c => c.op ≠ op) } (pgAssay (quadOf st)) CANARY_SKIPPED 1
  | some (.returning outs) => { s with canaries := s.canaries.map (fun c => if c.op = op then { c with phase := .returned outs } else c) }
  | _ => s

/-- A write of a canary's copy or of its outputs has been made. -/
def Canary.wrote (c : Canary) : Canary :=
  { c with left := c.left - 1, phase := match c.phase with
    | .returning outs => if c.left ≤ 1 then .returned outs else .returning outs
    | p => p }

/-- An access of a canary has ended: what has been read is written to its place in the partner's area. -/
def canaryDone (s : State) (st : Fin 512) (op : Nat) (dst : Option Nat) (due : Nat) (p : Piece) : State :=
  if !(s.canaries.any (fun c => decide (c.op = op))) then s
  else if p.late || p.denied || p.poison then canaryFails s st op
  else match dst with
    | some a => queueCanary s st op none .write a p.data.length due p.data
    | none => { s with canaries := s.canaries.map (fun c => if c.op = op then c.wrote else c) }

/-- An access has ended: what waits for it goes on. -/
def accessDone (s : State) (x : Access) (p : Piece) : State :=
  match x.client with
  | .none => s
  | .home d id off => homePiece s d id off p
  | .source d op =>
    match findOp s d op with
    | none => s
    | some o =>
      if p.late then s
      else if p.poison then finishOp s d o sPOISONED 0 [] false
      else if p.denied then finishOp s d o sDENIED 0 [] false
      else flush (putOp s d { o with phase := .ready, msg := { o.msg with data := p.data } }) d
  | .writeBack d op => backDone s d op p
  | .canary st op dst => canaryDone s st op dst x.deadline p

-- accepting an operation -------------------------------------------------------------------------------------------------------------------------

/-- Accepted operations of the stream after its oldest one without an acknowledged completion (R221). -/
def windowUsed (s : State) (d : Nat) (o : ROp) : Nat :=
  let x := outStream s d o
  (x.next - x.base).toNat + ((layer s d).ops.filter (fun p =>
    sameStream o p && (match p.phase with
      | .prep => true
      | .ready => true
      | _ => false))).length

/-- Take an accepted operation: its local operand is read first where `readLen` is not 0 (R263). -/
def addOp (s : State) (d : Nat) (o : ROp) (readLen : Nat) : State :=
  let L := layer s d
  let s1 := setLayer s d { L with ops := L.ops ++ [o] }
  if readLen = 0 then flush s1 d
  else enqueueBank (freshOp s1).1 (localAccess s1 d o (.source d o.id) .read readLen [])

end Sys2Proof.Machine
end

