-- ==== Sys2Proof/Machine/Ingress.lean ====
section
/-!
DEFINITION. Operations as their ingress makes and judges them (R214 to R217, R221, R252), a hoist's inner operations that travel (R198,
R207, R257), and the writes of a script's completion records (R209).
-/

namespace Sys2Proof.Machine

-- remote operations of any originator -----------------------------------------------------------------------------------------

/-- Length, range, space and alignment of a remote operation keep R26, R153, R214 and R216. -/
def remoteOk (opc sub a len : Nat) : Bool :=
  match opc with
  | 3 => atomOk sub a len
  | 4 => decide (sub < 2) && decide (aSpace a = 1) && decide (a % 8 = 0) && inRange a 8
  | 5 => decide (0 < len) && decide (len ≤ 4096) && decide (a / 2 ^ 58 = 0) && inRange a len
  | _ => decide (0 < len) && decide (len ≤ 4096) && inRange a len

/-- The group of an MCPUT's address. -/
def groupOf (a : Nat) : Nat := bitsOf a 57 50

/-- The device originates the group's copies (R252). -/
def isRoot (s : State) (d g : Nat) : Bool := fld (mcEntry s d g) 31 30 == 3

/-- The message of an operation, as its originator encodes it (R214, R217); it is numbered when it is sent. `SUB` and `BELL` are 0 where its
type has no use for them (R213). -/
def newMsg (s : State) (d kind agent opc sub cls a len deadline bell : Nat) (data : List Byte) : Msg :=
  { opc := BitVec.ofNat 8 opc, sub := if opc = 3 ∨ opc = 4 then BitVec.ofNat 4 sub else 0, cls := BitVec.ofNat 2 cls, lenM1 := BitVec.ofNat 13 (len - 1), seq := 0
    addr := BitVec.ofNat 64 a, deadline := BitVec.ofNat 64 deadline, src := BitVec.ofNat 15 (nodeDie s d)
    agent := BitVec.ofNat 12 agent, kind := BitVec.ofNat 4 kind, epoch := sysEpoch s d, gen := BitVec.ofNat 16 (router s d).live.gen
    tag := 0, reason := 0, bell := if opc = 4 then BitVec.ofNat 5 bell else 0, ack := 0, incarn := (layer s d).incarn, data := data }

/-- An accepted operation at its originator's layer. -/
def newOp (s : State) (d id : Nat) (origin : Origin) (m : Msg) (localAddr readLen : Nat) : ROp :=
  let a := m.addr.toNat
  { id := id, origin := origin, msg := m, dest := if m.opc = 5 then 0x8000 + groupOf a else aNodeDie a
    phase := if readLen = 0 then .ready else .prep, localAddr := localAddr, sentAt := 0
    retryMul := if m.opc = 5 then fld (mcEntry s d (groupOf a)) 35 32 + 1 else 1
    crosses := decide (m.opc ≠ 5) && decide (aNodeDie a / 2 = s.boot.node) && decide (aDie a ≠ d) }

/-- The stream's window has room (R221) after the operations `before` it that are issued with it. -/
def windowOpen (s : State) (d : Nat) (o : ROp) (before : List ROp := []) : Bool :=
  decide (windowUsed s d o + (before.filter (sameStream o)).length + 1 ≤ 4096)

-- a hoist's inner operations that travel (R198, R207, R257) --------------------------------------------------------------------

/-- The hoist engine of a channel. -/
def engineOf (c : Nat) : Nat := c / 4

/-- Node-die of an address lies on this device. -/
def onDevice (s : State) (a : Nat) : Bool := decide (a / 2 ^ 50 = s.boot.node)

/-- The die of channel `c`. -/
def channelDie (c : Nat) : Nat := c / 128

/-- Change the script of a channel. -/
def updScript (s : State) (c : Nat) (f : Script → Script) : State :=
  let ch := channel s c
  setChannel s c { ch with run := ch.run.map f }

/-- How an inner operation fares at the hoist's ingress. -/
inductive InnerJudge where
  /-- it cannot be: status and reason -/
  | no (status reason : Nat)
  /-- refused for now -/
  | later (short : Bool)
  | go (s : State)

/-- Right that an inner operation needs. -/
def innerRight (opc : Nat) : Nat := if opc = 2 then rtREAD else if opc = 4 then rtFLAG else rtWRITE

/-- Its deadline: the script's, or its own issue time plus its class promise, whichever is earlier (R257). -/
def innerDeadline (s : State) (c : Nat) (r : Script) : Nat :=
  let d := channelDie c
  Nat.min r.deadline (now s d + (if r.cls = scavenge then 2 ^ 32 - 1 else promise s d r.cls))

/-- The message of an inner operation. -/
def innerMsg (s : State) (c : Nat) (r : Script) (opc sub a len bell : Nat) (data : List Byte) : Msg :=
  newMsg s (channelDie c) 1 c opc sub r.cls a len (innerDeadline s c r) bell data

/-- Judge an inner operation: rights, range, route, floor, window and credit. -/
def judgeInner (s : State) (c : Nat) (r : Script) (opc sub a len : Nat) : InnerJudge :=
  let d := channelDie c
  if !grants r.windows a len (innerRight opc) || !remoteOk opc sub a len then .no sDENIED 0
  else if r.copyOnly && decide (opc = 2) && !inCopyOut s a len then .no sFAILED rDrained
  else if inDoubt s d && decide (r.cls ≠ scavenge) then .no sFAILED rTimeDoubt
  else
    let o := newOp s d 0 (.hoist (Fin.ofNat 256 c) 0) (innerMsg s c r opc sub a len 0 []) 0 0
    match routeFloor s d (aNodeDie a) (aSpace a) with
    | none => .no sFAILED rUnreachable
    | some f =>
      if innerDeadline s c r < now s d + f then .no sFAILED rDeadline
      else if !windowOpen s d o then .later false
      else match takeCredit s d (.hoist (engineOf c)) r.cls len (strictest s r.cls (touchedStacks s a len)) with
        | some s1 => .go s1
        | none => .later true

-- completion records (R209) ------------------------------------------------------------------------------------------------------

/-- A completion record (Table 10-4). -/
def recordBytes (desc status reason : Nat) (retried coll : Bool) (step check : Nat) : List Byte :=
  toLE 16 (desc % 2 ^ 16 + 2 ^ 16 * (status % 16) + 2 ^ 20 * (reason % 256) + (if retried then 2 ^ 28 else 0) +
    (if coll then 2 ^ 29 else 0) + 2 ^ 32 * (step % 2 ^ 32) + 2 ^ 64 * (check % 2 ^ 32))

/-- Drop a record write that has ended or cannot be made. -/
def recGone (s : State) (c id : Nat) : State := updScript s c (fun (r : Script) => { r with recs := r.recs.filter (fun w => w.op ≠ some id) })

/-- Write a record into the HEAD area, here or as a PUT to a peer (R198): `none` where the write waits. One that the windows, its range or its
route turn away is lost (R209). -/
def issueRecord (s : State) (c : Nat) (r : Script) (w : RecWrite) : Option State :=
  let a := r.recAddr + 16 * w.index
  let id := s.nextOp
  let d := channelDie c
  let mark (t : State) : State := updScript (freshOp t).1 c (fun (q : Script) =>
    { q with recs := q.recs.map (fun v => if v.index = w.index then { v with op := some id } else v) })
  let s1 := mark s
  if onDevice s a then
    if !grants r.windows a 16 rtWRITE || !inRange a 16 || decide (2 ≤ aSpace a) || (decide (aDie a ≠ d) && decide (s.bridge.st = 3)) then
      some (recGone s1 c id)
    else if aDie a ≠ d ∧ s.bridge.st ≠ 2 then none
    else some (writeAt s1 (aDie a) (newMsg s d 1 c 1 0 r.cls a 16 r.deadline 0 w.data) (.hoist c id))
  else match judgeInner s c r 1 0 a 16 with
    | .no _ _ => some (recGone s1 c id)
    | .later _ => none
    | .go t =>
      let t1 := mark t
      some (addOp t1 d (newOp t1 d id (.hoist (Fin.ofNat 256 c) 0) (innerMsg s c r 1 0 a 16 0 w.data) 0 0) 0)

/-- Issue records in their order, up to the first that waits. -/
def pumpRecords (s : State) (c : Nat) : List RecWrite → State
  | [] => s
  | w :: rest =>
    if w.op.isSome then pumpRecords s c rest
    else match (channel s c).run with
      | none => s
      | some r =>
        match issueRecord s c r w with
        | none => s
        | some t => pumpRecords t c rest

/-- Issue the records of a channel's script. -/
def pump (s : State) (c : Nat) : State := pumpRecords s c (((channel s c).run.map (fun r => r.recs)).getD [])

/-- A record joins those to be written, at the next index; where only the summary's place is left it is dropped and counted. -/
def Script.addRec (r : Script) (bs : List Byte) : Script :=
  if r.recCap = 0 then r
  else if r.recNext + 2 ≤ r.recCap then { r with recs := r.recs ++ [⟨r.recNext, bs, none⟩], recNext := r.recNext + 1 }
  else { r with dropped := r.dropped + 1 }

/-- Add a record and write it. -/
def addRecord (s : State) (c : Nat) (bs : List Byte) : State := pump (updScript s c (fun (r : Script) => r.addRec bs)) c

/-- The summary, at the last index, follows every other record; a script without a record area has none. -/
def Script.sumUp (r : Script) (status reason : Nat) : Script :=
  if r.summed then r
  else if r.recCap = 0 then { r with summed := true }
  else { r with summed := true, recs := r.recs ++ [⟨r.recCap - 1, recordBytes 0xFFFF status reason false false r.executed r.dropped, none⟩] }

end Sys2Proof.Machine
end

