-- ==== Sys2Proof/Machine/Direct.lean ====
section
/-!
DEFINITION. Port-B accesses judged by a bank's tally (R148), and the reads of a program image.
-/

namespace Sys2Proof.Machine

/-- Bank `b` is gallery space that the read cache uses (R228). -/
def isCacheBank (s : State) (b : Nat) : Bool :=
  decide (512 ≤ b) && bitsOf (rd s (pgRmop ((b - 512) / 16)) RC_BANKS).toNat ((b - 512) % 16) ((b - 512) % 16) == 1

/-- The originator is the holder, as R148 tells it for each type of holder. -/
def isHolder (h by_ : Agent) (entered : Bool) : Bool :=
  if h.ty = btRouter then entered
  else if h.ty = btLevel then !entered && decide (by_.ty = btStope) && decide (levelOf by_.inst = h.inst)
  else !entered && decide (by_ = h)

/-- `EXCL` denies a port-B write, atomic or FLAG at an address (low 50 bits) by an originator (R148). -/
def exclDenies (s : State) (by_ : Agent) (entered : Bool) (a len : Nat) : Bool :=
  let b := bankOf a
  decide (fld (rd s (pgBank b) EXCL) 0 0 = 1) && !isCacheBank s b &&
  !(decide (epochWord ≤ a) && decide (a + len ≤ epochWord + 8)) && !isHolder (holder s (pgBank b)) by_ entered

/-- Port A of the own banks does not serve this range to the stope now (R148, R229, R337). -/
def rangeDenied (s : State) (n a len : Nat) (write : Bool) : Bool :=
  match ownBank s n a len with
  | none => true
  | some b => !tallyAllows s n b || inCanaryArea s b a len || (write && inReadMostly s a len)

/-- The bank, if the tally denies a range. -/
def tallyDenies (s : State) (n : Nat) (rs : List (Nat × Nat)) : Option Nat :=
  rs.findSome? (fun r => (ownBank s n r.1 r.2).bind (fun b => if tallyAllows s n b then none else some b))

/-- Some range is denied at port A: reads, then writes. -/
def anyDenied (s : State) (n : Nat) (reads writes : List (Nat × Nat)) : Bool :=
  reads.any (fun r => rangeDenied s n r.1 r.2 false) || writes.any (fun r => rangeDenied s n r.1 r.2 true)

end Sys2Proof.Machine
end

