-- ==== Sys2Proof/Machine/Formats.lean ====
section
/-!
DEFINITION. Element formats (Table 02-1), code layouts (R30 to R33), the tensor header and scale record
(Tables 02-5, 02-6, 04-2), and when a header is invalid (R43, R77).
-/

namespace Sys2Proof

/-- Is the format code listed in Table 02-1? -/
def fmtKnown (f : Nat) : Bool := f ≤ 7 || (0x10 ≤ f && f ≤ 0x14) || f == 0x18 || f == 0x19

/-- Weight formats 0x00 to 0x07 (R29). -/
def fmtIsWeight (f : Nat) : Bool := f ≤ 7

/-- Activation formats 0x10 to 0x14 (R29). -/
def fmtIsAct (f : Nat) : Bool := 0x10 ≤ f && f ≤ 0x14

/-- Codebook formats W2, W3 and W4 (R34). -/
def fmtIsBook (f : Nat) : Bool := f == 2 || f == 3 || f == 4

/-- Formats that carry a zero point (R35). -/
def fmtHasZp (f : Nat) : Bool := f == 0x10 || f == 0x13

/-- Activation formats of four bits. -/
def fmtAct4 (f : Nat) : Bool := f == 0x10 || f == 0x11 || f == 0x12

/-- Bits of one code (Table 02-1); TERN, packed five to a byte, has no whole number and reads 8 per byte elsewhere. -/
def fmtBits (f : Nat) : Nat :=
  match f with
  | 0 => 1 | 2 => 2 | 3 => 3 | 4 => 4 | 5 => 4 | 6 => 4 | 7 => 8
  | 0x10 => 4 | 0x11 => 4 | 0x12 => 4 | 0x13 => 8 | 0x14 => 8
  | 0x18 => 16 | 0x19 => 32 | _ => 8

/-- Base-2 logarithm of the format's factor (Table 02-1). -/
def fmtFactor (f : Nat) : Int :=
  match f with
  | 5 => -1 | 0x12 => -1 | 0x14 => -9 | _ => 0

/-- Does the scale class of Table 02-1 allow `sclass` (0 streamed E8M0, 1 SQ8)? -/
def fmtAllowsClass (f sclass : Nat) : Bool :=
  if f ≤ 4 then sclass == 1
  else if f ≤ 7 then sclass ≤ 1
  else fmtIsAct f && sclass == 0

/-- Elements of a scale group (R37). -/
def groupSize (g : Nat) : Nat := 32 * 2 ^ g

/-- The E2M1 held magnitude of Table 02-3. -/
def e2m1Mag (c : Nat) : Nat :=
  match c % 8 with
  | 0 => 0 | 1 => 1 | 2 => 2 | 3 => 3 | 4 => 4 | 5 => 6 | 6 => 8 | _ => 12

/-- The held integer of an A8F magnitude: 2^9 times its E4M3 value. -/
def e4m3Mag (c : Nat) : Nat :=
  let ex := c / 8 % 16
  let man := c % 8
  if ex = 0 then man else (8 + man) * 2 ^ (ex - 1)

/-- Is the code an A8F NaN (0x7F or 0xFF)? -/
def a8fNan (c : Nat) : Bool := c % 128 == 127

/-- The integer a code is held as (Table 02-1, R33, R36), with the tensor's codebook and zero point. -/
def heldValue (f : Nat) (book : List Int) (zp c : Nat) : Int :=
  match f with
  | 0 => if c % 2 = 1 then 1 else -1
  | 1 => (c % 3 : Nat) - 1
  | 2 => book.getD (c % 4) 0
  | 3 => book.getD (c % 8) 0
  | 4 => book.getD (c % 16) 0
  | 6 => signOf 4 c
  | 7 => signOf 8 c
  | 0x10 => (c % 16 : Nat) - (zp : Int)
  | 0x11 => signOf 4 c
  | 0x13 => (c % 256 : Nat) - (zp : Int)
  | 0x14 => if c / 128 % 2 = 1 then -(e4m3Mag c : Int) else e4m3Mag c
  | _ => if c / 8 % 2 = 1 then -(e2m1Mag c : Int) else e2m1Mag c

/-- The codes of a format in ascending order of held value, without the negative-zero codes (R33) and the
A8F NaN codes. -/
def gridCodes (f : Nat) : List Nat :=
  match f with
  | 0 => [0, 1]
  | 1 => [0, 1, 2]
  | 2 => List.range 4
  | 3 => List.range 8
  | 4 => List.range 16
  | 6 | 0x11 => (List.range 8).map (· + 8) ++ List.range 8
  | 7 => (List.range 128).map (· + 128) ++ List.range 128
  | 0x10 => List.range 16
  | 0x13 => List.range 256
  | 0x14 => (List.range 126).map (fun i => 254 - i) ++ List.range 127
  | _ => [15, 14, 13, 12, 11, 10, 9] ++ List.range 8

/-- The grid of a format: each code with the integer it is held as, in ascending order. -/
def fmtGrid (f : Nat) (book : List Int) (zp : Nat) : List (Nat × Int) :=
  (gridCodes f).map fun c => (c, heldValue f book zp c)

/-- Code `i` of a packed run of format `f` (R30). TERN elements are read by `ternDigit`. -/
def codeAt (f : Nat) (bs : List Byte) (i : Nat) : Nat := bitsAt bs (fmtBits f * i) (fmtBits f)

/-- Base-3 digit `j` of a TERN byte (R31). -/
def ternDigit (b j : Nat) : Nat := b / 3 ^ j % 3

/-- One TERN group, packed five elements a byte; unused digits of its last byte are 1 (R31). -/
def packTern (digits : List Nat) (fuel : Nat) : List Byte :=
  match fuel with
  | 0 => []
  | n + 1 =>
    if digits.isEmpty then []
    else
      let d (j : Nat) := digits.getD j 1
      BitVec.ofNat 8 (d 0 + 3 * d 1 + 9 * d 2 + 27 * d 3 + 81 * d 4) :: packTern (digits.drop 5) n

/-- Bytes of a TERN group of `g` elements in a face-ordered tensor of 4-bit activation codes: a byte for each table of its slot (R31, R58). -/
def ternFaceBytes (g : Nat) : Nat := let n := (g + 4) / 5; n + n % 2

/-- A TERN group in face order: its data bytes, then pad bytes 0x79 to the end of its slot (R31, R59). -/
def packTernFace (digits : List Nat) : List Byte :=
  let bs := packTern digits digits.length
  bs ++ List.replicate (ternFaceBytes digits.length - bs.length) 0x79

/-- The exact value of an SQ8 or A8F magnitude as FP32 (R39, R65): E4M3 with a non-negative sign. -/
def e4m3ToFp32 (c : Nat) : Nat := fpRound fp32 false (e4m3Mag c) (-9) false

/-- The FP32 value 2^(e - 127) of an E8M0 byte, exact for 0 to 254 (R38). -/
def e8m0ToFp32 (e : Nat) : Nat := fpRound fp32 false 1 ((e : Int) - 127) false

/-- The tensor header (Tables 02-5 and 04-2), as read from its 64 bytes. -/
structure Header where
  tensorId : Nat
  fmt : Nat
  group : Nat
  rnd : Nat
  sclass : Nat
  zp : Nat
  elements : Nat
  book : List Int
  cbScale : Nat
  rotSize : Nat
  nug : Bool
  rotId : Nat
  nugThresh : Nat
  rotSeed : Nat
deriving DecidableEq, Repr

/-- Read a tensor header. -/
def parseHeader (bs : List Byte) : Header :=
  let w4 := leAt bs 4 4
  let w24 := leAt bs 0x24 4
  { tensorId := leAt bs 0 4
    fmt := bitsOf w4 4 0
    group := bitsOf w4 6 5
    rnd := bitsOf w4 8 7
    sclass := bitsOf w4 9 9
    zp := bitsOf w4 23 16
    elements := leAt bs 8 8
    book := (List.range 16).map fun i => signOf 8 (leAt bs (0x10 + i) 1)
    cbScale := leAt bs 0x20 4
    rotSize := bitsOf w24 2 0
    nug := bitsOf w24 3 3 == 1
    rotId := leAt bs 0x28 4
    nugThresh := leAt bs 0x2C 4
    rotSeed := leAt bs 0x30 8 }

/-- Is an FP32 pattern positive, normal and finite? -/
def fpPosNormal (x : Nat) : Bool := x / 2 ^ 31 % 2 == 0 && 1 ≤ x / 2 ^ 23 % 256 && x / 2 ^ 23 % 256 ≤ 254

/-- FP32 1.0. -/
def fpOne : Nat := 0x3F800000

/-- FP32 +∞. -/
def fpPosInf : Nat := 0x7F800000

/-- Are integers strictly increasing? -/
def strictlyRising : List Int → Bool
  | a :: b :: rest => a < b && strictlyRising (b :: rest)
  | _ => true

/-- R34: the used entries lie in −127 to +127 and rise strictly; unused entries are 0. -/
def bookValid (f : Nat) (book : List Int) : Bool :=
  let n := 2 ^ fmtBits f
  let used := book.take n
  used.all (fun v => -127 ≤ v && v ≤ 127) && strictlyRising used && (book.drop n).all (· == 0)

/-- R77: the rotation and outlier fields hold no reserved encoding. -/
def rotNugValid (f rotSize rotId rotSeed nugThresh : Nat) (nug : Bool) : Bool :=
  rotSize ≤ 4 &&
  (nugThresh == fpPosInf || fpPosNormal nugThresh) &&
  (!nug || fmtAct4 f) &&
  (nug || nugThresh == fpPosInf) &&
  (rotSize != 0 || (rotId == 0 && rotSeed == 0))

/-- R35: the zero point is in range for its format, and 0 where the format has none. -/
def zpValid (f zp : Nat) : Bool :=
  if f = 0x10 then zp ≤ 15 else if f = 0x13 then zp ≤ 255 else zp == 0

/-- R43: is the 64-byte header valid? The entries of a header whose format is no codebook format are not examined (log entry 101). -/
def headerValid (bs : List Byte) : Bool :=
  let h := parseHeader bs
  let w4 := leAt bs 4 4
  (crc32c (sliceB bs 0 0x3C)).toNat == leAt bs 0x3C 4 &&
  fmtKnown h.fmt && h.group ≤ 2 && h.rnd ≤ 2 &&
  bitsOf w4 15 10 == 0 && bitsOf w4 31 24 == 0 && leAt bs 0x24 4 / 16 == 0 && leAt bs 0x38 4 == 0 &&
  (if fmtIsBook h.fmt then fpPosNormal h.cbScale else h.cbScale == fpOne) &&
  (!fmtIsBook h.fmt || bookValid h.fmt h.book) &&
  zpValid h.fmt h.zp && fmtAllowsClass h.fmt h.sclass &&
  rotNugValid h.fmt h.rotSize h.rotId h.rotSeed h.nugThresh h.nug

/-- Largest held value of a grid, which a NaN input takes (R51). -/
def gridTop (g : List (Nat × Int)) : Nat × Int := g.getLast?.getD (0, 0)

/-- Bytes of a scale record (Table 02-6). -/
def scaleRecordSize (group : Nat) : Nat :=
  64 * ceilDiv (8 + 16384 / groupSize group) 64

/-- R39: an SQ8 byte is valid when bit 7 is clear and it is not the NaN code. -/
def sq8Valid (b : Nat) : Bool := b < 0x7F

end Sys2Proof
end

