-- ==== Sys2Proof/Machine/Quantise.lean ====
section
/-!
DEFINITION. The quantiser: scales the device chooses (R45, R97), rounding (R46 to R53), block rotation
(R72 to R74) and nugget extraction (R78, R79). Used by QUANT, the update sweep, the W4A8 path and the hoist compressor.
-/

namespace Sys2Proof

/-- A finite FP32 value as an exact signed mantissa and exponent; NaN and infinity give 0. -/
def fpExact (x : Nat) : Int × Int :=
  match fpDecode fp32 x with
  | .fin n m e => (if n then -(m : Int) else m, e)
  | _ => (0, 0)

/-- Exact order of a · 2^ea ≤ b · 2^eb. -/
def dyLe (a ea b eb : Int) : Bool :=
  let e := min ea eb
  a * (2 ^ (ea - e).toNat : Nat) ≤ b * (2 ^ (eb - e).toNat : Nat)

/-- The lowest and highest held values of a grid. -/
def gridEnds (g : List (Nat × Int)) : Int × Int := ((g.head?.getD (0, 0)).2, (gridTop g).2)

/-- R45: does scale ± s (exact m · 2^e, m ≥ 0) cover x, with a side that has no non-zero grid value left out, for
every x (log entry 146)? -/
def scaleCovers (lo hi factor : Int) (sm se : Int) (x : Nat) : Bool :=
  let (xm, xe) := fpExact x
  (lo ≥ 0 || xm ≥ 0 || dyLe (lo * sm) (factor + se) xm xe) &&
  (hi ≤ 0 || xm ≤ 0 || dyLe xm xe (hi * sm) (factor + se))

/-- First number from `e`, counting `fuel` upward, that a test accepts; else `last`. -/
def firstFrom (p : Nat → Bool) (last : Nat) : Nat → Nat → Nat
  | 0, _ => last
  | fuel + 1, e => if p e then e else firstFrom p last fuel (e + 1)

/-- The finite elements of a group. -/
def finiteOnly (xs : List Nat) : List Nat := xs.filter fun x => !fpNotFinite fp32 x

/-- R45: the smallest E8M0 byte that covers every finite element; 254 if none does. -/
def chooseE8m0 (factor : Int) (g : List (Nat × Int)) (xs : List Nat) : Nat :=
  let (lo, hi) := gridEnds g
  let fin := finiteOnly xs
  if fin.all (fun x => x % 2 ^ 31 == 0) then 0
  else firstFrom (fun e => fin.all (scaleCovers lo hi factor 1 ((e : Int) - 127))) 254 255 0

/-- R45, R46: the FP32 product of an SQ8 value and S2. -/
def sq8Product (v s2 : Nat) : Nat := fpMul fp32 (e4m3ToFp32 v) s2

/-- R45: the smallest non-negative E4M3 code whose product with S2 covers every finite element; if none
does, the largest whose product is finite. -/
def chooseSq8 (factor : Int) (g : List (Nat × Int)) (s2 : Nat) (xs : List Nat) : Nat :=
  let (lo, hi) := gridEnds g
  let fin := finiteOnly xs
  let ok (v : Nat) := !fpNotFinite fp32 (sq8Product v s2)
  let top := ((List.range 127).filter ok).getLast?.getD 0
  firstFrom (fun v =>
    let (sm, se) := fpExact (sq8Product v s2)
    ok v && fin.all (scaleCovers lo hi factor sm se)) top 127 0

/-- R97: largest real grid magnitude of a weight format, in half units (E2M1 has halves in held form). -/
def gridMagHeld (f : Nat) (book : List Int) : Nat :=
  if fmtIsBook f then ((book.take (2 ^ fmtBits f)).map Int.natAbs).foldl max 0
  else match f with
    | 0 => 1 | 1 => 1 | 5 => 12 | 6 => 8 | _ => 128

/-- R97: the exponent k − 8 of the tile scale S2_tile = 2^(k − 8) for the values of a tile; 0 where none of them is finite and not 0. -/
def s2TileExp (f : Nat) (book : List Int) (cb : Nat) (xs : List Nat) : Int :=
  let mags := (finiteOnly xs).map (fpAbs fp32)
  let a := mags.foldl max 0
  if a = 0 then 0
  else
    let (am, ae) := fpExact a
    let (cm, ce) := fpExact cb
    let h : Int := gridMagHeld f book
    let k : Int := (firstFrom (fun i => dyLe am ae (h * cm) (fmtFactor f + ce + ((i : Int) - 600))) 1200 1200 0 : Int) - 600
    k - 8

/-- R40, R97: the stored S2 of a tile, S2_tile × `CB_SCALE`, of which only the product is rounded. -/
def storedS2 (f : Nat) (book : List Int) (cb : Nat) (xs : List Nat) : Nat :=
  let (cm, ce) := fpExact cb
  fpRound fp32 false cm.natAbs (ce + s2TileExp f book cb xs) false

/-- The exact comparison value of t on a grid scaled by the format factor: t ÷ 2^factor = num ÷ 2^k. -/
def gridUnits (factor : Int) (t : Nat) : Int × Nat :=
  let (m, e) := fpExact t
  let ex := e - factor
  (m * (2 ^ ex.toNat : Nat), (-ex).toNat)

/-- The neighbours of num ÷ 2^k in a rising grid: the last entry not above it and the first not below it. -/
def gridNeighbours (g : List (Nat × Int)) (num : Int) (k : Nat) : (Nat × Int) × (Nat × Int) :=
  let d : Int := (2 ^ k : Nat)
  let below := (g.filter fun p => p.2 * d ≤ num).getLast?
  let above := (g.filter fun p => p.2 * d ≥ num).head?
  (below.getD (g.head?.getD (0, 0)), above.getD (gridTop g))

/-- R48, R49: the code of a t that lies within the grid, under rounding mode `rnd` and random word `u`. -/
def roundInGrid (rnd u : Nat) (g : List (Nat × Int)) (num : Int) (k : Nat) : Nat :=
  let d : Int := (2 ^ k : Nat)
  let (a, b) := gridNeighbours g num k
  if a.2 * d = num then a.1
  else if b.2 * d = num then b.1
  else if rnd = 0 then
    let da := num - a.2 * d
    let db := b.2 * d - num
    if da < db then a.1 else if db < da then b.1
    else if a.1 % 2 = 0 then a.1 else b.1
  else if rnd = 1 then
    let f : Int := (num - a.2 * d) * (2 ^ 32 : Nat) / ((b.2 - a.2) * d)
    if (u : Int) < f then b.1 else a.1
  else if num = 0 then (if a.2.natAbs ≤ b.2.natAbs then a.1 else b.1)
  else
    -- toward zero: the grid value of largest magnitude between 0 and t
    if num > 0 then
      (if a.2 ≥ 0 then a.1 else b.1)
    else
      (if b.2 ≤ 0 then b.1 else a.1)

/-- What quantising one element gives: its code, whether it counted as a saturation, whether it was NaN. -/
structure QElem where
  code : Nat
  sat : Bool
  nan : Bool
deriving DecidableEq, Repr

/-- R46 to R52: quantise FP32 `x` under the full scale `s`. -/
def quantElem (f rnd : Nat) (g : List (Nat × Int)) (u s x : Nat) : QElem :=
  match fpDecode fp32 x with
  | .nan => ⟨(gridTop g).1, true, true⟩
  | .inf neg => ⟨if neg then (g.head?.getD (0, 0)).1 else (gridTop g).1, true, false⟩
  | .fin .. =>
    let t := if s % 2 ^ 31 = 0 then 0 else fpDiv fp32 x s
    match fpDecode fp32 t with
    | .inf neg => ⟨if neg then (g.head?.getD (0, 0)).1 else (gridTop g).1, true, false⟩
    | _ =>
      let (num, k) := gridUnits (fmtFactor f) t
      let d : Int := (2 ^ k : Nat)
      let (lo, hi) := gridEnds g
      if s % 2 ^ 31 = 0 then
        ⟨if f = 0 then 1 else roundInGrid rnd u g 0 k, false, false⟩
      else if f = 0 then
        ⟨if t / 2 ^ 31 % 2 = 1 then 0 else 1, num < -d || num > d, false⟩
      else if num < lo * d then ⟨(g.head?.getD (0, 0)).1, true, false⟩
      else if num > hi * d then ⟨(gridTop g).1, true, false⟩
      else ⟨roundInGrid rnd u g num k, false, false⟩

/-! ### Rotation (R72 to R74) -/

/-- Order of a rotation, by the code of Table 04-2 (0 for none). -/
def rotOrder (c : Nat) : Nat := match c with | 1 => 32 | 2 => 64 | 3 => 128 | 4 => 256 | _ => 0

/-- The activation exponent a of Table 04-1. -/
def rotExpA (c : Nat) : Int := match c with | 1 => 2 | 2 => 3 | 3 => 3 | 4 => 4 | _ => 0

/-- Vector-unit cycles per 1,024 elements (Table 04-1). -/
def rotCycles (c : Nat) : Nat := match c with | 1 => 40 | 2 => 48 | 3 => 56 | 4 => 64 | _ => 0

/-- R73: is the sign of reduction position p negative? -/
def rotSignNeg (seed ident p : Nat) : Bool := philoxWord seed ident 0 1 p / 2 ^ 31 % 2 == 1

/-- One butterfly stage of R74 at distance h. -/
def butterflyStage (h : Nat) (ys : List Nat) : List Nat :=
  (List.range ys.length).map fun i =>
    if i / h % 2 = 0 then fpAdd fp32 (ys.getD i 0) (ys.getD (i + h) 0)
    else fpSub fp32 (ys.getD (i - h) 0) (ys.getD i 0)

/-- The butterfly of R74 over a block: distances h, 2h, …, `stages` of them. -/
def butterfly : Nat → Nat → List Nat → List Nat
  | 0, _, ys => ys
  | n + 1, h, ys => butterfly n (2 * h) (butterflyStage h ys)

/-- A block with the signs of R73 applied. -/
def signBlock (seed ident p : Nat) (xs : List Nat) : List Nat := xs.mapIdx fun i x => if rotSignNeg seed ident (p + i) then x ^^^ 2 ^ 31 else x

/-- R74 for one aligned block at reduction position `p`. -/
def rotateBlock (c seed ident p : Nat) (xs : List Nat) : List Nat :=
  (butterfly (Nat.log2 (rotOrder c)) 1 (signBlock seed ident p xs)).map fun y => fpScale fp32 y (-(rotExpA c))

/-- Some addition or subtraction of a butterfly stage at distance h takes finite operands and gives a result that is not. -/
def stageOverflows (h : Nat) (ys : List Nat) : Bool :=
  (List.zip ys (butterflyStage h ys)).mapIdx (fun i p =>
    fpNotFinite fp32 p.2 && !fpNotFinite fp32 p.1 && !fpNotFinite fp32 (ys.getD (if i / h % 2 = 0 then i + h else i - h) 0)) |>.any id

/-- Some step of the butterfly overflows (Table 06-7 `FP_RANGE`). -/
def butterflyOverflows : Nat → Nat → List Nat → Bool
  | 0, _, _ => false
  | n + 1, h, ys => stageOverflows h ys || butterflyOverflows n (2 * h) (butterflyStage h ys)

/-- A rotation step of a line of whole blocks overflows. -/
def rotationOverflows (c seed ident : Nat) : Nat → Nat → List Nat → Bool
  | 0, _, _ => false
  | n + 1, p, xs =>
    if xs.isEmpty then false
    else butterflyOverflows (Nat.log2 (rotOrder c)) 1 (signBlock seed ident p (xs.take (rotOrder c))) ||
      rotationOverflows c seed ident n (p + rotOrder c) (xs.drop (rotOrder c))

/-- R74 for a line of whole blocks that starts at reduction position `p`. -/
def rotateLine (c seed ident : Nat) : Nat → Nat → List Nat → List Nat
  | 0, _, _ => []
  | n + 1, p, xs =>
    if xs.isEmpty then []
    else rotateBlock c seed ident p (xs.take (rotOrder c)) ++
      rotateLine c seed ident n (p + rotOrder c) (xs.drop (rotOrder c))

/-! ### Nuggets (R78, R79) -/

/-- A nugget record (Table 04-3). -/
structure NugRec where
  val0 : Nat
  val1 : Nat
  idx0 : Nat
  idx1 : Nat
  v0 : Bool
  v1 : Bool
  overs : Bool
  satCount : Nat
  nan : Bool
deriving DecidableEq, Repr

/-- The empty record. -/
def NugRec.none : NugRec := ⟨0, 0, 0, 0, false, false, false, 0, false⟩

/-- The 64 bits of a nugget record. -/
def NugRec.toNat (r : NugRec) : Nat :=
  let b (x : Bool) := if x then 1 else 0
  r.val0 + 2 ^ 16 * r.val1 + 2 ^ 32 * r.idx0 + 2 ^ 39 * r.idx1 + 2 ^ 46 * b r.v0 + 2 ^ 47 * b r.v1 +
    2 ^ 48 * b r.overs + 2 ^ 49 * r.satCount + 2 ^ 57 * b r.nan

/-- Read a nugget record. -/
def NugRec.ofNat (x : Nat) : NugRec :=
  ⟨bitsOf x 15 0, bitsOf x 31 16, bitsOf x 38 32, bitsOf x 45 39, bitsOf x 46 46 == 1, bitsOf x 47 47 == 1,
    bitsOf x 48 48 == 1, bitsOf x 56 49, bitsOf x 57 57 == 1⟩

/-- R79: is the record malformed for a group of G elements? -/
def nugMalformed (g x : Nat) : Bool :=
  let r := NugRec.ofNat x
  let fin (v : Nat) := v / 2 ^ 7 % 256 != 255
  x / 2 ^ 58 != 0 || (r.v1 && !r.v0) ||
  (r.v0 && (r.idx0 ≥ g || !fin r.val0)) || (r.v1 && (r.idx1 ≥ g || r.idx1 ≤ r.idx0 || !fin r.val1)) ||
  (!r.v0 && (r.val0 != 0 || r.idx0 != 0)) || (!r.v1 && (r.val1 != 0 || r.idx1 != 0))

/-- Insert a candidate (index, value) in the ranking of R78: larger magnitude first, then lower index. -/
def rankInsert (c : Nat × Nat) : List (Nat × Nat) → List (Nat × Nat)
  | [] => [c]
  | d :: rest =>
    if fpAbs fp32 d.2 ≥ fpAbs fp32 c.2 then d :: rankInsert c rest else c :: d :: rest

/-- R78 steps 2 and 3: the candidates of a group, in ranking order. -/
def nugCandidates (thresh : Nat) (xs : List Nat) : List (Nat × Nat) :=
  ((xs.mapIdx fun i x => (i, x)).filter fun c =>
      !fpNotFinite fp32 c.2 && fpLtVal (fpDecode fp32 thresh) (fpDecode fp32 (fpAbs fp32 c.2))).foldl
    (fun acc c => rankInsert c acc) []

/-- R78 step 4: the first two candidates whose BF16 value is finite, in index order, with that value. -/
def nugTake (cands : List (Nat × Nat)) : List (Nat × Nat) :=
  let taken := ((cands.map fun c => (c.1, fpToBf16 c.2)).filter fun c => !fpNotFinite bf16 c.2).take 2
  match taken with
  | [a, b] => if a.1 < b.1 then [a, b] else [b, a]
  | l => l

/-- What quantising one scale group gives. -/
structure QGroup where
  codes : List Nat
  scale : Nat
  record : NugRec
  sats : Nat
  nans : Nat
deriving DecidableEq, Repr

/-- The settings of a quantise operation. -/
structure QCfg where
  fmt : Nat
  rnd : Nat
  book : List Int
  zp : Nat
  seed : Nat
  step : Nat
  tensorId : Nat
  nug : Bool
  thresh : Nat
deriving DecidableEq, Repr

/-- The random word of element i (R49). -/
def QCfg.word (c : QCfg) (i : Nat) : Nat := philoxWord c.seed c.tensorId c.step 0 i

/-- Quantise a group under a full scale, given its nuggets and the index of its first element (R46 to R52, R78 steps 5 to 7). -/
def quantGroupUnder (c : QCfg) (i0 : Nat) (scaleByte full : Nat) (nugs cands : List (Nat × Nat)) (xs : List Nat) :
    QGroup :=
  let g := fmtGrid c.fmt c.book c.zp
  let zeroCode := if c.fmt = 0x10 then c.zp else 0
  let rs := xs.mapIdx fun i x =>
    if nugs.any (fun n => n.1 == i) then (⟨zeroCode, false, false⟩ : QElem)
    else quantElem c.fmt c.rnd g (if c.rnd = 1 then c.word (i0 + i) else 0) full x
  let sats := (rs.filter (·.sat)).length
  let nans := (rs.filter (·.nan)).length
  let n0 := nugs.getD 0 (0, 0)
  let n1 := nugs.getD 1 (0, 0)
  { codes := rs.map (·.code)
    scale := scaleByte
    sats := sats
    nans := nans
    record := { val0 := n0.2, val1 := n1.2, idx0 := n0.1, idx1 := n1.1, v0 := nugs.length ≥ 1, v1 := nugs.length ≥ 2,
                overs := cands.length > 2, satCount := sats, nan := nans > 0 } }

/-- Quantise a group with a streamed E8M0 scale: the one given, or the one R45 chooses. A static byte of
0xFF makes every element a NaN input, finite ones too (R126; log entry 148). -/
def quantGroupE8m0 (c : QCfg) (i0 : Nat) (given : Option Nat) (xs : List Nat) : QGroup :=
  let cands := if c.nug then nugCandidates c.thresh xs else []
  let nugs := nugTake cands
  let rest := (xs.mapIdx fun i x => (i, x)).filterMap fun p => if nugs.any (fun n => n.1 == p.1) then none else some p.2
  let e := given.getD (chooseE8m0 (fmtFactor c.fmt) (fmtGrid c.fmt c.book c.zp) rest)
  if e = 255 then quantGroupUnder c i0 255 fpOne [] [] (xs.map fun _ => fpQnan fp32)
  else quantGroupUnder c i0 e (e8m0ToFp32 e) nugs cands xs

/-- Quantise a group under a tile's stored S2 (R45, R46). -/
def quantGroupSq8 (c : QCfg) (i0 s2 : Nat) (xs : List Nat) : QGroup :=
  let v := chooseSq8 (fmtFactor c.fmt) (fmtGrid c.fmt c.book c.zp) s2 xs
  quantGroupUnder c i0 v (sq8Product v s2) [] [] xs

/-- Cut a list into pieces of n. -/
def chunks {α : Type} (n : Nat) : Nat → List α → List (List α)
  | 0, _ => []
  | fuel + 1, xs => if xs.isEmpty then [] else xs.take n :: chunks n fuel (xs.drop n)

/-- The packed bytes of a run of groups (R30, R31): TERN restarts at a byte at each group. -/
def packGroups (f : Nat) (groups : List (List Nat)) : List Byte :=
  if f = 1 then groups.flatMap fun g => packTern g g.length
  else packCodes (fmtBits f) groups.flatten

/-- Largest finite magnitude of a list of FP32 values (AMAX_TILE, R88). -/
def amaxOf (xs : List Nat) : Nat := ((finiteOnly xs).map (fpAbs fp32)).foldl max 0

end Sys2Proof
end

