-- ==== Sys2Proof/Machine/Geometry.lean ====
section
/-!
DEFINITION. The geometry of a face operation: its descriptor, lanes and slots, where every operand lies, and its cycles
(R54 to R61, R70, R82, R123, R326, R336).
-/

namespace Sys2Proof.Machine

/-- A face descriptor (Table 06-5). -/
structure FaceDesc where
  wData : Nat
  wHdr : Nat
  wScl : Nat
  xData : Nat
  xHdr : Nat
  xScl : Nat
  xNug : Nat
  xFb : Nat
  y : Nat
  rows : Nat
  tokens : Nat
  kc : Nat
  wFmt : Nat
  group : Nat
  sq8 : Bool
  xFmt : Nat
  acc : Bool
  fb32 : Bool
  xStride : Nat
  xsStride : Nat
  fbStride : Nat
  /-- some reserved bit is not 0 -/
  bad : Bool
deriving DecidableEq, Repr

/-- Read a face descriptor. -/
def FaceDesc.parse (bs : List Byte) : FaceDesc :=
  let q (o : Nat) := leAt bs o 8
  let w := leAt bs 0x50 4
  { wData := q 0, wHdr := q 8, wScl := q 0x10, xData := q 0x18, xHdr := q 0x20, xScl := q 0x28, xNug := q 0x30, xFb := q 0x38
    y := q 0x40, rows := leAt bs 0x48 2, tokens := leAt bs 0x4A 2, kc := leAt bs 0x4C 4, wFmt := bitsOf w 4 0
    group := bitsOf w 6 5, sq8 := bitsOf w 7 7 == 1, xFmt := bitsOf w 12 8, acc := bitsOf w 13 13 == 1
    fb32 := bitsOf w 14 14 == 1, xStride := leAt bs 0x54 4, xsStride := leAt bs 0x58 4, fbStride := leAt bs 0x5C 4
    bad := w / 2 ^ 15 != 0 || leAt bs 0x60 32 != 0 }

/-- Elements per look-up (Table 03-1). -/
def perLook (f : Nat) : Nat :=
  match f with
  | 0 => 8 | 1 => 5 | 2 => 4 | 7 => 1 | _ => 2

/-- L: 1 for 4-bit activation codes, 2 for 8-bit codes (R57). -/
def laneL (xf : Nat) : Nat := if fmtAct4 xf then 1 else 2

/-- λ: lanes that a scale group spans (R58). -/
def laneSpan (wf xf g : Nat) : Nat := let x := laneL xf * ceilDiv g (perLook wf); x + x % 2

/-- How sets and weight words are laid out. -/
structure Geo where
  g : Nat
  lam : Nat
  tables : Nat
  wide : Bool
  slots : Nat
  /-- bytes of one weight word, and the stride between words -/
  word : Nat
  step : Nat
deriving DecidableEq, Repr

/-- Geometry for a weight format, an activation format and `GROUP` (R58, R60, R123). -/
def geoOf (wf xf group : Nat) : Geo :=
  let g := groupSize group
  let lam := laneSpan wf xf g
  let tb := 64 / laneL xf
  let word := if wf = 3 then 48 * tb else 64 * tb
  { g := g, lam := lam, tables := tb, wide := decide (64 < lam), slots := if lam ≤ 64 then 64 / lam else 1
    word := word, step := if word > 2048 then 4096 else 2048 }

def FaceDesc.geo (d : FaceDesc) : Geo := geoOf d.wFmt d.xFmt d.group

/-- Reduction elements of a set. -/
def Geo.span (q : Geo) : Nat := q.slots * q.g

/-- Words of a row block at one set: 2 in wide mode. -/
def Geo.words (q : Geo) : Nat := if q.wide then 2 else 1

/-- J, and the row blocks of a tile (R123). -/
def FaceDesc.sets (d : FaceDesc) (q : Geo) : Nat := d.kc / q.span
def FaceDesc.blocks (d : FaceDesc) : Nat := ceilDiv d.rows 64

/-- Scale groups along the reduction. -/
def FaceDesc.groups (d : FaceDesc) : Nat := d.kc / groupSize d.group

/-- Number of group `k` of row `r` in R61 order, and the groups of a weight tile. -/
def FaceDesc.groupNo (d : FaceDesc) (q : Geo) (r k : Nat) : Nat :=
  ((r / 64 * d.sets q + k / q.slots) * 64 + r % 64) * q.slots + k % q.slots

def FaceDesc.tileGroups (d : FaceDesc) : Nat := 16384 / groupSize d.group

/-- Address of word `i` (0 to `words` − 1) of row block `b` at set `j`; the second of a wide pair lies half the pair's stride on (log entry 147). -/
def FaceDesc.wordAddr (d : FaceDesc) (q : Geo) (b j i : Nat) : Nat := d.wData + ((b * d.sets q + j) * q.words + i) * q.step

/-- Index that row `r` uses for look-up `k` of group `g` (R58, R60): the byte, or six bits, of its table. -/
def FaceDesc.index (s : State) (d : FaceDesc) (q : Geo) (r g k : Nat) : Nat :=
  let tb := g % q.slots * (q.lam / (64 / q.tables)) + k
  let a := d.wordAddr q (r / 64) (g / q.slots) (tb / q.tables)
  let l := tb % q.tables
  if d.wFmt = 3 then
    let o := r % 64 * (q.tables * 6 / 8) + 6 * l / 8
    leNat (readMem s (a + o) 2) >>> (6 * l % 8) % 64
  else (readByte s (a + r % 64 * q.tables + l)).toNat

/-- Code of element `j` of an index (Table 03-1). -/
def indexCode (wf idx j : Nat) : Nat := if wf = 1 then ternDigit idx j else idx / 2 ^ (fmtBits wf * j) % 2 ^ fmtBits wf

/-- Tables of a group in its slot. -/
def Geo.groupTables (q : Geo) : Nat := q.lam / (64 / q.tables)

/-- Held weight values of group `g` of row `r`. -/
def FaceDesc.weights (s : State) (d : FaceDesc) (q : Geo) (book : List Int) (r g : Nat) : List Int :=
  let k := perLook d.wFmt
  ((List.range (ceilDiv q.g k)).flatMap (fun i =>
    let idx := d.index s q r g i
    (List.range k).map (fun j => heldValue d.wFmt book 0 (indexCode d.wFmt idx j)))).take q.g

/-- A TERN index byte of the group is malformed (R32, R59). -/
def FaceDesc.badTern (s : State) (d : FaceDesc) (q : Geo) (r g : Nat) : Bool :=
  decide (d.wFmt = 1) && (List.range q.groupTables).any (fun i => decide (243 ≤ d.index s q r g i))

-- what a tile touches -------------------------------------------------------------------------------------------------

/-- Bytes of a token's codes, and of its fall-back source. -/
def FaceDesc.codeLen (d : FaceDesc) : Nat := ceilDiv (d.kc * fmtBits d.xFmt) 8
def FaceDesc.fbLen (d : FaceDesc) : Nat := d.kc * (if d.fb32 then 4 else 2)

/-- Length of a strided run. -/
def runLen (n stride len : Nat) : Nat := (n - 1) * stride + len

/-- Bytes of the weight scales (R123). -/
def FaceDesc.sclLen (d : FaceDesc) (q : Geo) : Nat :=
  let n := d.blocks * d.sets q * 64 * q.slots
  if d.sq8 then ceilDiv n d.tileGroups * scaleRecordSize d.group else n

/-- Bytes from the first weight word to the end of the last. -/
def FaceDesc.wLen (d : FaceDesc) (q : Geo) : Nat := runLen (d.blocks * d.sets q * q.words) q.step q.word

/-- The ranges that a descriptor names, all read but the last, which is `Y` (R123). -/
def FaceDesc.ranges (d : FaceDesc) (q : Geo) : List (Nat × Nat) :=
  let opt (a n : Nat) : List (Nat × Nat) := if a = 0 then [] else [(a, n)]
  [(d.wData, d.wLen q)] ++ opt d.wHdr 64 ++ [(d.wScl, d.sclLen q), (d.xData, runLen d.tokens d.xStride d.codeLen)] ++
  opt d.xHdr 64 ++ [(d.xScl, runLen d.tokens d.xsStride d.groups)] ++
  opt d.xNug (8 * runLen d.tokens d.xsStride d.groups) ++ opt d.xFb (runLen d.tokens d.fbStride d.fbLen) ++
  [(d.y, 4 * d.rows * d.tokens)]

/-- The runs of bytes that a pass reads; `fb`: the pass on the W4A8 path. -/
def FaceDesc.reads (d : FaceDesc) (q : Geo) (fb : Bool) : List (Nat × Nat) :=
  let words := (List.range (d.blocks * d.sets q * q.words)).map (fun i => (d.wData + i * q.step, q.word))
  let per (a stride n : Nat) := (List.range d.tokens).map (fun t => (a + t * stride, n))
  words ++ [(d.wScl, d.sclLen q)] ++
  (if fb then per d.xFb d.fbStride d.fbLen
   else per d.xData d.xStride d.codeLen ++ per d.xScl d.xsStride d.groups ++
     (if d.xNug = 0 then [] else per d.xNug (8 * d.xsStride) (8 * d.groups)))

-- cycles ------------------------------------------------------------------------------------------------------------------

/-- Face cycles per row block of a set that carries `m` nuggets (R70, R82). -/
def setCycles (q : Geo) (wf m : Nat) : Nat :=
  let s := if q.wide then 2 else if wf = 0 ∧ q.slots = 16 then 2 else 1
  Nat.max s (ceilDiv m 4)

/-- Output write-out W. -/
def FaceDesc.writeOut (d : FaceDesc) : Nat := ceilDiv (4 * (d.rows * d.tokens)) 4096

/-- Look-up cycles F of a pass whose sets carry these nuggets (R336). -/
def lookCycles (q : Geo) (wf c : Nat) (ms : List Nat) : Nat := (ms.map (fun m => setCycles q wf m * c)).foldl (· + ·) 0

/-- Narrow sets: every set but the last takes at least the 16 cycles of the next build. -/
def narrowCycles (q : Geo) (wf c : Nat) : List Nat → Nat
  | [] => 0
  | [m] => setCycles q wf m * c
  | m :: rest => Nat.max (setCycles q wf m * c) 16 + narrowCycles q wf c rest

/-- T of R70 for one pass, with the checksum rows of R336 (`chk` 0: none). -/
def passCycles (d : FaceDesc) (q : Geo) (chk : Nat) (ms : List Nat) : Nat :=
  let c := d.blocks
  let w := d.writeOut
  let body := if q.wide then lookCycles q d.wFmt c ms + 32 * ms.length else 16 + narrowCycles q d.wFmt c ms
  body + 8 + w + (if d.acc then w - 16 else 0) +
  (if chk = 0 then 0 else ceilDiv (lookCycles q d.wFmt c ms) chk)

/-- Nuggets present in each set, in the order of R123. -/
def FaceDesc.nugCounts (s : State) (d : FaceDesc) (q : Geo) : List Nat :=
  (List.range (d.tokens * d.sets q)).map (fun i =>
    let t := i / d.sets q
    let j := i % d.sets q
    if d.xNug = 0 then 0
    else ((List.range q.slots).map (fun m =>
      let r := NugRec.ofNat (leNat (readMem s (d.xNug + 8 * (t * d.xsStride + q.slots * j + m)) 8))
      (if r.v0 then 1 else 0) + (if r.v1 then 1 else 0))).foldl (· + ·) 0)

/-- The 4-bit or 8-bit pass as issued, and the charge C of the W4A8 path (R85): the same tile with 8-bit codes. -/
def FaceDesc.cycles (s : State) (d : FaceDesc) (chk : Nat) : Nat := passCycles d d.geo chk (d.nugCounts s d.geo)

def FaceDesc.charge (d : FaceDesc) : Nat :=
  let q := geoOf d.wFmt 0x14 d.group
  passCycles d q 0 (List.replicate (d.tokens * d.sets q) 0)

/-- Time of the W4A8 pass: its charge, and the cycles of the check (R336). -/
def FaceDesc.fbCycles (d : FaceDesc) (chk : Nat) : Nat :=
  let q := geoOf d.wFmt 0x14 d.group
  passCycles d q chk (List.replicate (d.tokens * d.sets q) 0)

end Sys2Proof.Machine
end

