-- ==== Sys2Proof/Machine/Sweep.lean ====
section
/-!
DEFINITION. The arithmetic of a long operation's tiles: the update sweep (R96 to R103) and the quantise operation (R125, R126), each
as a change of memory and counters.
-/

namespace Sys2Proof.Machine

/-- Bytes of memory that the spec leaves open take free values. -/
def spoil (s : State) (rs : List (Nat × Nat)) : State :=
  rs.foldl (fun t r =>
    { t with mem := Memory.writeAll t.mem r.1 ((List.range r.2).map (fun i => Config.freeByte (2 ^ 40 * t.free + i))), free := t.free + 1 }) s

-- the update sweep ------------------------------------------------------------------------------------------------------------

/-- An update sweep descriptor (Table 05-3). -/
structure SweepDesc where
  dw : Nat
  mHdr : Nat
  mRec : Nat
  mData : Nat
  vHdr : Nat
  vRec : Nat
  vData : Nat
  sHdr : Nat
  sRec : Nat
  sData : Nat
  whi : Nat
  comp : Nat
  scratch : Nat
  beta1 : Nat
  beta2 : Nat
  eta : Nat
  eps : Nat
  decay : Nat
  gscale : Nat
  count : Nat
  rndM : Nat
  rndV : Nat
  rndS : Nat
  first : Nat
  bad : Bool
deriving DecidableEq, Repr

def SweepDesc.parse (bs : List Byte) : SweepDesc :=
  let q (o : Nat) := leAt bs o 8
  let w (o : Nat) := leAt bs o 4
  { dw := q 0, mHdr := q 8, mRec := q 0x10, mData := q 0x18, vHdr := q 0x20, vRec := q 0x28, vData := q 0x30, sHdr := q 0x38
    sRec := q 0x40, sData := q 0x48, whi := q 0x50, comp := q 0x58, scratch := q 0x60, beta1 := w 0x68, beta2 := w 0x6C
    eta := w 0x70, eps := w 0x74, decay := w 0x78, gscale := w 0x7C, count := leAt bs 0x80 2, rndM := bitsOf (w 0x80) 17 16
    rndV := bitsOf (w 0x80) 19 18, rndS := bitsOf (w 0x80) 21 20, first := w 0x84
    bad := w 0x80 / 2 ^ 22 != 0 || leAt bs 0x88 24 != 0 }

/-- Elements of a tile. -/
abbrev tileElems : Nat := 16384

/-- TERN groups in a row of a weight word for 4-bit activation codes (Table 03-3). -/
def ternSlots (group : Nat) : Nat := 64 / ternFaceBytes (groupSize group)

/-- Bytes of one tile's codes (R30, R31): a TERN tile is in face order, one weight word (log entry 102). -/
def tileBytes (f : Nat) : Nat := if f = 1 then 4096 else tileElems * fmtBits f / 8

/-- The runs of bytes that hold the codes of a tile at `a`: in face order a row's slots, whose lanes beyond hold nothing (R59, R60). -/
def codeRuns (f group a : Nat) : List (Nat × Nat) :=
  if f = 1 then (List.range 64).map (fun r => (a + 64 * r, ternSlots group * ternFaceBytes (groupSize group))) else [(a, tileBytes f)]

/-- Packed codes of a tile's groups, in the order of its runs. -/
def packTile (f : Nat) (groups : List (List Nat)) : List Byte := if f = 1 then groups.flatMap packTernFace else packGroups f groups

/-- unit(w) of R98 is 2 to this power, for the BF16 pattern w. -/
def unitExp (w : Nat) : Int := (max 1 (w / 2 ^ 7 % 256) : Nat) - 127 - 15

/-- The master value M of a BF16 w and its compensation c (R98). -/
def masterOf (w : Nat) (c : Byte) : Nat :=
  if fpNotFinite bf16 w then bf16ToFp32 w
  else
    let k := signOf 8 c.toNat
    fpAdd fp32 (bf16ToFp32 w) (fpRound fp32 (decide (k < 0)) k.natAbs (unitExp w) false)

/-- m · 2^e rounded to the nearest integer, ties to even. -/
def roundInt (m : Int) (e : Int) : Int :=
  if 0 ≤ e then m * (2 ^ e.toNat : Nat)
  else
    let d : Int := (2 ^ (-e).toNat : Nat)
    let q := m / d
    let r := m % d
    if 2 * r < d then q else if 2 * r > d then q + 1 else if q % 2 = 0 then q else q + 1

/-- The split of a new master value (R99): BF16 and compensation. -/
def splitMaster (m1 : Nat) : Nat × Byte :=
  let w := fpToBf16 m1
  if fpNotFinite bf16 w then (w, 0)
  else
    let r := fpExact (fpSub fp32 m1 (bf16ToFp32 w))
    let c := roundInt r.1 (r.2 - unitExp w)
    (w, BitVec.ofInt 8 (min 127 c))

/-- One moment's tile: its header, record and codes. -/
structure MomentIn where
  hdr : Header
  rec_ : List Byte
  codes : List Byte

/-- The moment's value of element e: (entry × SQ8) × S2 (R102). -/
def MomentIn.value (x : MomentIn) (e : Nat) : Nat :=
  let entry := heldValue x.hdr.fmt x.hdr.book 0 (codeAt x.hdr.fmt x.codes e)
  let sq := e4m3ToFp32 (leAt x.rec_ (8 + e / groupSize x.hdr.group) 1)
  fpMul fp32 (fpMul fp32 (fpOfInt fp32 entry) sq) (leAt x.rec_ 0 4)

/-- New m, v and master value of an element (R102), from its gradient, old moments and old master value. -/
def sweepElem (d : SweepDesc) (dw m v mst : Nat) : Nat × Nat × Nat :=
  let mul := fpMul fp32
  let add := fpAdd fp32
  let g := mul d.gscale dw
  let m1 := add (mul d.beta1 m) (mul (fpSub fp32 fpOne d.beta1) g)
  let v1 := add (mul d.beta2 v) (mul (fpSub fp32 fpOne d.beta2) (mul g g))
  let dd := fpDiv fp32 m1 (add (fpSqrt fp32 v1) d.eps)
  (m1, v1, fpSub fp32 mst (mul d.eta (add dd (mul d.decay mst))))

/-- A tile quantised to an SQ8-class tensor (R97, R45 to R52): its scale record, codes, saturations and NaN elements. -/
structure TileOut where
  rec_ : List Byte
  codes : List Byte
  sats : Nat
  nans : Nat

/-- Quantise the values of tile `j` under a header. -/
def quantTile (h : Header) (rnd seed step j : Nat) (xs : List Nat) : TileOut :=
  let cfg : QCfg := { fmt := h.fmt, rnd := rnd, book := h.book, zp := h.zp, seed := seed, step := step, tensorId := h.tensorId, nug := false, thresh := 0 }
  let s2 := storedS2 h.fmt h.book h.cbScale xs
  let g := groupSize h.group
  let gs := (chunks g (tileElems + 1) xs).mapIdx (fun k ys => quantGroupSq8 cfg (j * tileElems + k * g) s2 ys)
  let head := toLE 4 s2 ++ toLE 4 0 ++ gs.map (fun q => BitVec.ofNat 8 q.scale)
  { rec_ := head ++ List.replicate (scaleRecordSize h.group - head.length) 0
    codes := packTile h.fmt (gs.map (fun q => q.codes))
    sats := (gs.map (fun q => q.sats)).foldl (· + ·) 0, nans := (gs.map (fun q => q.nans)).foldl (· + ·) 0 }

/-- The three headers of a sweep as read at its acceptance. -/
def sweepHdr (o : LongOp) (i : Nat) : Header := parseHeader (sliceB o.hdrW (64 * i) 64)

/-- The scale records of tile `k` of a run, which its start fetches (R44): first moment, second moment. -/
def sweepRecords (o : LongOp) (d : SweepDesc) (k : Nat) : List (Nat × Nat) :=
  let part (a : Nat) (h : Header) : Nat × Nat := (a + k * scaleRecordSize h.group, scaleRecordSize h.group)
  [part d.mRec (sweepHdr o 0), part d.vRec (sweepHdr o 1)]

/-- The operands that pass 1 of tile `k` reads: gradient, moments, master weights and compensation. -/
def sweepReads (o : LongOp) (d : SweepDesc) (k : Nat) : List (Nat × Nat) :=
  let hm := sweepHdr o 0
  let hv := sweepHdr o 1
  [(d.dw + k * 65536, 65536), (d.mData + k * tileBytes hm.fmt, tileBytes hm.fmt),
   (d.vData + k * tileBytes hv.fmt, tileBytes hv.fmt), (d.whi + k * 32768, 32768), (d.comp + k * 16384, 16384)]

/-- What tile `k` writes over its inputs: records and codes of the moments, master weights and compensation, and the serving tensor. -/
def sweepWrites (o : LongOp) (d : SweepDesc) (k : Nat) : List (Nat × Nat) :=
  let hs := sweepHdr o 2
  sweepRecords o d k ++ (sweepReads o d k).drop 1 ++ (if d.sHdr = 0 then []
    else (d.sRec + k * scaleRecordSize hs.group, scaleRecordSize hs.group) :: codeRuns hs.fmt hs.group (d.sData + k * tileBytes hs.fmt))

/-- Headers of a sweep: at most three of 64 bytes. -/
def SweepDesc.hdrs (d : SweepDesc) : List Nat := [d.mHdr, d.vHdr] ++ (if d.sHdr = 0 then [] else [d.sHdr])

/-- Flags of Table 05-4. -/
abbrev uNAN_OUT : Nat := 0x1000
abbrev uBAD_DESC : Nat := 0x2000
abbrev uBAD_HEADER : Nat := 0x4000
abbrev uSAT : Nat := 0x8000
abbrev uRETRIED : Nat := 0x10000
abbrev uTORN : Nat := 0x20000

/-- A run of bytes cut at the words of the bank. -/
def cutWords : Nat → Nat → List Byte → List (Nat × List Byte)
  | 0, _, _ => []
  | fuel + 1, a, bs =>
    if bs = [] then []
    else
      let n := eccUnit a - low50 a % eccUnit a
      (a, bs.take n) :: cutWords fuel (a + n) (bs.drop n)

/-- Bytes cut to runs, in order. -/
def fillRuns : List (Nat × Nat) → List Byte → List (Nat × List Byte)
  | [], _ => []
  | (a, n) :: rest, bs => (a, bs.take n) :: fillRuns rest (bs.drop n)

/-- Runs of bytes as pieces of a word each. -/
def toPieces (rs : List (Nat × List Byte)) : List (Nat × List Byte) := rs.flatMap (fun r => cutWords (r.2.length + 1) r.1 r.2)

/-- Write pieces of a word each, in order; answers the words that held an error, which stay as they are (R139). -/
def writePieces (s : State) : List (Nat × List Byte) → State × List Nat
  | [] => (s, [])
  | (a, bs) :: rest =>
    let r := writePiece s a bs
    let t := writePieces r.1 rest
    (t.1, if r.2 then a :: t.2 else t.2)

/-- The header with a `RND` and the `HDR_CRC` that goes with it (R47). -/
def headerWith (bs : List Byte) (rnd : Nat) : List Byte :=
  let w := leAt bs 4 4
  let b1 := spliceB bs 4 (toLE 4 (w - bitsOf w 8 7 * 2 ^ 7 + rnd % 4 * 2 ^ 7))
  spliceB b1 0x3C (toLE 4 (crc32c (sliceB b1 0 0x3C)).toNat)

/-- The bytes of the header at `a` that hold `RND` and `HDR_CRC`, as recording the mode writes them: no other byte changes (R47, R126). -/
def headerRuns (s : State) (a rnd : Nat) : List (Nat × List Byte) :=
  let bs := headerWith (readMem s a 64) rnd
  [(a + 4, sliceB bs 4 2), (a + 0x3C, sliceB bs 0x3C 4)]

/-- What one tile of a sweep comes to: the bytes to write, and what it counts and flags. -/
structure SweepTile where
  runs : List (Nat × List Byte)
  flags : Nat
  sats : Nat
  nans : Nat

/-- Sweep tile `k` of the run (R102), with the moments' scale records as fetched at its start. `NAN_OUT` looks at the new FP32 values; a
finite one whose BF16 value is infinite does not set it (log entry 103). -/
def sweepTile (s : State) (o : LongOp) (d : SweepDesc) (k : Nat) : SweepTile :=
  let at_ (i : Nat) : List Byte := let r := (sweepReads o d k).getD i (0, 0); readMem s r.1 r.2
  let dw := at_ 0
  let hm := sweepHdr o 0
  let hv := sweepHdr o 1
  let m : MomentIn := ⟨hm, o.scales.take (scaleRecordSize hm.group), at_ 1⟩
  let v : MomentIn := ⟨hv, o.scales.drop (scaleRecordSize hm.group), at_ 2⟩
  let whi := at_ 3
  let comp := at_ 4
  let res := (List.range tileElems).map (fun e =>
    sweepElem d (leAt dw (4 * e) 4) (m.value e) (v.value e) (masterOf (leAt whi (2 * e) 2) (comp.getD e 0)))
  let j := d.first + k
  let q (h : Header) (rnd : Nat) (xs : List Nat) : TileOut := quantTile h rnd o.seed.toNat o.step.toNat j xs
  let qm := q hm d.rndM (res.map (fun r => r.1))
  let qv := q hv d.rndV (res.map (fun r => r.2.1))
  let qs := q (sweepHdr o 2) d.rndS (res.map (fun r => r.2.2))
  let sp := res.map (fun r => splitMaster r.2.2)
  let ser := decide (d.sHdr ≠ 0)
  let outs := qm.rec_ ++ qv.rec_ ++ qm.codes ++ qv.codes ++ sp.flatMap (fun p => toLE 2 p.1) ++ sp.map (fun p => p.2) ++
    (if ser then qs.rec_ ++ qs.codes else [])
  let sats := qm.sats + qv.sats + (if ser then qs.sats else 0)
  let odd := res.any (fun r => fpNotFinite fp32 r.1 || fpNotFinite fp32 r.2.1 || fpNotFinite fp32 r.2.2)
  { runs := fillRuns (sweepWrites o d k) outs
    flags := bitIf odd uNAN_OUT ||| bitIf (decide (0 < sats)) uSAT, sats := sats
    nans := qm.nans + qv.nans + (if ser then qs.nans else 0) }

/-- The modes that a sweep has used, as its headers record them once a tile counts as written (R47; log entry 143). -/
def SweepDesc.modes (s : State) (d : SweepDesc) : List (Nat × List Byte) :=
  toPieces (headerRuns s d.mHdr d.rndM ++ headerRuns s d.vHdr d.rndV ++ (if d.sHdr = 0 then [] else headerRuns s d.sHdr d.rndS))

/-- Cycles of one tile (Table 05-6). -/
def sweepTileCycles (d : SweepDesc) : Nat := 2560 + (if d.sHdr = 0 then 1536 else 2304) + 64

/-- The working area of a sweep: what it holds while and after tiles run is open. -/
def spoilScratch (s : State) (d : SweepDesc) : State := spoil s [(d.scratch, 196608)]

/-- Status of an operation that has settled one; OK before. -/
def LongOp.status (o : LongOp) : Nat := (o.run.map (fun r => r.status)).getD sOK

/-- Condition bits that an operation has gathered. -/
def LongOp.bits (o : LongOp) : Nat := (o.run.map (fun r => r.flags.toNat)).getD 0

/-- A running sweep stops (R103): the tiles counted have been written in full, and one whose write-back is under way is torn. The 64
cycles of Table 05-6 for a tile's start and write-back are all its write-back (log entry 104). -/
def stopSweep (s : State) (n : Nat) (o : LongOp) : State × Nat :=
  let d := SweepDesc.parse o.desc
  let s1 := wr s (pgStope n) UPD_DONE (BitVec.ofNat 32 o.tiles)
  let s2 := if o.fetched && decide (o.tiles < d.count) then spoilScratch s1 d else s1
  match o.outBuf with
  | some ps => (spoil s2 (ps.map (fun p => (p.1, p.2.length))), o.bits ||| bitIf (decide (o.tiles < d.count)) uTORN)
  | none => (s2, o.bits)

-- the quantise operation ---------------------------------------------------------------------------------------------------------

/-- A quantise descriptor (Table 06-6) with the fields that a header supplies taken from it (R125). -/
structure QuantDesc where
  src : Nat
  dst : Nat
  scl : Nat
  nug : Nat
  hdr : Nat
  rotSeed : Nat
  base : Nat
  tensorId : Nat
  rotId : Nat
  thresh : Nat
  len : Nat
  lines : Nat
  srcL : Nat
  srcE : Nat
  fmt : Nat
  group : Nat
  rnd : Nat
  sq8 : Bool
  src32 : Bool
  rotSize : Nat
  static : Bool
  zp : Nat
  slot : Nat
  slotEn : Bool
  dstL : Nat
  rOff : Nat
  bad : Bool
deriving DecidableEq, Repr

def QuantDesc.parse (bs : List Byte) : QuantDesc :=
  let q (o : Nat) := leAt bs o 8
  let w (o : Nat) := leAt bs o 4
  let c := w 0x50
  { src := q 0, dst := q 8, scl := q 0x10, nug := q 0x18, hdr := q 0x20, rotSeed := q 0x28, base := q 0x30, tensorId := w 0x38
    rotId := w 0x3C, thresh := w 0x40, len := leAt bs 0x44 2, lines := leAt bs 0x46 2, srcL := w 0x48, srcE := w 0x4C
    fmt := bitsOf c 4 0, group := bitsOf c 6 5, rnd := bitsOf c 8 7, sq8 := bitsOf c 9 9 == 1, src32 := bitsOf c 10 10 == 1
    rotSize := bitsOf c 13 11, static := bitsOf c 14 14 == 1, zp := bitsOf c 23 16, slot := bitsOf c 26 24
    slotEn := bitsOf c 27 27 == 1, dstL := w 0x54, rOff := w 0x58
    bad := bitsOf c 15 15 != 0 || bitsOf c 31 28 != 0 || leAt bs 0x5C 36 != 0 }

/-- With a header, its fields stand in place of the descriptor's. -/
def QuantDesc.withHeader (d : QuantDesc) (h : Header) : QuantDesc :=
  { d with fmt := h.fmt, group := h.group, sq8 := h.sclass == 1, zp := h.zp, tensorId := h.tensorId, rotSize := h.rotSize
           rotId := h.rotId, rotSeed := h.rotSeed, thresh := h.nugThresh }

/-- A line is a row of face-ordered TERN weight words for 4-bit activation codes: its groups fill a row's slots, and lines are a row apart
(R31, R59, R60; log entry 102). -/
def QuantDesc.faceLine (d : QuantDesc) : Bool := decide (d.fmt = 1) && decide (d.dstL = 64) && decide (d.len = ternSlots d.group * groupSize d.group)

/-- Bytes of a line's codes, and of the scales and nugget records of the operation. -/
def QuantDesc.lineBytes (d : QuantDesc) : Nat :=
  if d.faceLine then ternSlots d.group * ternFaceBytes (groupSize d.group)
  else if d.fmt = 1 then d.len / groupSize d.group * ceilDiv (groupSize d.group) 5 else ceilDiv (d.len * fmtBits d.fmt) 8
def QuantDesc.groups (d : QuantDesc) : Nat := d.lines * d.len / groupSize d.group
def QuantDesc.sclBytes (d : QuantDesc) : Nat :=
  if d.sq8 then d.lines * d.len / tileElems * scaleRecordSize d.group else d.groups

/-- Bytes of a line's source, from its first element to its last. -/
def QuantDesc.srcBytes (d : QuantDesc) : Nat := (d.len - 1) * d.srcE + (if d.src32 then 4 else 2)

/-- The ranges that the operation reads and writes. -/
def QuantDesc.reads (d : QuantDesc) : List (Nat × Nat) :=
  [(d.src, (d.lines - 1) * d.srcL + d.srcBytes)] ++ (if d.static then [(d.scl, d.sclBytes)] else []) ++ (if d.hdr = 0 then [] else [(d.hdr, 64)])
def QuantDesc.writes (d : QuantDesc) : List (Nat × Nat) :=
  [(d.dst, (d.lines - 1) * d.dstL + d.lineBytes)] ++ (if d.static then [] else [(d.scl, d.sclBytes)]) ++
  (if d.nug = 0 then [] else [(d.nug, 8 * d.groups)]) ++ (if d.hdr = 0 then [] else [(d.hdr, 64)])

/-- The source elements of the operation as runs of bytes. -/
def QuantDesc.elemRuns (d : QuantDesc) : List (Nat × Nat) :=
  (List.range (d.lines * d.len)).map (fun i => (d.src + i / d.len * d.srcL + i % d.len * d.srcE, if d.src32 then 4 else 2))

/-- Source values of a line as FP32. -/
def QuantDesc.line (s : State) (d : QuantDesc) (r : Nat) : List Nat :=
  (List.range d.len).map (fun e =>
    let a := d.src + r * d.srcL + e * d.srcE
    if d.src32 then leNat (readMem s a 4) else bf16ToFp32 (leNat (readMem s a 2)))

/-- The line after its rotation (R74). Its blocks start at the line's element 0, whose position is `R_OFF`, also where `R_OFF` is no multiple
of the rotation's size (log entry 105). -/
def QuantDesc.rotated (d : QuantDesc) (xs : List Nat) : List Nat :=
  if d.rotSize = 0 then xs else rotateLine d.rotSize d.rotSeed d.rotId (xs.length + 1) d.rOff xs

/-- What a quantise operation gives. -/
structure QuantOut where
  codes : List (List Byte)
  scales : List Byte
  nugs : List Byte
  amax : Nat
  sats : Nat
  nans : Nat
  taken : Nat
  overs : Nat
  range : Bool

/-- Quantise every line (R126). The finite sources of a static group with byte 0xFF stay in the largest magnitude (log entry 148). -/
def QuantDesc.run (s : State) (d : QuantDesc) (h : Header) (seed step : Nat) : QuantOut :=
  let lines := (List.range d.lines).map (fun r => d.line s r)
  let rot := lines.map d.rotated
  let xs := rot.flatten
  let g := groupSize d.group
  let cfg : QCfg := { fmt := d.fmt, rnd := d.rnd, book := h.book, zp := d.zp, seed := seed, step := step, tensorId := d.tensorId
                      nug := decide (d.nug ≠ 0), thresh := d.thresh }
  let groups := chunks g (xs.length + 1) xs
  let s2s := (chunks tileElems (xs.length + 1) xs).map (storedS2 d.fmt h.book h.cbScale)
  let qs := groups.mapIdx (fun k ys =>
    if d.sq8 then quantGroupSq8 cfg (d.base + k * g) (s2s.getD (k * g / tileElems) 0) ys
    else quantGroupE8m0 cfg (d.base + k * g) (if d.static then some (readByte s (d.scl + k)).toNat else none) ys)
  let sum (f : QGroup → Nat) : Nat := (qs.map f).foldl (· + ·) 0
  let bytes := qs.map (fun q => BitVec.ofNat 8 q.scale)
  let recs := (chunks (tileElems / g) (qs.length + 1) bytes).mapIdx (fun i bs =>
    let head := toLE 4 (s2s.getD i 0) ++ toLE 4 0 ++ bs
    head ++ List.replicate (scaleRecordSize d.group - head.length) 0)
  { codes := (chunks (d.len / g) (qs.length + 1) (qs.map (fun q => q.codes))).map (if d.faceLine then fun gs => gs.flatMap packTernFace else packGroups d.fmt)
    scales := if d.sq8 then recs.flatten else bytes
    nugs := qs.flatMap (fun q => toLE 8 q.record.toNat)
    amax := amaxOf xs, sats := sum (fun q => q.sats), nans := sum (fun q => q.nans)
    taken := sum (fun q => (if q.record.v0 then 1 else 0) + (if q.record.v1 then 1 else 0))
    overs := sum (fun q => if q.record.overs then 1 else 0)
    range := decide (d.rotSize ≠ 0) && lines.any (fun l => rotationOverflows d.rotSize d.rotSeed d.rotId (l.length + 1) d.rOff l) }

/-- A running QUANT stops: what it had written of its outputs is open. -/
def stopQuant (s : State) (o : LongOp) : State :=
  let d := QuantDesc.parse o.desc
  let d1 := if d.hdr = 0 then d else d.withHeader (parseHeader o.hdrW)
  match o.outBuf with
  | some ps => spoil s (ps.map (fun p => (p.1, p.2.length)))
  | none => if o.started = none ∨ o.status ≠ sOK then s else spoil s (d1.writes.filter (fun r => r.1 ≠ d1.hdr))

end Sys2Proof.Machine
end

