-- ==== Sys2Proof/Machine/Ends.lean ====
section
/-!
DEFINITION. How long operations end: a stope's FACE, UPD and QUANT (R68, R104, R126), a hoist script with its records
(R207, R209), and every operation of an originator at once (R271, R347, R351).
-/

namespace Sys2Proof.Machine

/-- The operation at the head of a stope's queue begins; the reads of its start follow (R44, R67). -/
def startHead (s : State) (n : Nat) : State :=
  let x := stope s n
  match x.queue with
  | o :: rest => setStope s n { x with queue := { o with started := some (o.started.getD (now s (n / 256))) } :: rest }
  | [] => s

/-- Where a long operation's status word is kept. -/
def keepWord (s : State) (n : Nat) (k : LongKind) (w : W32) : State :=
  match k with
  | .face => wr s (pgFace n) TILE_STATUS w
  | .upd => wr s (pgStope n) UPD_STATUS w
  | .quant => s

/-- A snapshot's values become live: `BLK_COMMIT` reads its generation and `COMMITTED` is set (R295). -/
def applyVals (s : State) (c : Commit) : State :=
  let pg := gpage c.die c.page
  let s1 := c.vals.foldl (fun t p => wr t pg p.1 p.2) { s with commits := s.commits.filter (fun x => x ≠ c) }
  setIrq (wr s1 pg BLK_COMMIT c.g) pg 4

/-- A face-tile boundary: a commit of the outlier page that waits for one is applied, and the live assay settings are in force
(R69, R89, R296, R340). -/
def tileBoundary (s : State) (n : Nat) : State :=
  (s.commits.filter (fun c => decide (gpage c.die c.page = pgOutlier n))).foldl applyVals (setStope s n { stope s n with assay := none })

/-- A long operation of stope `n` leaves its queue with a status word, and the next begins; where the running face tile leaves lies a boundary. -/
def endLong (s : State) (n : Nat) (o : LongOp) (w : W32) : State :=
  let x := stope s n
  let s1 := countDeadline (setStope s n { x with queue := x.queue.filter (fun p => p.op ≠ o.op) }) (n / 256) (w.toNat % 16)
    (w.toNat / 16 % 256)
  let s2 := { s1 with canaries := s1.canaries.filter (fun c => c.op ≠ o.op) }
  let s3 := if o.kind = .face ∧ o.started.isSome = true then tileBoundary s2 n else s2
  startHead (completeAsync (keepWord s3 n o.kind w) n o.op w) n

/-- Bits 17 of `TILE_STATUS`, FELL_BACK, and 19, RETRIED (Table 03-4). -/
abbrev tFELL_BACK : Nat := 0x20000
abbrev tRETRIED : Nat := 0x80000

/-- A tile whose recompute on the W4A8 path has ended counts in `FB_TOTAL` as it ends, whatever its status (R88; log entry 106). -/
def countFallBack (s : State) (n : Nat) (o : LongOp) : State :=
  if o.bits / tFELL_BACK % 2 = 1 ∧ (o.run.any (fun r => r.fallback)) = false then bump s (pgOutlier n) FB_TOTAL 1 else s

/-- A face tile whose outcome is settled OK or CLIPPED ends: what is left of its outputs is written (R67). A word that holds an error
poisons it; answers those words. -/
def finishTile (s : State) (n : Nat) (o : LongOp) (ps : List (Nat × List Byte)) : State × List Nat :=
  let w := writePieces s ps
  let bits := o.bits ||| bitIf o.retried tRETRIED
  let st := if w.2 = [] then o.status else sPOISONED
  let s1 := if st = sCLIPPED then bump w.1 (pgOutlier n) CLIP_TOTAL 1 else w.1
  (endLong (countFallBack s1 n o) n o (wordBits st 0 bits), w.2)

/-- The outputs that a face tile has written are taken back: each word that still holds what was written there (R67; log entry 107). -/
def undoOuts (s : State) (o : LongOp) : State :=
  o.wrote.foldl (fun t w => if readMem t w.addr w.new.length = w.new then
    (if w.bad then markBad (writeMem t w.addr w.old) w.addr else writeMem t w.addr w.old) else t) s

/-- A long operation fails, or ends with the DENIED or POISONED that it has already met (R68, R104). A face tile that fails leaves its destination
unchanged (R67). A sweep counts the tiles that it has written. -/
def failLong (s : State) (n reason : Nat) (o : LongOp) : State :=
  let met := decide (o.status = sDENIED) || decide (o.status = sPOISONED)
  let st := if met then o.status else sFAILED
  let rs := if met then 0 else reason
  match o.kind with
  | .face => endLong (countFallBack (if met then s else undoOuts s o) n o) n o (wordBits st rs (o.bits ||| bitIf o.retried tRETRIED))
  | .upd =>
    let r := stopSweep s n o
    endLong r.1 n o (wordBits st rs (r.2 ||| bitIf o.retried uRETRIED))
  | .quant => endLong (stopQuant s o) n o (wordBits st rs o.bits)

/-- The running operation of a stope fails (R151). -/
def failRunning (s : State) (n reason : Nat) : State :=
  match (stope s n).queue with
  | o :: _ => failLong s n reason o
  | [] => s

-- scripts -----------------------------------------------------------------------------------------------------------

/-- A record that a script still holds as it ends stands in its place before the word returns, where that is on the own device and is served; one
for a peer is on its way (R209; log entry 117). -/
def storeRecord (c : Nat) (r : Script) (s : State) (w : RecWrite) : State :=
  let a := r.recAddr + 16 * w.index
  if onDevice s a && grants r.windows a 16 rtWRITE && inRange a 16 && decide (aSpace a < 2) && (decide (aDie a = channelDie c) || decide (s.bridge.st = 2)) &&
      (decide (aSpace a = 1) || decide (rangeReason s a 16 = 0)) then (store s a w.data).1 else s

/-- A script completes: its channel is free, and its launcher has the answer. One that ends before its records and its summary have been written
has them written now (R209). -/
def endScript (s : State) (c status reason : Nat) : State :=
  let ch := channel s c
  match ch.run with
  | none => s
  | some r =>
    let s0 := if r.summed then s else pump (updScript s c (fun (q : Script) => q.sumUp status reason)) c
    let s1 := (((channel s0 c).run.map (fun q => q.recs)).getD []).foldl (storeRecord c r) s0
    let s2 := setChannel (countDeadline s1 (c / 128) status reason) c { ch with run := none, lastStatus := status, lastReason := reason, descIdx := r.idx, steps := r.stepsDone }
    if r.by_.ty = btStope then completeAsync s2 r.by_.inst r.op (statusWord status reason) else s2

-- everything an originator has outstanding -------------------------------------------------------------------------------

/-- Fail the operations of die `d`'s layer that satisfy `p`. -/
def failOps (s : State) (d reason : Nat) (p : ROp → Bool) : State :=
  ((layer s d).ops.filter p).foldl (fun t o => endOp t d o sFAILED reason [] false) s

/-- Fail every long operation of a stope. -/
def failQueue (s : State) (n reason : Nat) : State := (stope s n).queue.foldl (fun t o => failLong t n reason o) s

/-- Fail the scripts whose channel and launcher satisfy `p`. -/
def failScripts (s : State) (reason : Nat) (p : Nat → Script → Bool) : State :=
  (List.range 256).foldl (fun t c =>
    match (channel t c).run with
    | some r => if p c r then endScript t c sFAILED reason else t
    | none => t) s

/-- Fail every operation that stope `n` has outstanding (Table 18-8). -/
def failStope (s : State) (n reason : Nat) : State :=
  let s1 := failOps s (n / 256) reason (fun o => decide (o.origin = .stope (Fin.ofNat 512 n)))
  let s2 := failScripts s1 reason (fun _ r => decide (r.by_ = ⟨btStope, n⟩))
  flush (failQueue s2 n reason) (n / 256)

/-- Aperture accesses that wait are turned away. -/
def failHeld (s : State) : State :=
  (s.host.aps.filter (fun a => a.held)).foldl (fun t a =>
    finishAperture t { a with held := false, pieces := [⟨0, true, false, []⟩] }) s

/-- Every operation that dies in `ds` originated completes FAILED (R347, R351). -/
def failAll (s : State) (ds : List Nat) (reason : Nat) : State :=
  let s1 := ds.foldl (fun t d => failOps t d reason (fun _ => true)) s
  let s2 := failScripts s1 reason (fun c _ => ds.contains (c / 128))
  let s3 := (List.range 512).foldl (fun t n => if ds.contains (n / 256) then failQueue t n reason else t) s2
  if ds.contains 0 then failHeld s3 else s3

/-- A GETS that is not served: its FILL says FAILED with reason drained. -/
def noFill (s : State) (d : Nat) (m : Msg) : State :=
  sendCoh s d m.src.toNat m.src.toNat 4 0x11 m.cls.toNat (lineAddr s (low50 m.addr.toNat / 256 * 256)) 0 0 sFAILED rDrained [] (some m.deadline.toNat)

/-- What waits at die `d`'s layer, not yet judged, is not performed (R351): an operation or a GETS answers FAILED with reason drained, a multicast
copy that has come by a port with a combined completion of one failing member. -/
def failWaiting (d : Nat) (s : State) (i : InMsg) : State :=
  if i.m.opc = 0x10 then noFill s d i.m
  else if i.m.opc = 5 ∧ i.via.isSome = true then
    let c : Combine := { id := 0, msg := i.m, up := i.via.getD 31, depth := 0, down := [], wait := [], own := false, status := 0, reason := 0, member := 0
                         count := 0, sent := false }
    queueFrame s d { p := .op ((c.fail sFAILED rDrained (nodeDie s d) 1).comp s d), dest := 0x10000 + c.up, lane := i.m.cls.toNat, hopsLeft := 15
                     fromBridge := false, inPort := none }
  else if i.m.opc = 1 ∨ i.m.opc = 2 ∨ i.m.opc = 5 then homeComp s d i.m sFAILED rDrained []
  else s

/-- The operations that dies in `ds` hold as home are not performed: each answers FAILED with reason drained (R351). -/
def failHomes (s : State) (ds : List Nat) : State :=
  ds.foldl (fun t d =>
    let hs := (layer t d).homes
    let keep (x : Access) : Bool := match x.client with
      | .home e _ _ | .source e _ | .writeBack e _ => decide (e ≠ d)
      | .canary st _ _ => decide (st.val / 256 ≠ d)
      | .none => decide (aDie x.addr ≠ d)
    let t1 := { t with
      banks := (t.banks.map (fun p => (p.1, { p.2 with queue := p.2.queue.filter keep }))).filter (fun p => p.2 ≠ Bank.reset)
      stackTab := (t.stackTab.map (fun p => (p.1, { p.2 with queue := p.2.queue.filter keep }))).filter
        (fun p => p.2 ≠ Stack.reset) }
    let held := (layer t1 d).heldPuts.map (fun m => (m, HomeFor.remote)) ++
      (layer t1 d).dir.flatMap (fun l => l.heldWrites.map (fun w => (w.m, w.for_)))
    let gets := (layer t1 d).dir.flatMap (fun l => l.heldGets)
    let t2 := setLayer t1 d { layer t1 d with
      homes := [], heldPuts := [], inbox := [], dir := (layer t1 d).dir.map (fun l => { l with heldWrites := [], heldGets := [] }) }
    let t3 := gets.foldl (fun u m => noFill u d m) ((layer t1 d).inbox.foldl (failWaiting d) t2)
    (hs.map (fun h => (h.msg, h.for_)) ++ held).foldl (fun u p => match p.2 with
      | .remote => homeComp u d p.1 sFAILED rDrained []
      | .hoist c op => innerDone u c op sFAILED rDrained []
      | .fill _ _ => noFill u d p.1
      | .hit _ _ _ | .keep _ | .back _ | .image _ _ | .lost => u) t3) s

end Sys2Proof.Machine
end

