-- ==== Sys2Proof/Machine/Tallies.lean ====
section
/-!
DEFINITION. Leases and tallies: who may hold a resource, handover, forced recall, lease ends (R146 to R152, R195, R210,
R284, R300, R301), and bank modes (R145).
-/

namespace Sys2Proof.Machine

/-- The page that carries a resource's lease (Table 15-11). -/
def resPage : Res → Nat
  | .bank b => pgBank b
  | .channel c => pgChannel c
  | .mailbox m => pgMailbox m
  | .routeLock d => pgRouter d
  | .stackHold k => pgStack k

/-- The resource whose lease a page carries. -/
def resOf (pg : Nat) : Option Res :=
  let d := pg / 8192
  let kj := pageKind d (pg % 8192)
  match kj.1 with
  | .pillar => some (.bank (Fin.ofNat 544 (256 * d + kj.2)))
  | .gallery => some (.bank (Fin.ofNat 544 (512 + 16 * d + kj.2)))
  | .channel => some (.channel (Fin.ofNat 256 (128 * d + kj.2)))
  | .mailbox => some (.mailbox (Fin.ofNat 32 kj.2))
  | .router => some (.routeLock (Fin.ofNat 2 d))
  | .stack => some (.stackHold (Fin.ofNat 8 (4 * d + kj.2)))
  | _ => none

/-- The block a recall or a lease end returns the resource to (Table 01-3); the acting headframe for a faulty foreman (R18). -/
def recaller (s : State) (r : Res) : Agent :=
  let pg := resPage r
  let p := match r with
    | .stackHold _ => acting s (pg / 8192)
    | _ => controlParent s pg
  if p.ty = btForeman ∧ foremanFailed s p.inst = true then acting s (pg / 8192) else p

/-- Holders allowed (Table 07-7, R195, R284, Table 15-11). -/
def mayHold (s : State) (r : Res) (h : Agent) : Bool :=
  let pg := resPage r
  let d := pg / 8192
  decide (h = acting s d) || decide (h = controlParent s pg) ||
  (match r with
   | .bank b =>
     (decide (h.ty = btHoist) && decide (h.inst < 64) && decide (h.inst / 32 = d)) || decide (h = ⟨btRouter, d⟩) ||
     (if b.val < 512 then decide (h = ⟨btStope, b.val⟩)
      else (decide (h.ty = btStope) && decide (h.inst < 512) && decide (levelOf h.inst = b.val - 512)) ||
        decide (h = ⟨btLevel, b.val - 512⟩))
   | .channel _ => (decide (h.ty = btStope) && decide (h.inst < 512) && decide (h.inst / 256 = d)) || decide (h = ⟨btHost, 0⟩)
   | .mailbox m => decide (h.ty = if m.val < 16 then btHost else btHeadframe) && decide (h.inst < 16)
   | .routeLock _ => decide (h = ⟨btHost, 0⟩)
   | .stackHold _ => false)

/-- `w` writes as the holder: where a level holds a gallery its 16 stopes do (Table 07-7), and a mailbox's holder is named by a task of its
side (R284). -/
def writesAsHolder (s : State) (r : Res) (w : Agent) : Bool :=
  let h := holder s (resPage r)
  match r with
  | .mailbox _ => decide (w.ty = h.ty)
  | .bank _ => holds h w
  | _ => decide (w = h)

/-- A stope's operations that the loss of bank `b` by holder `h` fails: the running one of each stope concerned. -/
def failHolder (s : State) (b : Nat) (h : Agent) : State :=
  if h.ty = btStope then failRunning s h.inst rWithdrawn
  else if h.ty = btLevel ∧ 512 ≤ b then
    (List.range 16).foldl (fun t x => failRunning t (256 * (h.inst / 16) + 16 * (h.inst % 16) + x) rWithdrawn) s
  else s

/-- The resource passes to a holder: every change of a bank's holder clears `EXCL` and fails what the old holder runs. -/
def passTo (s : State) (r : Res) (nx : Agent) : State :=
  let pg := resPage r
  let h := holder s pg
  let s1 := wr s pg BLK_OWNER (ownerWord nx)
  match r with
  | .bank b => failHolder (wr s1 pg EXCL 0) b.val h
  | _ => s1

/-- The script of a channel stops (R210): no descriptor issues; it completes with this reason once its inner operations
have ended. -/
def stopScript (s : State) (c reason : Nat) : State :=
  let ch := channel s c
  match ch.run with
  | some r => setChannel s c { ch with run := some { r with ended := some (r.ended.getD (sFAILED, reason)) } }
  | none => s

/-- A forced recall to `nx` (R151, R210): it is never refused for the state of the resource, and has no effect where `nx` holds it. One of a
mailbox comes before a post of its SCLK cycle (R286). -/
def recallLease (s : State) (r : Res) (nx : Agent) : State :=
  let pg := resPage r
  let h := holder s pg
  let s1 := event (passTo s r nx) pg
  if h = nx then s else match r with
  | .mailbox m => beforePosts s m (fun t => event (passTo t r nx) pg)
  | .bank b =>
    let s2 := bump (wr s1 pg LAST_RECALL (ownerWord h)) pg RECALLS 1
    setBank s2 b { bank s2 b with toMode := some 3 }
  | .channel c => stopScript s1 c rWithdrawn
  | _ => s1

/-- Global time in µs, low 32 bits, on die `d` (R150). -/
def nowMicros (s : State) (d : Nat) : W32 := BitVec.ofNat 32 (now s d / 1000)

/-- The lease's end has come. -/
def leaseOver (s : State) (r : Res) : Bool :=
  let pg := resPage r
  let l := rd s pg BLK_LEASE_END
  decide (l ≠ 0) && decide ((nowMicros s (pg / 8192) - l).toNat < 2 ^ 31)

/-- The lease ends: a recall to the block of Table 01-3, and the lease end is cleared (R150). -/
def endLease (s : State) (r : Res) : State := wr (recallLease s r (recaller s r)) (resPage r) BLK_LEASE_END 0

/-- A lease whose end has come ends before a write reaches its page (R301). -/
def dueEnd (s : State) (r : Res) : State := if leaseOver s r then endLease s r else s

/-- What a change of a resource's holder changes beside the owner (R17). -/
def ownerUndo (s : State) (r : Res) : List Undo :=
  let pg := resPage r
  let reg (off : Nat) : Undo := .reg off (rd s pg off)
  match r with
  | .bank b => [reg EXCL, reg LAST_RECALL, reg RECALLS, reg BLK_IRQ_STATUS, .bankMode b (bank s b).toMode]
  | .channel c => [reg BLK_IRQ_STATUS, .channel c (channel s c)]
  | _ => [reg BLK_IRQ_STATUS]

/-- A recall by the control parent or the acting headframe (R151), followed at once by a handover where it names another holder; one that
names a writer which holds the resource has no effect. -/
def recallTo (s : State) (r : Res) (w nx : Agent) : State :=
  if nx = w then recallLease s r w else passTo (recallLease s r w) r nx

/-- A handover by the holder (R149); one that names the holder itself changes nothing. -/
def handover (s : State) (r : Res) (nx : Agent) : State := if nx = holder s (resPage r) then s else passTo s r nx

/-- A write to `BLK_OWNER` (R17, R149, R151, R301): a handover by the holder, a recall by a higher rank, or refused. -/
def ownerWrite (s : State) (w : Agent) (r : Res) (nx : Agent) : State :=
  let pg := resPage r
  if isSafe s (pg / 8192) then s
  else
    let s1 := dueEnd s r
    if !mayHold s1 r nx || !(writesAsHolder s1 r w || isParent s1 w pg) then refuseWrite s1 w pg BLK_OWNER
    else ranked s1 w pg BLK_OWNER (ownerUndo s1 r) (fun t => if writesAsHolder t r w then handover t r nx else recallTo t r w nx)

/-- A write to `BLK_LEASE_END` (R17, R150, R301). -/
def leaseWrite (s : State) (w : Agent) (r : Res) (l : W32) : State :=
  let pg := resPage r
  if isSafe s (pg / 8192) then s
  else
    let s1 := dueEnd s r
    let ahead := (l - nowMicros s (pg / 8192)).toNat
    if isParent s1 w pg || (writesAsHolder s1 r w && decide (l ≠ 0) && decide (1 ≤ ahead) && decide (ahead ≤ 1800000000)) then
      ranked s1 w pg BLK_LEASE_END [] (fun t => wr t pg BLK_LEASE_END l)
    else refuseWrite s1 w pg BLK_LEASE_END

/-- A write to a bank's `MODE` (R145). -/
def modeWrite (s : State) (w : Agent) (b : Fin 544) (v : Nat) : State :=
  let pg := pgBank b
  if isSafe s (pg / 8192) then s
  else if !isParent s w pg || decide (v = 1) || (decide (v = 2) && !decide (holder s pg = w)) then refuseWrite s w pg MODE
  else ranked s w pg MODE [.bankMode b (bank s b).toMode] (fun t =>
    if fld (rd t pg MODE) 1 0 = v ∧ (bank t b).toMode = none then t else setBank t b { bank t b with toMode := some v })

/-- MODE_NORMAL: a write of 0, accepted from every mode. -/
def execModeNormal (w : Agent) (b : Fin 544) (s : State) : Out := .next (modeWrite s w b 0)

/-- MODE_STARTUP: a write of 1 has no effect and is refused. -/
def execModeStartup (w : Agent) (b : Fin 544) (s : State) : Out := .next (modeWrite s w b 1)

/-- MODE_TEST: a write of 2, accepted only while the writer holds the tally. -/
def execModeTest (w : Agent) (b : Fin 544) (s : State) : Out := .next (modeWrite s w b 2)

/-- MODE_RECOVERY: a write of 3. -/
def execModeRecovery (w : Agent) (b : Fin 544) (s : State) : Out := .next (modeWrite s w b 3)

/-- MODE_CHANGE_APPLIED: the array has drained. -/
def execModeChangeApplied (b : Fin 544) (s : State) : Out :=
  .next (match (bank s b).toMode with
    | some v => wr (setBank s b { bank s b with toMode := none }) (pgBank b) MODE (BitVec.ofNat 32 v)
    | none => s)

/-- HANDOVER: the holder's write to `BLK_OWNER`. -/
def execHandover (w : Agent) (r : Res) (nx : Agent) (s : State) : Out := .next (ownerWrite s w r nx)

/-- FORCED_RECALL: a write to `BLK_OWNER` by the control parent or the acting headframe. -/
def execForcedRecall (w : Agent) (r : Res) (nx : Agent) (s : State) : Out := .next (ownerWrite s w r nx)

/-- LEASE_END_WRITE. -/
def execLeaseEndWrite (w : Agent) (r : Res) (l : W32) (s : State) : Out := .next (leaseWrite s w r l)

/-- LEASE_END: at the tick at which the lease ends. -/
def execLeaseEnd (r : Res) (s : State) : Out := .next (dueEnd s r)

end Sys2Proof.Machine
end

