-- ==== Sys2Proof/Machine/Faults.lean ====
section
/-!
DEFINITION. Errors: their records, the permanent-fault rule, taking a unit out of service, the drain, the safe state and
split mode (R341 to R352).
-/

namespace Sys2Proof.Machine

/-- The stopes of half-level `h`. -/
def halfStopes (h : Nat) : List Nat := (List.range 8).map (fun i => 16 * (h / 2) + 8 * (h % 2) + i)

/-- Every register of a page past its header goes back to its reset value. -/
def clearBody (s : State) (pg : Nat) : State :=
  let keep {α : Type} (p : Nat × α) : Bool := !(decide (rkey pg 0x40 ≤ p.1) && decide (p.1 < rkey pg 0x1000))
  { s with regs := s.regs.filter keep, staged := s.staged.filter keep }

/-- A stope and its face at reset (R323). -/
def resetStope (s : State) (n : Nat) : State :=
  clearBody (clearBody (clearBody (setStope s n Stope.reset) (pgStope n)) (pgFace n)) (pgOutlier n)

/-- A half-level's power is removed. -/
def halfOff (s : State) (h : Nat) : State := setDomain ((halfStopes h).foldl resetStope s) (domHalf h) 0

-- the safe state (R350, R351) ------------------------------------------------------------------------------------------------

/-- The half-levels of die `d`. -/
def halvesOf (d : Nat) : List Nat := (List.range 32).map (fun i => 32 * d + i)

/-- A record of the fault history; the ring overwrites its oldest (R343, R344). -/
def addRec (h : History) (r : HRec) : History :=
  { h with nextSeq := h.nextSeq + 1, records := ({ r with seq := h.nextSeq } :: h.records).take 19328 }

/-- Global time for a record: 0 if unset (Table 18-5). -/
def recTime (s : State) (d : Nat) : Nat := if (timeBlk s d).isSet then now s d else 0

/-- The history half of die `d` is sealed (R347). -/
def seal_ (s : State) (d reason : Nat) : State :=
  let h := history s d
  let r : HRec := { seq := 0, ty := btDevice, inst := 0, kind := 0x0F, gtime := recTime s d, powered := h.powered, verdict := 0,
                    detail := reason, region := 0, space := 0, rv := false }
  setHistory s d { addRec h r with sealed := some reason, sealing := false }

/-- REPLACE_N stands while the history is sealed (R370): either half's seal, in split mode the die's own. -/
def sealStands (s : State) (d : Nat) : Bool := (history s d).sealed.isSome || (!s.split && (history s (1 - d)).sealed.isSome)

/-- What entering the safe state leaves of die `d`: its half-levels off, staged values discarded, those of the profile too where its other copy is
the staged one, frames gone, and the keys held in SRAM lost (R292, R350, R357). -/
def makeSafe (s : State) (d reason : Nat) (replace : Bool) : State :=
  let s1 := (halvesOf d).foldl halfOff s
  let s2 := setService s1 d { service s1 d with state := 4, reason := reason, replaceN := replace || sealStands s d, drainEnd := none }
  let own (k : Nat) : Bool := decide (k / (1024 * 8192) = d)
  let s3 := if d = 0 then { s2 with security := { s2.security with keys := [], kek := none, spdm := { s2.security.spdm with session := none, pending := none } } } else s2
  let s4 := (List.range 12).foldl (fun t i => setPort t (12 * d + i) { port t (12 * d + i) with keys := none }) s3
  let r := router s4 d
  let other := if s.undrained.contains d then r.other else { r.live with gen := r.other.gen }
  { setRouter s4 d { r with queue := [], other := other } with
    staged := s2.staged.filter (fun p => !own p.1), commits := s2.commits.filter (fun c => c.die.val ≠ d) }

/-- The dies that one event concerns: both, or in split mode one. -/
def deviceDies (s : State) (d : Nat) : List Nat := if s.split then [d] else [0, 1]

/-- Some die of a list drains. -/
def anyDrain (s : State) (ds : List Nat) : Bool := ds.any (draining s)

/-- An in-band interrupt on each I3C bus that is active and has an address, at a change of `DEV_STATE`; the buses attach to die 0 (R375,
R379). -/
def stateChanged (s : State) (d n : Nat) : State :=
  let ring (t : State) (b : Nat) : State := if i3cActive s b && (i3c s b).dyn.isSome then emit t (.ibi b n) else t
  if s.split ∧ d = 1 then s else ring (ring s 0) 1

/-- The safe state, entered at once for a reason of Table 18-10: outstanding work fails first, and the completions of what the dies hold as home
leave on the ports that carry them (R351); a drain under way ends
with its seal and reason 0x01 (R349). `replace`: the cause is a permanent fault. -/
def enterSafe (s : State) (d reason : Nat) (replace : Bool) : State :=
  let ds := deviceDies s d
  if isSafe s d then s
  else
    let perm := replace || anyDrain s ds
    let rs := if reason = 2 then rTimeDoubt else rDrained
    let s0 := failHomes (failAll s ds rs) ds
    let s1 := ds.foldl sendOwnComps s0
    let why := if anyDrain s ds then 1 else reason
    let s2 := if perm then ds.foldl (fun t e => seal_ t e why) s1 else s1
    stateChanged (ds.foldl (fun t e => makeSafe t e why perm) s2) d 4

-- the drain (R347) -----------------------------------------------------------------------------------------------------------------

/-- The acting headframe posts a notice of its own in a mailbox. -/
def postNotice (s : State) (m code : Nat) (payload : List Byte) : State × Option Nat := mbPost (dueEnd s (.mailbox (Fin.ofNat 32 m))) m (fwNotice code 0 payload)

/-- The drain window of die `d`'s history page, in ns. -/
def drainWindow (s : State) (d : Nat) : Ns := 1000000 * fld (rd s (pgHistory d) DRAIN_WIN) 15 0

/-- The device drains from now; a drain under way keeps its window. -/
def startDrain (s : State) (d : Nat) : State :=
  let ds := (deviceDies s d).filter (fun e => !draining s e && !isSafe s e)
  if ds = [] then s
  else
    let s1 := ds.foldl (fun t e => setService t e { service t e with state := 3, drainEnd := some (elapsed t + drainWindow t d), drained := false }) s
    (postNotice (event (stateChanged s1 d 3) (devPage s1 d 0)) 16 0xF1 []).1

-- taking a unit out of service (Table 18-8) ---------------------------------------------------------------------------------------------

/-- Resources that an agent holds, of a list. -/
def heldBy (s : State) (h : Agent) (rs : List Res) : List Res := rs.filter (fun r => holder s (resPage r) = h)

/-- The channels of die `d`, and of engine `e`. -/
def dieChannels (d : Nat) : List Res := (List.range 128).map (fun i => .channel (Fin.ofNat 256 (128 * d + i)))
def engineChannels (e : Nat) : List Res := (List.range 4).map (fun i => .channel (Fin.ofNat 256 (4 * e + i)))

/-- Recall a list of resources to the blocks of Table 01-3. -/
def recallAll (s : State) (rs : List Res) : State := rs.foldl (fun t r => recallLease t r (recaller t r)) s

/-- A stope's instruction memory is empty. -/
def Stope.emptied (x : Stope) (p : ProgState) : Stope := { x with imem := [], codeLen := 0, prog := p, img := [], imgOp := none, imgBad := false }

/-- Stop: a program that runs stops, and one that loads is dropped (R133). -/
def stopProgram (s : State) (n : Nat) : State :=
  let x := stope s n
  match x.prog with
  | .running => setStope s n (x.stop cSTOPPED)
  | .loading => setStope s n { x.emptied .empty with cause := cSTOPPED }
  | _ => s

/-- The standby headframe acts (R22, R352); one that has itself failed does not. -/
def standbyActs (s : State) : State :=
  if s.boot.hf1.role = 3 then s
  else { s with boot := { s.boot with hf0 := { s.boot.hf0 with role := 3 }, hf1 := { s.boot.hf1 with role := 1, takenOver := true } } }

/-- What die `d` performs is for a hoist channel or a stope of the other die. -/
def HomeFor.far (f : HomeFor) (d : Nat) : Bool := match f with
  | .hoist c _ => decide (c / 128 ≠ d)
  | .image n _ => decide (n / 256 ≠ d)
  | _ => false

/-- Such an access has failed split. -/
def farSplit (s : State) (f : HomeFor) : State := match f with
  | .hoist c op => innerDone s c op sFAILED rSplit []
  | .image n tag => imageRead s n tag false []
  | _ => s

/-- The accesses that hoists and loading stopes of the other die have waiting at die `d` fail split (R163, R352). -/
def failFar (s : State) (d : Nat) : State :=
  let L := layer s d
  let waits := (L.homes.map (fun h => h.for_) ++ L.dir.flatMap (fun l => l.heldWrites.map (fun w => w.for_))).filter (fun f => f.far d)
  waits.foldl farSplit (dropHeld (forgetHomes s d (fun h => h.for_.far d)) d (fun w => w.for_.far d))

/-- What crosses the bridge fails split as it fails: remote operations, hoists' accesses at the other die, and frames in transit (R163, R352). -/
def crossing (s0 : State) : State :=
  let s := failFar (failFar s0 0) 1
  let s1 := [0, 1].foldl (fun t d => failOps t d rSplit (fun o => o.crosses)) s
  let far (q : QFrame) : Bool := q.fromBridge
  [0, 1].foldl (fun t d => setRouter t d { router t d with queue := (router t d).queue.filter (fun q => !far q) }) s1

/-- The unit's own effects when it is judged permanently faulty. -/
def takeOut (s : State) (u : Agent) : State :=
  let s0 := if s.faulty.contains u then s else { s with faulty := u :: s.faulty }
  if u.ty = btStope then
    let s1 := stopProgram (failStope s0 u.inst rDrained) u.inst
    recallAll s1 ([.bank (Fin.ofNat 544 u.inst)] ++ heldBy s1 u (dieChannels (u.inst / 256)))
  else if u.ty = btPillar then recallAll s0 [.bank (Fin.ofNat 544 u.inst)]
  else if u.ty = btGallery then recallAll s0 [.bank (Fin.ofNat 544 (512 + u.inst))]
  else if u.ty = btHoist then failScripts (recallAll s0 (engineChannels u.inst)) rDrained (fun c _ => decide (c / 4 = u.inst))
  else if u.ty = btForeman then setForeman s0 u.inst { foreman s0 u.inst with st := 2 }
  else if u = ⟨btHeadframe, 0⟩ then standbyActs s0
  else s0

-- records and judgement (R341, R342) ---------------------------------------------------------------------------------------------------------

/-- How an event is judged (Table 18-4). -/
inductive Judge where
  | replay (reproduced : Bool)
  | count
  | region
  | never
  | always
deriving DecidableEq, Repr

/-- An event to record. -/
structure Event where
  die : Nat
  unit : Agent
  kind : Nat
  judge : Judge
  detail : Nat
  /-- space and region of a memory error -/
  at_ : Option (Nat × Nat)
deriving DecidableEq, Repr

/-- Kinds judged by count. -/
def countKind (k : Nat) : Bool := [1, 2, 3, 7, 8, 9, 10, 11].contains k

/-- Two or more records of the unit, this one included, within the last 7,200,000 powered seconds. -/
def countHit (h : History) (u : Agent) : Bool :=
  h.records.any (fun r => decide (r.ty = u.ty) && decide (r.inst = u.inst) && countKind r.kind && decide (h.powered ≤ r.powered + 7200000))

/-- `VERDICT` of Table 18-5. -/
def verdict (h : History) (e : Event) : Nat :=
  match e.judge with
  | .never => 0
  | .always => 5
  | .replay true => 2
  | .replay false => if countHit h e.unit then 3 else 1
  | .count => if countHit h e.unit then 3 else 1
  | .region =>
    match e.at_ with
    | some g => if h.ue.contains g ∨ h.ue.length ≥ 4096 then 4 else 1
    | none => 1

/-- Write the record of an event, and the region of a transient uncorrectable error in the UE list. -/
def recordEvent (s : State) (e : Event) : State × Nat :=
  let h := history s e.die
  let v := verdict h e
  let g := e.at_.getD (0, 0)
  let r : HRec := { seq := 0, ty := e.unit.ty, inst := e.unit.inst, kind := e.kind, gtime := recTime s e.die, powered := h.powered,
                    verdict := v, detail := e.detail, region := g.2, space := if g.1 = 1 then 1 else 0, rv := e.at_.isSome }
  let h1 := addRec h r
  (setHistory s e.die { h1 with ue := match e.judge, v, e.at_ with
    | .region, 1, some g => h1.ue ++ [g]
    | _, _, _ => h1.ue }, v)

/-- The device and identity pages of die 1 become a copy of their own (R289). -/
def splitPages (s : State) : State :=
  let mine := s.regs.filter (fun p => decide (p.1 < 2048))
  { s with regs := mine.foldl (fun m p => Sparse.set none m (8192 * 1024 + p.1) p.2) s.regs }

/-- Enter split mode (R352): far work fails, headframe 1 acts for die 1, each die drains with its own window, and the notice of the drain goes to
mailbox 16 of die 0 unless that drained before (R347). -/
def enterSplit (s : State) : State :=
  let s0 := splitPages (crossing { s with bridge := { s.bridge with st := 3 } })
  let s1 := { s0 with split := true, boot := { s0.boot with hf1 := if s0.boot.hf1.role = 3 then s0.boot.hf1 else { s0.boot.hf1 with role := 1 } } }
  let rec1 (t : State) (d : Nat) : State := (recordEvent t ⟨d, ⟨btBridge, 0⟩, 0x0D, .always, 1, none⟩).1
  let s2 := rec1 (rec1 s1 0) 1
  let note (t : State) : State := if draining s 0 || isSafe s 0 then t else (postNotice t 16 0xF1 []).1
  note <| [0, 1].foldl (fun t d =>
    if isSafe t d then t
    else
      let v := service t d
      let t1 := setService t d { v with state := 5, drainEnd := some (v.drainEnd.getD (elapsed t + drainWindow t d)) }
      event (stateChanged t1 d 5) (devPage t1 d 0)) { s2 with faulty := ⟨btBridge, 0⟩ :: s2.faulty }

/-- Record an event, judge its unit, and act on a permanent judgement (R342, R346, R347). -/
def report (s : State) (e : Event) : State :=
  let r := recordEvent s e
  if r.2 < 2 then r.1
  else if e.unit.ty = btDie ∨ e.unit.ty = btSecurity then enterSafe r.1 e.die 1 true
  else startDrain (takeOut r.1 e.unit) e.die

-- memory errors (R139, R165) ----------------------------------------------------------------------------------------------------------------------

/-- The 4 KiB region of an address: in a stack, the spare that holds it where it has been remapped (R342). -/
def regionOf (s : State) (a : Nat) : Nat × Nat :=
  if aSpace a = 0 then
    let k := stackOf (aDie a) (aOff a)
    match (stack s k).remaps.find? (fun p => p.1 = aOff a / 4096) with
    | some p => (4 + k, p.2)
    | none => (0, aOff a / 4096)
  else (1, aOff a / 4096)

/-- The unit of memory at an address. -/
def memUnit (a : Nat) : Agent :=
  if aSpace a = 0 then ⟨btStack, stackOf (aDie a) (aOff a)⟩
  else if bankOf a < 512 then ⟨btPillar, bankOf a⟩ else ⟨btGallery, bankOf a - 512⟩

/-- An access has met an uncorrectable error at an address: a stack counts it and keeps its offset, and it is recorded and
judged. -/
def metError (s : State) (a : Nat) : State :=
  let e : Event := ⟨aDie a, memUnit a, if aSpace a = 0 then 0x05 else 0x04, .region, 0, some (regionOf s a)⟩
  if aSpace a = 0 then
    let pg := pgStack (stackOf (aDie a) (aOff a))
    let s1 := bump s pg UE_COUNT 1
    report (wr (wr s1 pg LAST_UE_LO (BitVec.ofNat 32 (aOff a))) pg LAST_UE_HI (BitVec.ofNat 32 (aOff a / 2 ^ 32))) e
  else report s e

/-- The first word or sector of [a, a + n) that holds an uncorrectable error. -/
def firstBad (s : State) (a n : Nat) : Option Nat :=
  s.ue.find? (fun w => decide (w < low50 a + n) && decide (low50 a < w + eccUnit w))

/-- An access of [a, a + n) that completed POISONED reports the error it met. -/
def metIn (s : State) (a n : Nat) : State :=
  match firstBad s a n with
  | some w => metError s w
  | none => s

end Sys2Proof.Machine
end

