-- ==== Sys2Proof/Machine/Coherence.lean ====
section
/-!
DEFINITION. The remote read cache and its home directory (R227 to R234).
-/

namespace Sys2Proof.Machine

-- the requesting die ----------------------------------------------------------------------------------------------------

/-- `RMOP.RC_BANKS` of die `d`: the gallery rows in use as cache. -/
def cacheRows (s : State) (d : Nat) : List Nat := bitList 16 (rd s (pgRmop d) RC_BANKS).toNat

/-- A GET of die `d` is looked up in the cache: its target lies in a read-mostly region of another node-die, and does not
touch the line of the weight-epoch word (R227, R230). -/
def cacheable (s : State) (d : Nat) (m : Msg) : Bool :=
  let a := m.addr.toNat
  let len := msgLen m
  decide (m.opc = 2) && decide (cacheRows s d ≠ []) && decide (aNodeDie a ≠ nodeDie s d) && decide (aSpace a < 2) &&
  !((globalLines a len).any (fun l => holdsEpochWord l 256)) &&
  (if a / 2 ^ 50 = s.boot.node then regionHolds s (aDie a) a len else (globalLines a len).all Config.peerReadMostly)

/-- A line that the cache holds, in a bank that has it, and whose lease has not ended; none in time-doubt (R230). -/
def cacheHit (s : State) (d line : Nat) : Option CacheLine :=
  if inDoubt s d then none
  else (layer s d).cache.find? (fun c => decide (c.addr = line) && c.ready && decide (now s d < c.leaseEnd))

/-- Read a line that hits from its cache bank, through port B, for an operation. -/
def readHit (s : State) (d : Nat) (o : ROp) (c : CacheLine) : State :=
  performAt s d { o.msg with opc := 2, lenM1 := 255, addr := BitVec.ofNat 64 (placeAddr s d c.row c.slot) } (.hit o.id c.addr c.leaseEnd)

/-- Look a GET up, line by line: hits are read, misses send GETS (R230). -/
def lookUp (s : State) (d : Nat) (o : ROp) : State :=
  let lines := globalLines o.msg.addr.toNat (msgLen o.msg)
  let hits := lines.filterMap (cacheHit s d)
  let misses := lines.filter (fun l => (cacheHit s d l).isNone)
  let f : FillWait := { op := o.id, lines := lines.map (fun l => (l, if (cacheHit s d l).isNone then .missing else .reading)), status := sOK
                        reason := 0 }
  let pg := pgRmop d
  let s1 := bump (bump s pg RC_HITS hits.length) pg RC_MISSES misses.length
  let s2 := setLayer s1 d { layer s1 d with fills := (layer s1 d).fills ++ [f] }
  hits.foldl (fun t c => readHit t d o c) (misses.foldl (fun t l => sendGets t d l o.msg) s2)

/-- Take an operation that has no local operand to read: a cacheable GET is looked up, any other is sent. -/
def startOp (s : State) (d : Nat) (o : ROp) (readLen : Nat) : State :=
  if cacheable s d o.msg then
    let o1 := { o with phase := .cache }
    lookUp (setLayer s d { layer s d with ops := (layer s d).ops ++ [o1] }) d o1
  else addOp s d o readLen

/-- The cache drops lines, sending EVICT for each (R228, R233). -/
def evictLines (s : State) (d cls deadline : Nat) (p : CacheLine → Bool) : State :=
  let gone := (layer s d).cache.filter p
  let s1 := setLayer s d { layer s d with cache := (layer s d).cache.filter (fun c => !p c) }
  gone.foldl (fun t c => sendCoh t d (aNodeDie c.addr) (nodeDie t d) 5 0x15 cls c.addr deadline 0 0 0 []) s1

/-- Lines that one cache bank holds. -/
def linesPerBank : Nat := 16384

/-- The places of a row that hold a line, or that a read or write of the bank still uses. -/
def usedSlots (s : State) (d row : Nat) : List Nat :=
  let base := placeAddr s d row 0
  (((layer s d).cache.filter (fun c => c.row = row)).map (fun c => c.slot)) ++
  ((layer s d).homes.filterMap (fun h => match h.for_ with
    | .hit _ _ _ | .keep _ => if base ≤ h.msg.addr.toNat ∧ h.msg.addr.toNat < base + 256 * linesPerBank then some ((h.msg.addr.toNat - base) / 256) else none
    | _ => none))

/-- The first free place of a row. -/
def freeSlot (s : State) (d row : Nat) : Option Nat :=
  let used := usedSlots s d row
  ((List.range (used.length + 1)).find? (fun k => !used.contains k)).bind (fun k => if k < linesPerBank then some k else none)

/-- The line takes a place, and its bytes are written there through port B; it may be hit once they are. -/
def placeLine (s : State) (d row slot line leaseEnd cls deadline : Nat) (data : List Byte) : State :=
  let s1 := setLayer s d { layer s d with cache := (layer s d).cache ++ [⟨line, row, slot, leaseEnd, false⟩] }
  performAt s1 d (newMsg s1 d 5 0 1 0 cls (placeAddr s d row slot) 256 deadline 0 data) (.keep line)

/-- Keep a line: in the first bank with room, or in the place of the oldest line that is not being read (log entry 15). -/
def keepLine (s : State) (d line leaseEnd cls deadline : Nat) (data : List Byte) : State :=
  let s0 := setLayer s d { layer s d with cache := (layer s d).cache.filter (fun c => c.addr ≠ line) }
  match (cacheRows s d).findSome? (fun r => (freeSlot s0 d r).map (fun k => (r, k))) with
  | some (r, k) => placeLine s0 d r k line leaseEnd cls deadline data
  | none =>
    match (layer s0 d).cache.find? (fun c => c.ready && !hitsOn s0 d c.addr) with
    | none => s0
    | some old => placeLine (evictLines s0 d cls deadline (fun c => decide (c.addr = old.addr))) d old.row old.slot line leaseEnd cls deadline data

-- order of coherence messages (R233) ---------------------------------------------------------------------------------------

/-- The other end of a coherence stream: the home for messages of the directory, the cache die for the others. -/
def cohPeer (m : Msg) : Nat := if m.kind = 4 then aNodeDie m.addr.toNat else m.src.toNat

/-- Take the first copy of a message from die `d`'s inbox; `none` where it is not there. -/
def takeMsg (s : State) (d : Nat) (m : Msg) : Option (State × InMsg) :=
  let L := layer s d
  match L.inbox.find? (fun i => i.m = m) with
  | none => none
  | some i => some (setLayer s d { L with inbox := L.inbox.eraseP (fun j => j.m = m) }, i)

/-- Take a coherence message in its order, or leave it until the earlier ones have come; a stale or late one is discarded, and
one of another epoch dropped (R223, R224, R233). A newer incarnation begins at `SEQ` 0. The wait for an earlier one is bounded by the
message's own deadline, as R220 bounds it (log entry 119). Answers whether it is to be acted on. -/
def cohTake (s : State) (d opc : Nat) (m : Msg) : State × Bool :=
  match takeMsg s d m with
  | none => (s, false)
  | some (s1, _) =>
    if m.opc.toNat ≠ opc then (s, false)
    else
      let key (x : InStream) : Bool := decide (x.src = cohPeer m) && decide (x.kind = m.kind.toNat) && decide (x.cls = 4)
      let put (t : State) (base : W32) : State := setLayer t d { layer t d with
        inStreams := { src := cohPeer m, kind := m.kind.toNat, agent := 0, cls := 4, group := 0, incarn := m.incarn, base := base, ackTo := 0
                       recs := [] } :: (layer t d).inStreams.filter (fun y => !key y) }
      let ok := decide (m.epoch = sysEpoch s d)
      let expired := decide (m.deadline ≠ 0) && decide (m.deadline.toNat ≤ now s d)
      let inOrder (base : W32) : State × Bool :=
        if m.seq = base ∨ (seqLt base m.seq ∧ expired = true) then (put s1 (m.seq + 1), ok)
        else if seqLt m.seq base then (s1, false)
        else (put s base, false)
      match (layer s1 d).inStreams.find? key with
      | none => (put s1 (m.seq + 1), ok)
      | some x =>
        if x.incarn = m.incarn then inOrder x.base
        else if seqLt x.incarn m.incarn then inOrder 0
        else (bump s1 (pgRmop d) STALE_DISCARD 1, false)

/-- GETS at the home directory: served, or held behind a write of its line (R231). -/
def execGets (die : Die) (m : Msg) (s : State) : Out :=
  .next (let r := cohTake s die 0x10 m
    if r.2 then
      let line := low50 m.addr.toNat / 256 * 256
      let l := (dirLine r.1 die line).getD ⟨line, [], [], []⟩
      if lineBusy r.1 die l then putDir r.1 die { l with heldGets := l.heldGets ++ [m] } else serveGets serveHeld r.1 die m
    else r.1)

/-- The GETs that a FILL serves: a cached one every GET that waits for the line, an uncached one the first of them, whose GETS was sent first;
none whose timer fires before now (R230, R265). -/
def fillServes (s : State) (d line : Nat) (cached : Bool) : List Nat :=
  let past (op : Nat) : Bool := ((findOp s d op).map (timerPast s d)).getD true
  let waiting := ((layer s d).fills.filter (fun f => f.lines.any (fun p => decide (p.1 = line) && decide (p.2 = .missing)) && !past f.op)).map (fun f => f.op)
  if cached then waiting else waiting.take 1

/-- FILL at the cache: the line serves the GETs that wait for it, and is kept until its lease ends, unless it is uncached or the die is in
time-doubt. One whose lease has ended serves nothing: each GET that waited misses the line again (R230, R232). -/
def fillArrives (s : State) (d : Nat) (m : Msg) : State :=
  let line := m.addr.toNat
  let st := m.sub.toNat
  let cached := decide (m.deadline ≠ 0)
  let served := fillServes s d line cached
  if cached && decide (m.deadline.toNat ≤ now s d) then
    ((layer s d).ops.filter (fun o => served.contains o.id)).foldl (fun t o => sendGets t d line o.msg) (bump s (pgRmop d) RC_MISSES served.length)
  else
    let lease := if cached then some m.deadline.toNat else none
    let s1 := if cached && decide (st = sOK) && !inDoubt s d then keepLine s d line m.deadline.toNat m.cls.toNat m.deadline.toNat m.data else s
    finishFills (setLayer s1 d { layer s1 d with fills := (layer s1 d).fills.map (fun f =>
      if served.contains f.op then f.take line st m.reason.toNat m.data lease else f) }) d

/-- FILL at the cache. -/
def execFill (die : Die) (m : Msg) (s : State) : Out :=
  .next (let r := cohTake s die 0x11 m
    if r.2 then fillArrives r.1 die m else r.1)

/-- INV at the cache: IACK after the line is removed and every hit on it has been read, ABSENT where it is not held; the `TAG` is echoed
(R233). -/
def execInv (die : Die) (m : Msg) (s : State) : Out :=
  .next (let r := cohTake s die 0x12 m
    if r.2 then
      let line := m.addr.toNat
      let held := (layer r.1 die).cache.any (fun c => c.addr == line)
      let s1 := setLayer r.1 die { layer r.1 die with cache := (layer r.1 die).cache.filter (fun c => c.addr ≠ line) }
      if hitsOn s1 die line then setLayer s1 die { layer s1 die with heldIacks := (layer s1 die).heldIacks ++ [m] }
      else sendCoh s1 die (cohPeer m) (nodeDie s1 die) 5 (if held then 0x13 else 0x14) m.cls.toNat line m.deadline.toNat m.tag.toNat 0 0 []
    else r.1)

/-- The sharer of an answer's line whose INV carried its `TAG`. -/
def tagOut (s : State) (d : Nat) (m : Msg) : Bool := match dirLine s d (low50 m.addr.toNat) with
  | some l => l.sharers.any (fun x => decide (x.node = m.src.toNat) && decide (x.tag = some m.tag.toNat))
  | none => false

/-- An answer whose tag is no longer outstanding is discarded and counted, and its tag becomes free (R234). -/
def discardTag (s : State) (d : Nat) (m : Msg) : State :=
  bump (setLayer s d { layer s d with staleTags := (layer s d).staleTags.filter (fun x => x.1 ≠ m.tag.toNat) }) (pgRmop d) ABSENT_DISCARD 1

/-- The sharer has answered its INV: it is removed (R231). -/
def sharerGone (s : State) (d : Nat) (m : Msg) : State := match dirLine s d (low50 m.addr.toNat) with
  | some l => putDir s d { l with sharers := l.sharers.filter (fun x =>
      !(decide (x.node = m.src.toNat) && decide (x.tag = some m.tag.toNat))) }
  | none => s

/-- IACK at the home directory. -/
def execIack (die : Die) (m : Msg) (s : State) : Out :=
  .next (let r := cohTake s die 0x13 m
    if r.2 then (if tagOut r.1 die m then sharerGone r.1 die m else discardTag r.1 die m) else r.1)

/-- ABSENT at the home directory: with a tag still outstanding it ends no hold, which waits for IACK, EVICT or the lease end (R231). -/
def execAbsent (die : Die) (m : Msg) (s : State) : Out :=
  .next (let r := cohTake s die 0x14 m
    if r.2 then (if tagOut r.1 die m then r.1 else discardTag r.1 die m) else r.1)

/-- EVICT at the home directory: the sharer is removed; an INV outstanding to it counts as answered, and its tag stays in use
until the later answer comes or the lease ends (R234). -/
def execEvict (die : Die) (m : Msg) (s : State) : Out :=
  .next (let r := cohTake s die 0x15 m
    if r.2 then
      match dirLine r.1 die (low50 m.addr.toNat) with
      | none => r.1
      | some l =>
        let gone := l.sharers.filter (fun x => x.node = m.src.toNat)
        let tags := gone.filterMap (fun x => x.tag.map (fun g => (g, x.leaseEnd)))
        let s1 := putDir r.1 die { l with sharers := l.sharers.filter (fun x => x.node ≠ m.src.toNat) }
        setLayer s1 die { layer s1 die with staleTags := tags ++ (layer s1 die).staleTags }
    else r.1)

/-- A held write goes on: dropped after its deadline (R218), held at another of its lines, or performed. -/
def releaseWrite (s : State) (d : Nat) (w : HeldWrite) : State :=
  let m := w.m
  if m.deadline.toNat ≤ now s d then
    afterWrite serveHeld (match w.for_ with
      | .remote => recordSeq s d m .dropped
      | .hoist c op => innerDone s c op sFAILED rDeadline []
      | .back op => backDone s d op ⟨[], false, false, false, 0, true⟩
      | _ => s) d m
  else if m.opc = 3 ∨ m.opc = 4 then
    let h := invLines s d m.cls.toNat m.deadline.toNat (linesOf m.addr.toNat (msgTouch m))
    match h.2 with
    | some line => holdWrite h.1 d line m w.for_
    | none => atomToBank h.1 d m
  else writeAt s d m w.for_

/-- DIRECTORY_WRITE_RELEASE: every sharer has answered or its lease has ended; the held writes are performed, and then the
held GETS (R231). -/
def execDirectoryWriteRelease (die : Die) (line : Nat) (s : State) : Out :=
  .next (match dirLine s die line with
    | some l =>
      if (l.heldWrites ≠ [] ∨ l.heldGets ≠ []) ∧ l.live (now s die) = [] then
        serveHeld (l.heldWrites.foldl (fun t m => releaseWrite t die m) (putDir s die { l with sharers := [], heldWrites := [] })) die line
      else s
    | none => s)

/-- SHARER_LEASE_END: the home no longer waits for the sharer, and its tag is free (R232, R234). -/
def execSharerLeaseEnd (die : Die) (line : Nat) (sharer : BitVec 15) (s : State) : Out :=
  .next (match dirLine s die line with
    | some l => putDir s die { l with sharers := l.sharers.filter (fun x =>
        !(decide (x.node = sharer.toNat) && decide (x.leaseEnd ≤ now s die))) }
    | none => s)

end Sys2Proof.Machine
end

