-- ==== Sys2Proof/Machine/Async.lean ====
section
/-!
DEFINITION. Asynchronous issue: tickets, deadlines and admission (R118 to R122, R130, R257, R260), and the stope's remote
instructions PUT, GET, ATOM, FLAG and MCAST (R214 to R216, R252).
-/

namespace Sys2Proof.Machine

-- tickets -------------------------------------------------------------------------------------------------------------

/-- The lowest ticket that is not taken. -/
def freeTicket (x : Stope) : Option Nat := ((List.range 64).map (· + 1)).find? (fun t => !x.tickets.any (fun k => k.num == t))

/-- An asynchronous instruction waits: 64 operations are outstanding (R120), or a FENCE holds a remote one (R129). -/
def asyncStalls (x : Stope) (remote : Bool) : Bool := decide (64 ≤ x.out.length) || (remote && decide (x.fence ≠ []))

/-- Issue of an asynchronous instruction: it stalls, then faults `NO_TICKET` (log entry 150), or is judged with the ticket it takes (0 for s0). -/
def withTicket (s : State) (n : Nat) (d : Byte) (remote : Bool) (judge : State → Nat → State) : State :=
  let x := stope s n
  if asyncStalls x remote then s
  else if d = 0 then judge s 0
  else match freeTicket x with
    | none => progFault s n cNO_TICKET
    | some t => judge s t

/-- Write the ticket number to sD, and on. -/
def ticketTo (x : Stope) (d : Byte) (t : Nat) (done : Option W32) : Stope :=
  { (x.setS d.toNat (BitVec.ofNat 64 t)).advance with tickets := if t = 0 then x.tickets else x.tickets ++ [⟨t, done⟩] }

/-- The instruction completes at its issue with a status word (R118). -/
def answerNow (s : State) (n : Nat) (d : Byte) (t : Nat) (w : W32) : State :=
  let s1 := setStope s n (ticketTo (stope s n) d t (some w))
  if t = 0 ∧ w.toNat % 16 ≠ 0 then bump s1 (pgStope n) ASYNC_FAIL 1 else s1

/-- The instruction is accepted: its operation is outstanding. -/
def acceptAsync (s : State) (n : Nat) (d : Byte) (t : Nat) (o : Async) : State :=
  let x := ticketTo (stope s n) d t none
  setStope s n { x with out := x.out ++ [o] }

-- budgets (R119, R257) ----------------------------------------------------------------------------------------------------

/-- `STOPE.SCAV_LIMIT`. -/
def scavLimit (s : State) (n : Nat) : Nat := (rd s (pgStope n) SCAV_LIMIT).toNat

/-- An instruction's budget (R119). -/
def budgetOf (s : State) (n : Nat) (imm : W32) : Nat :=
  if immDL imm ≠ 0 then ((stope s n).sreg (immDL imm)).toNat
  else if immClass imm = scavenge then scavLimit s n else promise s (n / 256) (immClass imm)

/-- The largest budget of a remote operation (R257). -/
def budgetCap (s : State) (n cls : Nat) : Nat := if cls = scavenge then scavLimit s n else promise s (n / 256) cls

-- remote operations of any originator ----------------------------------------------------------------------------------------

/-- Die `d` sees the operation's budget inside the bounds of R257 and R258; a route without a valid entry has no floor. -/
def budgetOk (s : State) (d opc a budget cap : Nat) : Bool :=
  decide (budget ≤ cap) &&
  (if opc = 5 then decide (mcFloor s d (groupOf a) ≤ budget)
   else match routeFloor s d (aNodeDie a) (aSpace a) with
     | some f => decide (f ≤ budget)
     | none => true)

/-- A read that a drain still admits (R348): a GET whose every byte lies in a copy-out region of the target die. -/
def drainAdmits (s : State) (d opc a len cls : Nat) : Bool :=
  decide (opc = 2) && draining s d && !(service s d).drained && inCopyOut s a len && (decide (cls = scavenge) || !inDoubt s d)

/-- Where on this device an operation's bytes lie: at its target, or, for an MCPUT, where the device is a member, at its own copy's (R215). -/
def bytesAt (s : State) (d opc a : Nat) : Option Nat :=
  if opc ≠ 5 then some a
  else if fld (mcEntry s d (groupOf a)) 29 29 = 1 then some (nodeBase s + low50 a) else none

/-- What serves those bytes is there (R163, R167, R380), and the strictest throttle of their stacks (R264). -/
def bytesServed (s : State) (d opc a len : Nat) : Bool := ((bytesAt s d opc a).map (fun b => targetServes s d b len)).getD true
def bytesThrottle (s : State) (d opc cls a len : Nat) : Nat :=
  strictest s cls (((bytesAt s d opc a).map (fun b => touchedStacks s b len)).getD [])

/-- Admission of a remote operation at an ingress of die `d` (R119, R135, R163, R167, R260, R264, R347, R380): the state with its
credit taken, or `none` where it is REFUSED. `copyOut` opens the drain's exception. -/
def admitOp (s : State) (d : Nat) (i : Ingress) (opc cls a len budget cap : Nat) (copyOut : Bool) : Option State :=
  if !(admitting s d cls || (copyOut && drainAdmits s d opc a len cls)) then none
  else if !budgetOk s d opc a budget cap then none
  else if !bytesServed s d opc a len then none
  else takeCredit s d i cls len (bytesThrottle s d opc cls a len)

/-- Why an operation that credit would refuse is counted: every other check passes (Table 13-6). -/
def creditShort (s : State) (d : Nat) (opc cls a len budget cap : Nat) (copyOut : Bool) : Bool :=
  (admitting s d cls || (copyOut && drainAdmits s d opc a len cls)) && budgetOk s d opc a budget cap &&
  bytesServed s d opc a len

-- the stope's ingress -----------------------------------------------------------------------------------------------------------

/-- A stope's remote operation as its instruction names it. -/
structure Remote where
  opc : Nat
  sub : Nat
  cls : Nat
  bell : Nat
  addr : Nat
  /-- local buffer; its length is 0 for FLAG -/
  buf : Nat
  len : Nat
  /-- operand that the instruction itself carries -/
  data : List Byte
deriving DecidableEq, Repr

/-- Bytes of the local buffer. -/
def Remote.bufLen (r : Remote) : Nat := if r.opc = 4 then 0 else r.len

/-- The rights of R130: the target's in one window, the local buffer's in the own banks. -/
def stopeRights (s : State) (n : Nat) (r : Remote) : Bool :=
  let ws := stopeWindows s n
  (if r.opc = 5 then grants ws (nodeBase s + low50 r.addr) r.len rtMCAST
   else grants ws r.addr (touchLen r.opc r.sub r.len) (match r.opc with
     | 1 => rtWRITE
     | 2 => rtREAD
     | 3 => rtATOM
     | _ => rtFLAG)) &&
  (decide (r.opc = 4) || (ownBank s n r.buf r.bufLen).isSome)

/-- The half-level of the stope takes no new work while it is being switched off (R19). -/
def stopeOpen (s : State) (n : Nat) : Bool := decide (domain s (domHalf (halfOf n)) ≠ 3)

/-- Ranges in the own banks that an operation reads and writes (R122): a multicast write at its root writes the root's own copy where that is a
member (R215, R252). -/
def remoteSpans (s : State) (n : Nat) (r : Remote) : List Span × List Span :=
  let buf : List Span := if r.bufLen = 0 then [] else [⟨low50 r.buf, r.bufLen⟩]
  let k := touchLen r.opc r.sub r.len
  let tgt : List Span := if (ownBank s n r.addr k).isSome ∧ r.opc ≠ 5 then [⟨low50 r.addr, k⟩] else []
  match r.opc with
  | 1 => (buf, tgt)
  | 2 => (tgt, buf)
  | 3 => (buf ++ tgt, buf ++ tgt)
  | 4 => (tgt, tgt)
  | _ => (buf, if fld (mcEntry s (n / 256) (groupOf r.addr)) 29 29 = 1 ∧ (ownBank s n (nodeBase s + low50 r.addr) r.len).isSome = true then
      [⟨low50 r.addr, r.len⟩] else [])

/-- Judge a stope's remote operation at its issue: DENIED, REFUSED, or accepted with one deadline (R119, R214, R252). -/
def judgeRemote (s : State) (n : Nat) (d : Byte) (imm : W32) (r : Remote) (t : Nat) : State :=
  let die := n / 256
  let budget := budgetOf s n imm
  let cap := budgetCap s n r.cls
  if !remoteOk r.opc r.sub r.addr r.len || !stopeRights s n r || (decide (r.opc = 5) && !isRoot s die (groupOf r.addr)) then
    answerNow s n d t (statusWord sDENIED 0)
  else
    let dl := now s die + budget
    let q := freshOp s
    let m := newMsg s die 0 n r.opc r.sub r.cls r.addr r.len dl r.bell r.data
    let readLen := if r.opc = 1 ∨ r.opc = 3 ∨ r.opc = 5 then r.len else 0
    let o := newOp s die q.2 (.stope (Fin.ofNat 512 n)) m r.buf readLen
    if !stopeOpen s n || !windowOpen s die o then answerNow s n d t (statusWord sREFUSED 0)
    else match admitOp q.1 die (.stope n) r.opc r.cls r.addr r.len budget cap false with
      | none =>
        answerNow (if creditShort s die r.opc r.cls r.addr r.len budget cap false then countRefused s die else s) n d t
          (statusWord sREFUSED 0)
      | some s1 =>
        let sp := remoteSpans s n r
        startOp (acceptAsync s1 n d t
          { op := q.2, ticket := t, deadline := dl, remote := true, reads := sp.1, writes := sp.2 }) die o readLen

/-- A remote instruction with its operands. -/
def remoteIns (s : State) (st : Fin 512) (op : Nat) (d a b : Byte) (imm : W32) (opc sub bell : Nat) : State :=
  issue s st op d a b imm (fun s => withTicket s st d true (fun s t =>
    let c := (stope s st).sreg (immC imm)
    judgeRemote s st d imm
      { opc := opc, sub := sub, cls := immClass imm, bell := bell, addr := (areg s st a.toNat).toNat, buf := (areg s st b.toNat).toNat
        len := if opc = 4 then 8 else c.toNat, data := if opc = 4 then toLE 8 c.toNat else [] } t))

/-- PUT (0x50): write sC bytes from aB to aA. -/
def execPut (st : Fin 512) (d a b : Byte) (imm : W32) (s : State) : Out := .next (remoteIns s st 0x50 d a b imm 1 0 0)

/-- GET (0x51): read sC bytes from aA into aB. -/
def execGet (st : Fin 512) (d a b : Byte) (imm : W32) (s : State) : Out := .next (remoteIns s st 0x51 d a b imm 2 0 0)

/-- ATOM (0x52): atomic `SUB` at aA, operand and result at aB. -/
def execAtom (st : Fin 512) (d a b : Byte) (imm : W32) (s : State) : Out :=
  .next (remoteIns s st 0x52 d a b imm 3 (immSub imm) 0)

/-- FLAG (0x53): set, or add, sC at the flag word aA; rings `BELL`. -/
def execFlag (st : Fin 512) (d a b : Byte) (imm : W32) (s : State) : Out :=
  .next (remoteIns s st 0x53 d a b imm 4 (immSub imm) (immBell imm))

/-- MCAST (0x54): multicast PUT of sC bytes of aB to the group destination in aA. -/
def execMcast (st : Fin 512) (d a b : Byte) (imm : W32) (s : State) : Out := .next (remoteIns s st 0x54 d a b imm 5 0 0)

end Sys2Proof.Machine
end

