-- ==== Sys2Proof/Machine/Caches.lean ====
section
/-!
DEFINITION. Making gallery banks cache banks and giving them back (R228).
-/

namespace Sys2Proof.Machine

/-- The bank of a row becomes a cache bank: recalled to the acting headframe, handed to the router's remote-op layer, and, once the
recall's drain has ended, in normal mode. Its previous contents are discarded: its bytes read 0 (log entry 120), and every line starts
absent. -/
def cacheOn (s : State) (d row : Nat) : State :=
  let b := galleryBank d row
  let s1 := passTo (recallLease s (.bank b) (acting s d)) (.bank b) ⟨btRouter, d⟩
  let s2 := setBank s1 b { bank s1 b with toMode := some 0 }
  let mine (a : Nat) : Bool := decide (aSpace a = 1) && decide (bankOf a = b.val)
  setLayer { s2 with mem := s2.mem.filter (fun p => !mine p.1), ue := s2.ue.filter (fun w => !mine w) } d
    { layer s2 d with cache := (layer s2 d).cache.filter (fun c => c.row ≠ row) }

/-- The bank of a row leaves the cache: its lines are dropped, those still to be written too, sending EVICT for each, and its tally goes to the
level of the row. -/
def cacheOff (s : State) (d row : Nat) : State :=
  let b := galleryBank d row
  let mine (h : HomeOp) : Bool := match h.for_ with
    | .keep _ => decide (bankOf (low50 h.msg.addr.toNat) = b.val)
    | _ => false
  let s1 := forgetHomes (evictLines s d 1 (now s d + promise s d 1) (fun c => decide (c.row = row))) d mine
  wr (passTo s1 (.bank b) ⟨btLevel, 16 * d + row⟩) (pgBank b) BLK_LEASE_END 0

end Sys2Proof.Machine
end

