-- ==== Sys2Proof/Machine/Clock.lean ====
section
/-!
DEFINITION. What passes with time alone: the two time bases (R267, R268) the powered-second counts (R344), and
how long peers have disagreed (R317).
-/

namespace Sys2Proof.Machine

/-- Nanoseconds of a powered second. -/
def nsPerSecond : Nat := 1000000000

/-- A history half counts the time that the device is powered (R344). -/
def History.tick (h : History) : History :=
  if h.poweredNs + 1 < nsPerSecond then { h with poweredNs := h.poweredNs + 1 }
  else { h with poweredNs := 0, powered := Nat.min (2 ^ 32 - 1) (h.powered + 1) }

/-- Nanoseconds between two corrections of at most 1 ns: ±100 ppm (R268). -/
def steerPeriod : Nat := 10000

/-- The die steers toward a source, or toward the time pulse (R268, R377). -/
def steers (s : State) (d : Nat) : Bool :=
  (timeBlk s d).isSet && (decide ((timeBlk s d).src ≠ 31) || decide (d = 0 ∧ liveReg s 0 TIME_CTL % 4 = 3))

/-- A time base one nanosecond later: it never steps back. A correction is of 1 ns, toward what is still to be corrected; the pace, within the
bound, is free (log entry 47). -/
def tickTime (s : State) (d : Nat) : TimeBlk :=
  let t := timeBlk s d
  if t.steer + 1 < steerPeriod then { t with now := t.now + 1, steer := t.steer + 1 }
  else if !steers s d || decide (t.slew = 0) || decide ((Config.steer d t.now).toNat % 2 = 0) then { t with now := t.now + 1, steer := 0 }
  else if 0 < t.slew then { t with steer := 0, slew := t.slew - 1 }
  else { t with now := t.now + 2, steer := 0, slew := t.slew + 1 }

/-- At least two ports are in quarantine for class or profile, and no port is up (R317). -/
def disagreeing (s : State) : Bool :=
  let on := (List.range 24).filter (fun p => decide (2 ≤ domain s (72 + p)))
  let odd := on.filter (fun p => decide ((port s p).st = 3) && (decide ((port s p).qcause = 2) || decide ((port s p).qcause = 3)))
  decide (2 ≤ odd.length) && !on.any (fun p => decide (4 ≤ (port s p).st) && decide ((port s p).st ≤ 5))

/-- VAON is present: the input is on, or a trip holds the module off (R367, R372). -/
def vaon (s : State) : Bool := s.power.pwrGood || s.power.tripOff

/-- The end of an SCLK cycle: expiry applies where no node ID is held then (R315). -/
def Boot.endCycle (b : Boot) : Boot :=
  { b with expired := b.expired || (b.expiring && !b.assigned), cycleFrame := none, cycleAssign := false, expiring := false }

/-- Nothing of the cycle that ends is left at the host port (R283, R286). -/
def HostPort.endCycle (h : HostPort) : HostPort := { h with rung := 0, unrung := 0, posts := [] }

/-- One nanosecond of SCLK, whose cycle is 4 ns: a new cycle holds no ranked write and no event of the last one (R17, R283, R286,
R315). -/
def tickSclk (s : State) : State :=
  let b := { s.boot with up := s.boot.up + 1 }
  if s.sclk < 3 then { s with sclk := s.sclk + 1, boot := b } else { s with sclk := 0, ranked := [], boot := b.endCycle, host := s.host.endCycle }

/-- One nanosecond passes on both dies. -/
def tick (s : State) : State :=
  let s1 := setTime (setTime (tickSclk s) 0 (tickTime s 0)) 1 (tickTime s 1)
  let s2 := if vaon s1 then setHistory (setHistory s1 0 (history s 0).tick) 1 (history s 1).tick else s1
  { s2 with boot := { s2.boot with disagree := if disagreeing s2 then some (s2.boot.disagree.getD (elapsed s2)) else none } }

end Sys2Proof.Machine
end

