-- ==== Sys2Proof/Machine/Progress.lean ====
section
/-!
DEFINITION. Progress of bring-up (Table 16-1, Table 16-2) and the foremen's power domains as they are requested (R322 to R325).
-/

namespace Sys2Proof.Machine

-- bring-up (R305, R306) -----------------------------------------------------------------------------------------------------

/-- Set `STEP`; it never goes back. -/
def setStep (s : State) (n : Nat) : State := if s.boot.step < n then { s with boot := { s.boot with step := n } } else s

/-- Both dies take a `DEV_STATE`. -/
def setDevState (s : State) (n : Nat) : State :=
  stateChanged ([0, 1].foldl (fun t d => setService t d { service t d with state := n }) s) 0 n

/-- Every stack is zeroed and open. -/
def stacksOpen (s : State) : Bool := (List.range 8).all (fun k => (stack s k).open_)

/-- The steps of Table 16-2 that need no event of their own: `STEP` 3 once every stack is zeroed, joining once a node ID is held and both
images are verified, and `STEP` 4. -/
def bootProgress (s : State) : State :=
  let s1 := if s.boot.step = 2 ∧ stacksOpen s = true then setStep s 3 else s
  let s2 := if s1.boot.assigned = true ∧ 2 ≤ s1.boot.step ∧ (service s1 0).state = 0 then setDevState s1 1 else s1
  if s2.boot.assigned = true ∧ s2.boot.step = 3 then setStep s2 4 else s2

/-- A failure of die `d`: the safe state of the device, or in split mode of the die, with its reason; before ready, with the failure code of
Table 16-3. -/
def dieFail (s : State) (d code reason : Nat) (replace : Bool) : State :=
  enterSafe { s with boot := { s.boot with fail := if s.boot.step < 5 then code else s.boot.fail } } d reason replace

/-- A bring-up failure of Table 16-3. -/
def bootFail (s : State) (code reason : Nat) (replace : Bool) : State := dieFail s 0 code reason replace

-- domains (R322 to R325) ------------------------------------------------------------------------------------------------------

/-- Domain number of a foreman's local index (R322). -/
def localDomain (f i : Nat) : Nat :=
  let d := f / 4
  let q := f % 4
  if i < 8 then domHalf (32 * d + 2 * (8 * (q / 2) + i) + q % 2)
  else if i = 8 then domStack f
  else domPort (3 * f + (i - 9))

/-- The foreman that owns a domain, and the domain's local index there. -/
def domainOwner (n : Nat) : Nat :=
  if n < 64 then 4 * (n / 32) + 2 * (n % 32 / 16) + n % 2 else if n < 72 then n - 64 else (n - 72) / 3

/-- The domains of a foreman. -/
def foremanDomains (f : Nat) : List Nat := (List.range 12).map (localDomain f)

/-- A domain of the foreman is powering up or switching off. -/
def changing (s : State) (f : Nat) : Bool := (foremanDomains f).any (fun n => decide (domain s n = 1) || decide (domain s n = 3))

/-- Begin a change: power comes up, or, after the stopes of a half-level have been given stop (R135), admission to the domain's blocks stops (R19
step 1). -/
def beginChange (s : State) (n : Nat) (on : Bool) : State :=
  if on then (if domain s n = 0 then setDomain s n 1 else s)
  else if domain s n = 2 then
    let s1 := setDomain (if n < 64 then (halfStopes n).foldl stopProgram s else s) n 3
    if 64 ≤ n ∧ n < 72 then setStack s1 (n - 64) { stack s1 (n - 64) with open_ := false } else s1
  else s

/-- The foreman takes its waiting requests in order, one change at a time; `fuel` bounds those that change nothing. -/
def nextChanges : Nat → State → Nat → State
  | 0, s, _ => s
  | fuel + 1, s, f =>
    match (foreman s f).queue with
    | [] => s
    | (n, on) :: rest =>
      if changing s f then s
      else nextChanges fuel (beginChange (setForeman s f { foreman s f with queue := rest }) n on) f

/-- The foreman takes what it can of its waiting requests. -/
def takeChanges (s : State) (f : Nat) : State := nextChanges ((foreman s f).queue.length + 1) s f

/-- Queue a request for a domain. -/
def requestDomain (s : State) (n : Nat) (on : Bool) : State :=
  let f := domainOwner n
  takeChanges (setForeman s f { foreman s f with queue := (foreman s f).queue ++ [(n, on)] }) f

/-- The order in which a foreman powers its domains at bring-up (R324): its stack, its half-levels, its ports. -/
def bringUpOrder (f : Nat) : List Nat := [8, 0, 1, 2, 3, 4, 5, 6, 7, 9, 10, 11].map (localDomain f)

/-- Programs of a foreman's half-levels that a stop would change. -/
def foremanPrograms (s : State) (f : Nat) : List Nat :=
  ((List.range 8).flatMap (fun i => halfStopes (localDomain f i))).filter (fun n => match (stope s n).prog with
    | .running | .loading => true
    | _ => false)

/-- What a request for a domain changes (R17): its foreman's requests, and the domains, the stack and the programs of that foreman. -/
def domainUndo (s : State) (f : Nat) : List Undo :=
  .foreman f (foreman s f) :: .stackOpen f (stack s f).open_ :: (foremanDomains f).map (fun n => .domain n (domain s n)) ++
  (foremanPrograms s f).map (fun n => .program n (stope s n))

/-- Every foreman powers its domains. -/
def powerDomains (s : State) : State :=
  (List.range 8).foldl (fun t f => (bringUpOrder f).foldl (fun u n => requestDomain u n true) t) s

end Sys2Proof.Machine
end

