-- ==== Sys2Proof/Machine/Spdm.lean ====
section
/-!
DEFINITION. SPDM messages and the responder (R363, Table 19-4). The spec names the messages and the algorithms; their formats, the
transcripts and the key schedule are those of DMTF DSP0274 1.2, which it cites (PRESUMED, log entry 68). What a message holds that the
device chooses is free (`Config.spdmByte`).
-/

namespace Sys2Proof.Machine

-- measurements (Table 19-4) -----------------------------------------------------------------------------------------------------------

/-- `DIGEST` and `SVN` of an image in force. -/
def imageMeasure (i : Option Image) : List Byte := match i with
  | some x => sliceB x.digest 0 48 ++ toLE 4 x.svn
  | none => List.replicate 52 0

/-- Revoked slots, one bit each. -/
def revokedMask (s : State) : Nat := (List.range 4).foldl (fun a i => a + bitIf (s.security.revoked.contains i) (2 ^ i)) 0

/-- Value of measurement `i`, 1 to 5. -/
def measurement (s : State) (i : Nat) : List Byte := match i with
  | 1 => (List.range 48).map Config.romDigest
  | 2 => imageMeasure s.security.hf
  | 3 => imageMeasure s.security.fm
  | 4 => toLE 4 (rd s (gpage 0 1) 0x040).toNat ++ toLE 4 (rd s (gpage 0 1) 0x044).toNat ++
      (List.range 3).flatMap (fun k => toLE 1 (s.security.floors.getD k 0)) ++ toLE 1 (revokedMask s)
  | _ => sliceB s.boot.profile 0 48

/-- Measurements 1 to 4, of which the alias key is derived (Table 19-2). -/
def measuredBytes (s : State) : List Byte := measurement s 1 ++ measurement s 2 ++ measurement s 3 ++ measurement s 4

/-- DMTF value type of measurement `i`: ROM digest, firmware digests, hardware and firmware configuration; bit 7 marks a raw value. -/
def measureType (i : Nat) : Nat := [0, 0, 1, 1, 0x82, 0x83].getD i 0

/-- A measurement block. -/
def measureBlock (s : State) (i : Nat) : List Byte :=
  let v := measurement s i
  toLE 1 i ++ [1] ++ toLE 2 (3 + v.length) ++ toLE 1 (measureType i) ++ toLE 2 v.length ++ v

/-- Every measurement block in order. -/
def allMeasured (s : State) : List Byte := (List.range 5).flatMap (fun i => measureBlock s (i + 1))

-- what messages are made of -----------------------------------------------------------------------------------------------------------

/-- The characters of a label as bytes. -/
def ascii (t : String) : List Byte := t.toList.map (fun c => BitVec.ofNat 8 c.toNat)

/-- `n` bytes of draw `k` that the device chooses. -/
def drawn (k n : Nat) : List Byte := (List.range n).map (Config.spdmByte k)

/-- Seed of the alias key as a number. -/
def aliasNumber (s : State) : Nat := Crypto.beNat s.security.aliasSeed

/-- Certificate chain of slot 0, fixed at manufacture, or of slot 1, made at each reset. -/
def certChain (s : State) (slot : Nat) : List Byte :=
  let a := if slot = 0 then 0 else aliasNumber s
  (List.range (Config.certLen a slot % 2 ^ 16)).map (Config.certByte a slot)

/-- What is signed of a transcript: the context of 100 bytes and its digest. -/
def toSign (context : String) (transcript : List Byte) : List Byte :=
  let c := ascii context
  let v := ascii "dmtf-spdm-v1.2.*"
  Crypto.sha384 (v ++ v ++ v ++ v ++ List.replicate (36 - c.length) 0 ++ c ++ Crypto.sha384 transcript)

/-- The alias key's signature of a transcript. -/
def signed (s : State) (context : String) (transcript : List Byte) : List Byte :=
  (List.range 96).map (Config.aliasSign (aliasNumber s) (Crypto.beNat (toSign context transcript)))

/-- BinConcat of the key schedule. -/
def binConcat (n : Nat) (label : String) (context : List Byte) : List Byte := toLE 2 n ++ ascii "spdm1.2 " ++ ascii label ++ context

/-- Derive `n` bytes with a label. -/
def derive (secret : List Byte) (n : Nat) (label : String) (context : List Byte) : List Byte :=
  Crypto.hkdfExpand secret (binConcat n label context) n

/-- Handshake secret of a shared secret. -/
def handshakeOf (shared : List Byte) : List Byte := Crypto.hmac (List.replicate 48 0) shared

/-- The finished key of a direction, `req` or `rsp`, from transcript TH1. -/
def finishedKey (handshake th1 : List Byte) (label : String) : List Byte :=
  derive (derive handshake 48 label (Crypto.sha384 th1)) 48 "finished" []

/-- The master secret. -/
def masterSecretOf (handshake : List Byte) : List Byte := Crypto.hmac (derive handshake 48 "derived" []) (List.replicate 48 0)

/-- The key-wrapping key of a session, from its export master secret (Table 19-2). -/
def kekOf (handshake th2 : List Byte) : List Byte :=
  Crypto.hkdfExpand (derive (masterSecretOf handshake) 48 "exp master" (Crypto.sha384 th2)) Config.kekInfo 32

/-- Key and salt of one direction of a session (R361). -/
def directionKey (handshake th2 : List Byte) (label : String) : List Byte × List Byte :=
  let sec := derive (masterSecretOf handshake) 48 label (Crypto.sha384 th2)
  (derive sec 32 "key" [], (derive sec 12 "iv" []).take 4)

/-- A port's link keys of the session, as requester or as responder. -/
def linkKeysOf (asRequester : Bool) (handshake th2 : List Byte) : LinkKeys :=
  let q := directionKey handshake th2 "req app data"
  let r := directionKey handshake th2 "rsp app data"
  if asRequester then ⟨q.1, q.2, r.1, r.2⟩ else ⟨r.1, r.2, q.1, q.2⟩

/-- A message: version, code and two parameters, then its body. -/
def spdmMsg (code p1 p2 : Nat) (body : List Byte) : List Byte := toLE 1 0x12 ++ toLE 1 code ++ toLE 1 p1 ++ toLE 1 p2 ++ body

/-- Request code of a message. -/
def spdmCode (m : List Byte) : Nat := leAt m 1 1

/-- An ERROR message. -/
def spdmError (code : Nat) : List Byte := spdmMsg 0x7F code 0 []

-- the responder -----------------------------------------------------------------------------------------------------------------------------

/-- Nothing is asked before negotiation is done. -/
def Spdm.ready (c : Spdm) : Bool := c.version && c.caps && c.algs

/-- Measurement summary hash that a request asks for: none, or over every measurement. -/
def summaryHash (s : State) (want : Nat) : List Byte := if want = 0 then [] else Crypto.sha384 (allMeasured s)

/-- GET_VERSION begins a connection afresh. -/
def answerVersion (c : Spdm) (q : List Byte) : Spdm × List Byte :=
  let r : List Byte := [0x10, 0x04, 0, 0, 0, 1, 0x00, 0x12]
  ({ Spdm.reset with version := true, vca := q ++ r, session := c.session, pending := c.pending, nextSession := c.nextSession }, r)

/-- Capabilities: certificates, challenge, signed measurements, encryption and MAC, key exchange, heartbeat. -/
def answerCapabilities (draw : Nat) (c : Spdm) (q : List Byte) : Spdm × List Byte :=
  let r := spdmMsg 0x61 0 0 ([0] ++ drawn draw 1 ++ [0, 0] ++ toLE 4 0x22D6 ++ drawn (draw + 1) 8)
  if c.version then ({ c with caps := true, vca := c.vca ++ q ++ r }, r) else (c, spdmError 4)

/-- What an algorithm structure of this type offers, and 0 where the request has none. -/
def offered (structs : List Byte) (ty : Nat) : Nat → Nat
  | 0 => 0
  | n + 1 => if leAt structs 0 1 = ty then leAt structs 2 2 else offered (structs.drop (4 + 4 * (leAt structs 1 1 % 16))) ty n

/-- Algorithms: ECDSA P-384, SHA-384, secp384r1 and AES-256-GCM, each where the request offers it. -/
def answerAlgorithms (c : Spdm) (q : List Byte) : Spdm × List Byte :=
  let structs := q.drop (32 + 4 * (leAt q 28 1 + leAt q 29 1))
  let n := leAt q 2 1
  let dhe := offered structs 2 n &&& 0x10
  let aead := offered structs 3 n &&& 2
  let sched := offered structs 5 n &&& 1
  let asym := leAt q 8 4 &&& 0x80
  let hash := leAt q 12 4 &&& 2
  let r := spdmMsg 0x63 3 0 (toLE 2 48 ++ toLE 1 (leAt q 6 1 &&& 1) ++ [0] ++ toLE 4 4 ++ toLE 4 asym ++ toLE 4 hash ++ List.replicate 16 0 ++
    [2, 0x20] ++ toLE 2 dhe ++ [3, 0x20] ++ toLE 2 aead ++ [5, 0x20] ++ toLE 2 sched)
  if !(c.version && c.caps) then (c, spdmError 4)
  else if asym = 0 ∨ hash = 0 ∨ dhe = 0 ∨ aead = 0 ∨ sched = 0 then (c, spdmError 1)
  else ({ c with algs := true, vca := c.vca ++ q ++ r }, r)

/-- Digests of both chains. -/
def answerDigests (s : State) (c : Spdm) (q : List Byte) : Spdm × List Byte :=
  let r := spdmMsg 0x01 0 3 (Crypto.sha384 (certChain s 0) ++ Crypto.sha384 (certChain s 1))
  if c.ready then ({ c with auth := c.auth ++ q ++ r }, r) else (c, spdmError 4)

/-- A portion of a chain. -/
def answerCertificate (s : State) (c : Spdm) (q : List Byte) : Spdm × List Byte :=
  let slot := leAt q 2 1
  let chain := certChain s slot
  let off := leAt q 4 2
  let part := ((chain.drop off).take (leAt q 6 2)).take 4000
  let r := spdmMsg 0x02 slot 0 (toLE 2 part.length ++ toLE 2 (chain.length - off - part.length) ++ part)
  if !c.ready then (c, spdmError 4)
  else if 2 ≤ slot ∨ chain.length ≤ off then (c, spdmError 1)
  else ({ c with auth := c.auth ++ q ++ r }, r)

/-- A signature by the alias key over the connection so far. -/
def answerChallenge (s : State) (draw : Nat) (c : Spdm) (q : List Byte) : Spdm × List Byte :=
  let slot := leAt q 2 1
  let r := spdmMsg 0x03 slot 3 (Crypto.sha384 (certChain s slot) ++ drawn draw 32 ++ summaryHash s (leAt q 3 1) ++ [0, 0])
  if !c.ready then (c, spdmError 4)
  else if 2 ≤ slot then (c, spdmError 1)
  else ({ c with auth := [] }, r ++ signed s "responder-challenge_auth signing" (c.vca ++ c.auth ++ q ++ r))

/-- Measurements: their number, one of them, or all; signed where the request asks for it. -/
def answerMeasurements (s : State) (draw : Nat) (c : Spdm) (q : List Byte) : Spdm × List Byte :=
  let op := leAt q 3 1
  let sign := bitsOf (leAt q 2 1) 0 0 = 1
  let blocks := if op = 0 then [] else if op = 0xFF then allMeasured s else measureBlock s op
  let count := if op = 0 then 0 else if op = 0xFF then 5 else 1
  let r := spdmMsg 0x60 (if op = 0 then 5 else 0) (if sign then leAt q 36 1 % 16 else 0)
    (toLE 1 count ++ toLE 3 blocks.length ++ blocks ++ drawn draw 32 ++ [0, 0])
  if !c.ready then (c, spdmError 4)
  else if 5 < op ∧ op ≠ 0xFF then (c, spdmError 1)
  else if sign then
    ({ c with meas := [] }, r ++ signed s "responder-measurements signing" (c.vca ++ c.meas ++ q ++ r))
  else ({ c with meas := c.meas ++ q ++ r }, r)

/-- KEY_EXCHANGE begins a session. -/
def answerKeyExchange (s : State) (draw : Nat) (c : Spdm) (q : List Byte) : Spdm × List Byte :=
  let slot := leAt q 3 1
  let shared := (List.range 48).map (Config.kexSecret draw (Crypto.beNat (sliceB q 40 96)))
  let r := spdmMsg 0x64 0 0 (toLE 2 c.nextSession ++ [0, 0] ++ drawn draw 32 ++ (List.range 96).map (Config.kexPublic draw) ++
    summaryHash s (leAt q 2 1) ++ [0, 0])
  let th := c.vca ++ Crypto.sha384 (certChain s slot) ++ q ++ r
  let r1 := r ++ signed s "responder-key_exchange_rsp signing" th
  let th1 := th ++ signed s "responder-key_exchange_rsp signing" th
  let hs := handshakeOf shared
  let mac := Crypto.hmac (finishedKey hs th1 "rsp hs data") (Crypto.sha384 th1)
  if !c.ready then (c, spdmError 4)
  else if 2 ≤ slot then (c, spdmError 1)
  else ({ c with pending := some ⟨leAt q 4 2 + 2 ^ 16 * c.nextSession, th1 ++ mac, hs, 0⟩, nextSession := (c.nextSession + 1) % 2 ^ 16 }, r1 ++ mac)

/-- Transcript TH2 of a session that a FINISH request completes. -/
def th2Of (x : Session) (q : List Byte) : List Byte := x.th ++ q ++ spdmMsg 0x65 0 0 []

/-- The requester's verify data in FINISH is right. -/
def finishOk (x : Session) (q : List Byte) : Bool :=
  decide (sliceB q 4 48 =
    Crypto.hmac (finishedKey x.secret (x.th.take (x.th.length - 48)) "req hs data") (Crypto.sha384 (x.th ++ q.take 4)))

/-- FINISH completes a session: the second replaces the first. -/
def answerFinish (id : Nat) (c : Spdm) (q : List Byte) : Spdm × List Byte := match c.pending with
  | none => (c, spdmError 2)
  | some x =>
    if x.id ≠ id then (c, spdmError 2)
    else if !finishOk x q then ({ c with pending := none }, spdmError 6)
    else ({ c with pending := none, session := some { x with th := th2Of x q } }, spdmMsg 0x65 0 0 [])

/-- The session in force has this ID. -/
def Spdm.holds (c : Spdm) (id : Nat) : Bool := match c.session with
  | some x => decide (x.id = id)
  | none => false

/-- HEARTBEAT keeps a session alive. -/
def answerHeartbeat (id : Nat) (c : Spdm) : Spdm × List Byte :=
  if c.holds id then ({ c with session := c.session.map (fun x => { x with sent := x.sent + 1 }) }, spdmMsg 0x68 0 0 []) else (c, spdmError 2)

/-- END_SESSION. -/
def answerEnd (id : Nat) (c : Spdm) : Spdm × List Byte :=
  if c.holds id then ({ c with session := none }, spdmMsg 0x6C 0 0 []) else (c, spdmError 2)

/-- Key and IV by which the device seals records of a session: before FINISH those of the handshake, after it those of the application. -/
def Session.recordKey (x : Session) (finished : Bool) : List Byte × List Byte :=
  let sec := if finished then derive (masterSecretOf x.secret) 48 "rsp app data" (Crypto.sha384 x.th)
    else derive x.secret 48 "rsp hs data" (Crypto.sha384 (x.th.take (x.th.length - 48)))
  (derive sec 32 "key" [], derive sec 12 "iv" [])

/-- A message as record `n` of its session and direction: AES-256-GCM over its length and bytes, with the record's header authenticated. -/
def sealRecord (id n : Nat) (k : List Byte × List Byte) (m : List Byte) : List Byte :=
  let p := toLE 2 m.length ++ m
  let head := toLE 4 id ++ toLE 2 (p.length + 16)
  head ++ Crypto.gcmSeal k.1 (List.zipWith (· ^^^ ·) k.2 (toLE 12 n)) head p

/-- The response to a host's request as it leaves: the answers to FINISH, HEARTBEAT and END_SESSION are records of their session, where the device
holds it (R363; log entry 68). -/
def hostRecord (c : Spdm) (code id : Nat) (m : List Byte) : List Byte :=
  let of (x : Option Session) (finished : Bool) : List Byte := match x with
    | some y => if y.id = id then sealRecord id (if finished then y.sent else 0) (y.recordKey finished) m else m
    | none => m
  if code = 0xE5 then of c.pending false else if code = 0xE8 ∨ code = 0xEC then of c.session true else m

/-- Answer a request: the connection after it and the response. `id` is the session it came in. -/
def respond (s : State) (draw id : Nat) (c : Spdm) (q : List Byte) : Spdm × List Byte := match spdmCode q with
  | 0x84 => answerVersion c q
  | 0xE1 => answerCapabilities draw c q
  | 0xE3 => answerAlgorithms c q
  | 0x81 => answerDigests s c q
  | 0x82 => answerCertificate s c q
  | 0x83 => answerChallenge s draw c q
  | 0xE0 => answerMeasurements s draw c q
  | 0xE4 => answerKeyExchange s draw c q
  | 0xE5 => answerFinish id c q
  | 0xE8 => answerHeartbeat id c
  | 0xEC => answerEnd id c
  | _ => (c, spdmError 7)

end Sys2Proof.Machine
end

