-- ==== Sys2Proof/Machine/Links.lean ====
section
/-!
DEFINITION. Link ports: sending and receiving frames, credit, replay, training and the agreement with the peer (R236 to R245,
R255, R361).
-/

namespace Sys2Proof.Machine

-- commands of sending ----------------------------------------------------------------------------------------------------

/-- FRAME_TRANSMIT: a queued frame, or a replay, is sent. -/
def execFrameTransmit (port : Fin 24) (s : State) : Out := .next (if linkRuns s port then transmitNext s port else s)

/-- IDLE_FRAME_TIMER: with nothing sent for 1 µs, an idle frame. -/
def execIdleFrameTimer (port : Fin 24) (s : State) : Out :=
  .next (if linkRuns s port && decide ((Machine.port s port).sentAt + 1000 ≤ elapsed s) then emitIdle s port false else s)

-- training (Table 12-2, R241) -----------------------------------------------------------------------------------------------------

/-- The port's own agree body (Table 12-3). -/
def agreeBody (s : State) (p : Nat) : List Byte :=
  let d := portDie p
  toLE 4 (rd s (gpage 0 1) 0x040).toNat ++ toLE 4 (rd s (gpage 0 1) 0x044).toNat ++
  toLE 4 ((if s.boot.assigned then nodeDie s d else 0x7FFF) + 2 ^ 16 * p) ++ toLE 4 (sysEpoch s d).toNat ++ List.replicate 16 0 ++
  s.boot.profile

/-- Operations and notices that wait stay; the port's own frames go. -/
def Payload.transit : Payload → Bool
  | .op _ => true
  | .notice _ => true
  | _ => false

/-- `LINK_CRYPT` as last committed, which the next full training takes also before the page applies it (R361). -/
def committedCrypt (s : State) : W32 :=
  ((s.commits.find? (fun c => decide (gpage c.die c.page = pgSecurity))).bind (fun c =>
    (c.vals.find? (fun v => v.1 = LINK_CRYPT)).map (fun v => v.2))).getD (rd s pgSecurity LINK_CRYPT)

/-- Full training starts: held frames, credit, sequence numbers and the session are gone (R241, R361), and `LINK_CRYPT` is taken. -/
def startTraining (s : State) (p : Nat) : State :=
  let x := port s p
  bump (setPort s p { Port.reset with
    st := 2, training := .electrical, queue := x.queue.filter (fun f => f.p.transit), sentAt := x.sentAt
    crypt := decide (bitsOf (committedCrypt s).toNat p p = 1), trainAt := elapsed s }) (pgPort p) RETRAINS 1

/-- A fast retrain starts; `LSEQ`, the held frames and the session stay. -/
def startFast (s : State) (p : Nat) : State :=
  let x := port s p
  if 3 ≤ x.st ∧ x.st ≤ 5 ∧ x.training ≠ .fast then bump (setPort s p { x with training := .fast }) (pgPort p) RETRAINS 1 else s

/-- Resend every held frame from `LACK` + 1; the eighth replay in a row without progress starts a fast retrain (R239, R241). -/
def replay (s : State) (p : Nat) : State :=
  let x := port s p
  let s1 := bump (setPort s p { x with
    held := x.held.map (fun f => { f with sent := false }), replays := x.replays + 1, progressAt := elapsed s }) (pgPort p) P_REPLAYS 1
  if 8 ≤ x.replays + 1 then startFast (setPort s1 p { port s1 p with replays := 0 }) p else s1

/-- The peer's `LACK`, and its credit. -/
def takeAck (s : State) (p : Nat) (f : RxFrame) : State :=
  let x := port s p
  let covered (g : LFrame) : Bool := decide ((f.lack + 4096 - g.lseq) % 4096 < 2048)
  let held := x.held.filter (fun g => !covered g)
  let moved := decide (held.length < x.held.length)
  let s1 := setPort s p { x with
    held := held, replays := if moved then 0 else x.replays, progressAt := if moved then elapsed s else x.progressAt
    credit := x.credit.set f.crLane (Nat.min (lane laneBuffer f.crLane) (lane x.credit f.crLane + 64 * f.crUnits)) }
  if f.nak then replay s1 p else s1

/-- A frame out of sequence, or with a bad CRC: NAK, once for each break. -/
def sendNak (s : State) (p : Nat) : State :=
  let x := port s p
  if x.nakSent then s else emitIdle (setPort s p { x with nakSent := true }) p true

/-- Receive a frame whose type a row names: what the link layer does with it (R239, R240), and the frame where it is accepted. Idle and
safe-idle frames stand outside the sequence. An encrypted operation is opened (R360). -/
def receive (s : State) (p : Nat) (bs : List Byte) (ty : Nat) : State × Option RxFrame :=
  if !linkRuns s p then (s, none)
  else
    let pg := pgPort p
    match checkFrame bs with
    | .stomped => (bump s pg STOMPED 1, none)
    | .broken _ | .bad => (sendNak (bump s pg CRC_ERR 1) p, none)
    | .good f =>
      if f.ftype ≠ ty then (s, none)
      else if ty = 1 ∨ ty = 5 then (takeAck s p f, some f)
      else
        let x := port s p
        let opened : Option RxFrame := match x.keys with
          | some k => if ty = 0 then (openBody k f).map (fun b => { f with body := b }) else some f
          | none => some f
        match opened with
        | none => (sendNak (bump s pg CRC_ERR 1) p, none)
        | some g =>
          if f.lseq ≠ x.rxNext then (sendNak s p, none)
          else (takeAck (setPort s p { x with rxNext := (x.rxNext + 1) % 4096, nakSent := false }) p f, some g)

/-- A frame that ends at this port gives its buffer back. -/
def consume (s : State) (p : Nat) (f : RxFrame) : State := freed s p f.lane f.bytes

/-- IDLE_FRAME: credit and LACK. -/
def execIdleFrame (port : Fin 24) (bytes : List Byte) (s : State) : Out := .next (receive s port bytes 1).1

/-- REPLAY_TIMEOUT: 8 µs without progress of LACK while frames are held. -/
def execReplayTimeout (port : Fin 24) (s : State) : Out :=
  let x := Machine.port s port
  .next (if linkRuns s port && decide (x.held ≠ []) && decide (x.progressAt + 8000 ≤ elapsed s) then replay s port else s)

/-- What a port's CMD changes (R17): the port and its count of retrains, or the requests for its domain. -/
def portUndo (s : State) (p : Nat) : List Undo :=
  .port p (port s p) :: .reg RETRAINS (rd s (pgPort p) RETRAINS) :: domainUndo s (domainOwner (domPort p))

/-- The writer has authority over a port's management-only CMD. -/
def portCmd (s : State) (w : Agent) (p : Nat) (act : State → State) : State :=
  if isSafe s (portDie p) then s
  else if !isParent s w (pgPort p) then refuseWrite s w (pgPort p) P_CMD
  else ranked s w (pgPort p) P_CMD (portUndo s p) (fun t => if domain t (domPort p) = 2 then act t else t)

/-- FAST_RETRAIN: a write of 1 to CMD. -/
def execFastRetrain (w : Agent) (port : Fin 24) (s : State) : Out := .next (portCmd s w port (fun t => startFast t port))

/-- FULL_TRAINING: a write of 2 to CMD. -/
def execFullTraining (w : Agent) (port : Fin 24) (s : State) : Out := .next (portCmd s w port (fun t => startTraining t port))

/-- PORT_OFF: a write of 3 to CMD starts the switching-off of R19. -/
def execPortOff (w : Agent) (port : Fin 24) (s : State) : Out := .next (portCmd s w port (fun t => requestDomain t (domPort port) false))

/-- FAST_RETRAIN_DONE: the port replays what it holds from LACK + 1, or trains fully. -/
def execFastRetrainDone (port : Fin 24) (ok : Bool) (s : State) : Out :=
  let x := Machine.port s port
  .next (if portOn s port && !isSafe s (portDie port) && decide (x.training = .fast) then
    (if ok then bump (setPort s port { x with
        training := .none, held := x.held.map (fun f => { f with sent := false }), progressAt := elapsed s })
        (pgPort port) P_REPLAYS (if x.held = [] then 0 else 1)
     else startTraining s port)
    else s)

/-- Idle and agree frames start after electrical training. -/
def startAgree (s : State) (p : Nat) : State :=
  let t := elapsed s
  queueOwn (emitIdle (setPort s p { port s p with training := .agree t, agreeSent := t }) p false) p (.agree (agreeBody s p))

/-- ELECTRICAL_TRAINING_DONE: the flight time is measured; a link that fails, or is longer than 1,750 ns, stays down. -/
def execElectricalTrainingDone (port : Fin 24) (flight : Option Nat) (s : State) : Out :=
  let x := Machine.port s port
  let down (t : State) : State := setPort t port { Machine.port t port with st := 1, training := .failed (elapsed t) }
  .next (if portOn s port && !isSafe s (portDie port) && decide (x.training = .electrical) then
    (match flight with
     | none => down s
     | some f =>
       let s1 := wr s (pgPort port) FLIGHT_NS (BitVec.ofNat 32 (f % 2048))
       if f ≤ 1750 then startAgree s1 port else down s1)
    else s)

/-- TRAINING_RETRY_TIMER: 1 s after a failed training. -/
def execTrainingRetryTimer (port : Fin 24) (s : State) : Out :=
  .next (match (Machine.port s port).training with
    | .failed t =>
      if portOn s port && !isSafe s (portDie port) && decide (t + 1000000000 ≤ elapsed s) then startTraining s port else s
    | _ => s)

/-- PEER_SIGNAL_DETECTED: a port that is down and not training starts to train. -/
def execPeerSignalDetected (port : Fin 24) (s : State) : Out :=
  let x := Machine.port s port
  .next (if decide (domain s (domPort port) = 2) && !isSafe s (portDie port) && decide (x.st = 1) && decide (x.training = .none) then
    startTraining s port else s)

-- agreement (R242, R243) ----------------------------------------------------------------------------------------------------------------

/-- Time agrees with the peer: a port that is up finds its offset within ±25 ns, any other has had two exchanges in a row within it since time
wait began (R243). -/
def Port.timeAgreed (x : Port) : Bool := if x.st = 5 then decide (x.theta.natAbs ≤ 25) else decide (2 ≤ x.good)

/-- The first row of Table 12-4 that matches: state and `QCAUSE`. -/
def agreeOutcome (own : List Byte) (x : Port) : Nat × Nat :=
  let peer := x.peerAgree
  let node (b : List Byte) : Nat := leAt b 8 2 % 2 ^ 15
  if leAt own 0 4 ≠ leAt peer 0 4 then (3, 1)
  else if bitsOf (leAt own 4 4) 15 8 ≠ bitsOf (leAt peer 4 4) 15 8 then (3, 2)
  else if sliceB own 0x20 48 ≠ sliceB peer 0x20 48 then (3, 3)
  else if node own = 0x7FFF ∨ node peer = 0x7FFF then (3, 4)
  else if node own / 2 = node peer / 2 then (3, 5)
  else if x.crypt && decide (x.attest ≠ 2) then (3, 6)
  else if !x.timeAgreed then (4, 0)
  else (5, 0)

/-- The held frames that quarantine does not carry are discarded by a port that leaves the up state (R244). -/
def dropData (x : Port) : Port := { x with held := x.held.filter (fun f => carriesP 3 f.lane f.p) }

/-- The 8-byte prefix of an attestation frame (R364). -/
def attestPrefix (number off total : Nat) (isRequest : Bool) : List Byte :=
  toLE 8 (number % 2 ^ 16 + 2 ^ 16 * off + 2 ^ 32 * total + bitIf isRequest (2 ^ 48))

/-- An SPDM message leaves in attestation frames of at most 1,024 bytes of it. -/
def attestSend (s : State) (p : Nat) (isRequest : Bool) (m : List Byte) : State :=
  let k := (port s p).msgCount
  let s1 := (List.range (ceilDiv m.length 1024)).foldl (fun t i =>
    queueOwn t p (.attest (attestPrefix k (1024 * i) m.length isRequest ++ (m.drop (1024 * i)).take 1024))) s
  setPort s1 p { port s1 p with msgCount := k + 1 }

/-- The port sends a request and waits for its response. -/
def attestAsk (s : State) (p : Nat) (r : PeerReq) (q : List Byte) : State :=
  attestSend (setPort s p { port s p with requester := { r with sent := q } }) p true q

/-- This port has the lower node-die ID of the two, and requests first (R364). -/
def asksFirst (s : State) (p : Nat) : Bool :=
  decide (nodeDie s (portDie p) < leAt (port s p).peerAgree 8 2 % 2 ^ 15)

/-- The port begins to request: GET_VERSION. -/
def beginAsking (s : State) (p : Nat) : State :=
  attestAsk s p { PeerReq.reset with step := 1 } [0x10, 0x84, 0, 0]

/-- Attestation begins; the lower node-die ID requests first. -/
def beginAttest (s : State) (p : Nat) : State :=
  let s1 := setPort s p { port s p with attest := 1, attestAt := elapsed s }
  if asksFirst s1 p then beginAsking s1 p else s1

/-- Apply Table 12-4 to a port that has its peer's agree frame: a comparison of two agree frames (`compared`) is an event for the foreman, and
so is any other change. A port that only lacks its session starts to attest (R361). -/
def applyAgree (s : State) (p : Nat) (compared : Bool) : State :=
  let x := port s p
  if x.peerAgree = [] ∨ x.st < 2 ∨ 5 < x.st then s
  else
    let r := agreeOutcome (agreeBody s p) x
    let x1 := if 4 ≤ x.st ∧ r.1 = 3 then dropData x else x
    let s1 := setPort s p { x1 with
      st := r.1, qcause := r.2, training := if x1.agreeing then .none else x1.training, good := if x.st = 5 ∧ r.1 = 4 then 0 else x1.good }
    let s2 := if r.2 = 6 ∧ x1.attest = 0 then beginAttest s1 p else s1
    if compared = true ∨ r.1 ≠ x.st ∨ r.2 ≠ x.qcause then event s2 (pgPort p) else s2

/-- What the device says of itself has changed: agree frames go out again, after its retrain on a port that is retraining, and Table 12-4 is
applied afresh (R242). -/
def reagree (s : State) (d : Nat) : State :=
  (List.range 12).foldl (fun t i =>
    let p := 12 * d + i
    let x := port t p
    if portOn t p && !isSafe t d && (decide (3 ≤ x.st ∧ x.st ≤ 5) || (decide (x.st = 2) && x.agreeing)) then
      applyAgree (queueOwn t p (.agree (agreeBody t p))) p true
    else t) s

/-- AGREE_FRAME: the peer's agree frame is kept and compared. -/
def execAgreeFrame (port : Fin 24) (bytes : List Byte) (s : State) : Out :=
  let r := receive s port bytes 2
  .next (match r.2 with
    | none => r.1
    | some f =>
      let s1 := consume r.1 port f
      let b := sliceB f.body 0 80
      let s2 := wr s1 (pgPort port) PEER (BitVec.ofNat 32 (leAt b 8 4 % 2 ^ 15 + 2 ^ 16 * (leAt b 8 4 / 2 ^ 16 % 32)))
      let s3 := wr s2 (pgPort port) PEER_REV (BitVec.ofNat 32 (leAt b 4 4))
      applyAgree (setPort s3 port { Machine.port s3 port with peerAgree := b }) port true)

/-- AGREE_REPEAT_TIMER: every 1 ms until the peer's agree frame arrives. -/
def execAgreeRepeatTimer (port : Fin 24) (s : State) : Out :=
  let x := Machine.port s port
  let t := elapsed s
  .next (if linkRuns s port && x.agreeing && decide (x.agreeSent + 1000000 ≤ t) then
    queueOwn (setPort s port { x with agreeSent := t }) port (.agree (agreeBody s port)) else s)

/-- AGREE_WAIT_TIMEOUT: 10 ms without the peer's agree frame; back to electrical training. -/
def execAgreeWaitTimeout (port : Fin 24) (s : State) : Out :=
  .next (match (Machine.port s port).training with
    | .agree since => if linkRuns s port && decide (since + 10000000 ≤ elapsed s) then startTraining s port else s
    | _ => s)

-- the safe state on a link (R245) ----------------------------------------------------------------------------------------------------------

/-- SAFE_IDLE_TIMER: in the safe state, a safe-idle frame on every port each 1 µs. -/
def execSafeIdleTimer (port : Fin 24) (s : State) : Out :=
  let d := portDie port
  let x := Machine.port s port
  .next (if portOn s port && isSafe s d && decide (x.sentAt + 1000 ≤ elapsed s) then
    emitFrame s port x.txNext 4 0 (.safeIdle (toLE 8 ((if s.boot.assigned then nodeDie s d else 0x7FFF) + 2 ^ 16 * (service s d).reason))) false
  else s)

/-- SAFE_IDLE_FRAME: the port becomes peer-safe, with the peer's reason; its held frames are discarded, and what waits stays
until its deadline (R245, R248). -/
def execSafeIdleFrame (port : Fin 24) (bytes : List Byte) (s : State) : Out :=
  let r := receive s port bytes 5
  .next (match r.2 with
    | none => r.1
    | some f =>
      setPort r.1 port { Machine.port r.1 port with
        st := 6, qcause := 0, peerReason := leAt f.body 2 1, training := .none, held := [],
        queue := (Machine.port r.1 port).queue.filter (fun h => h.p.transit), keys := none, peerAgree := [] })

end Sys2Proof.Machine
end

