-- ==== Sys2Proof/Machine/Program.lean ====
section
/-!
DEFINITION. Signed images (R354, R355) and the control of stope programs: load, launch, stop and the return to ready (R113, R132, R133).
-/

namespace Sys2Proof.Machine

/-- Fields of an image header (Table 19-1). -/
structure ImageHdr where
  ty : Nat
  slot : Nat
  svn : Nat
  length : Nat
  entry : Nat
  /-- the magic matches and every reserved field is 0 -/
  formed : Bool
  digest : List Byte
  sig : List Byte
  pub : List Byte
deriving DecidableEq, Repr

def ImageHdr.parse (bs : List Byte) : ImageHdr :=
  let w := leAt bs 4 4
  { ty := bitsOf w 7 0, slot := bitsOf w 9 8, svn := leAt bs 8 4, length := leAt bs 0xC 4, entry := leAt bs 0x10 4
    formed := leAt bs 0 4 == 0x5CF01A6E && w / 2 ^ 10 == 0 && leAt bs 0x14 4 == 0 && leAt bs 0x108 248 == 0
    digest := sliceB bs 0x18 48, sig := sliceB bs 0x48 96, pub := sliceB bs 0xA8 96 }

/-- Image types of Table 19-1. -/
abbrev imHEADFRAME : Nat := 1
abbrev imFOREMAN : Nat := 2
abbrev imSTOPE : Nat := 3

/-- `LENGTH`, `ENTRY` and `SVN` keep Table 19-1. -/
def ImageHdr.sized (h : ImageHdr) : Bool :=
  decide (h.svn ≤ 64) &&
  (if h.ty = imSTOPE then decide (h.length % 8 = 0) && decide (8 ≤ h.length) && decide (h.length ≤ 65536) && decide (h.entry = 0)
   else decide (h.length ≤ (if h.ty = imHEADFRAME then 0x400000 else 0x100000)) && decide (h.entry < h.length))

/-- The fused hash of a root key slot (Table 19-2). -/
def fusedHash (slot : Nat) : List Byte := (List.range 48).map (Config.keyHash slot)

/-- The floor of an image type (R356). -/
def floorOfType (s : State) (ty : Nat) : Nat := s.security.floors.getD (ty - 1) 0

/-- The checks of R355 on a header and a body, in their order. -/
def imageOk (s : State) (ty : Nat) (hdr body : List Byte) : Bool :=
  let h := ImageHdr.parse hdr
  h.formed && decide (h.ty = ty) && h.sized && decide (body.length = h.length) &&
  !s.security.revoked.contains h.slot && decide (Crypto.sha384 h.pub = fusedHash h.slot) &&
  Crypto.ecdsaVerify (Crypto.sha384 (sliceB hdr 0 0x48)) h.pub h.sig &&
  decide (Crypto.sha384 body = h.digest) && decide (floorOfType s ty ≤ h.svn)

/-- An image given as one string of bytes. -/
def imageAccepted (s : State) (ty : Nat) (image : List Byte) : Bool := imageOk s ty (sliceB image 0 512) (image.drop 512)

/-- A rejection is counted (R355). -/
def countReject (s : State) : State := bump s pgSecurity REJECTS 1

-- loading (R132) -----------------------------------------------------------------------------------------------------------

/-- The stope is busy: loading, running or stopping (Table 15-8). -/
def Stope.busy (x : Stope) : Bool :=
  match x.prog with
  | .loading => true
  | .running => true
  | .stopping => true
  | _ => false

/-- A command to `PROG_CMD` that the stope does not take (R133, R292). -/
def refuseCmd (s : State) (w : Agent) (n : Nat) : State := refuseWrite s w (pgStope n) PROG_CMD

/-- The half-level of a stope is powered. -/
def stopeOn (s : State) (n : Nat) : Bool := decide (domain s (domHalf (halfOf n)) = 2 ∨ domain s (domHalf (halfOf n)) = 3)

/-- The device has not been ready since its reset (R318). -/
def beforeReady (s : State) : Bool := decide (s.boot.step < 5)

/-- Address of the image. -/
def progImage (s : State) (n : Nat) : Nat := (rd64 s (pgStope n) PROG_IMG_LO).toNat

/-- Bytes of the image that a load reads: its header, and then the code that the header's `LENGTH` names. -/
def Stope.imageSize (x : Stope) : Nat := if x.img.length < 512 then 512 else 512 + Nat.min (ImageHdr.parse (x.img.take 512)).length 65536

/-- A load goes on reading its image, by 4 KiB at a time, each read in the queues of the banks or stacks that hold it, with the end of the load's 2 ms as
its deadline and in the last class (R132, R138, R160, R263; log entry 138). An image that does not lie in one range of the device, or lies across
a failed bridge, cannot be read; while the bridge retrains, the read waits. -/
def imageNext (s : State) (n : Nat) : State :=
  let x := stope s n
  let a := progImage s n
  let k := Nat.min 4096 (x.imageSize - x.img.length)
  let tag := s.nextOp
  if x.prog ≠ .loading ∨ x.imgOp.isSome = true ∨ x.imgBad = true ∨ k = 0 then s
  else if !onDevice s a || decide (2 ≤ aSpace a) || !inRange a x.imageSize || (decide (aDie a ≠ n / 256) && decide (s.bridge.st = 3)) then
    setStope s n { x with imgBad := true }
  else if aDie a ≠ n / 256 ∧ s.bridge.st ≠ 2 then s
  else performAt (freshOp (setStope s n { x with imgOp := some tag })).1 (aDie a)
    (newMsg s (aDie a) 3 0 2 0 scavenge (a + x.img.length) k (x.loadAt + 2000000) 0 []) (.image n tag)

/-- Every stope that loads goes on. -/
def tendLoads (s : State) : State := s.stopes.foldl (fun t p => imageNext t p.1) s

/-- A write of 1 to `PROG_CMD`. -/
def progLoad (s : State) (w : Agent) (n : Nat) : State :=
  let x := stope s n
  if isSafe s (n / 256) then s
  else if !stopeOn s n || x.busy || beforeReady s then refuseCmd s w n
  else imageNext (setStope s n { x with prog := .loading, loadAt := now s (n / 256), img := [], imgOp := none, imgBad := false }) n

/-- Words of a program's body. -/
def codeWords (body : List Byte) : Sparse W64 :=
  (List.range (body.length / 8)).foldl (fun m i => Sparse.set 0 m i (BitVec.ofNat 64 (leAt body (8 * i) 8))) []

/-- Verification and copying end once the image has been read or cannot be (R132). -/
def progLoaded (s : State) (n : Nat) : State :=
  let x := stope s n
  let reject : State := countReject (setStope s n (x.emptied .rejected))
  if x.imgBad then reject
  else if x.img.length < x.imageSize then s
  else if imageAccepted s imSTOPE x.img then
    setStope s n { x with imem := codeWords (x.img.drop 512), codeLen := (x.img.length - 512) / 8, prog := .ready, img := [] }
  else reject

-- launching and stopping (R113, R133) ------------------------------------------------------------------------------------------

/-- The registers of a launched program. -/
def launchRegs (s : State) (n : Nat) : Sparse W64 :=
  let v (o : Nat) : W64 := rd64 s (pgStope n) o
  [(1, v ARG0_LO), (2, v (ARG0_LO + 8)), (3, v (ARG0_LO + 16)), (4, v (ARG0_LO + 24)), (30, v SEED_LO), (31, v STEP_LO)].foldl
    (fun m p => Sparse.set 0 m p.1 p.2) []

/-- A write of 2 to `PROG_CMD`. -/
def progLaunch (s : State) (w : Agent) (n : Nat) : State :=
  let x := stope s n
  if isSafe s (n / 256) then s
  else if !stopeOn s n || decide (x.prog ≠ .ready) || beforeReady s then refuseCmd s w n
  else
    let s1 := wr s (pgOutlier n) FB_LEFT (rd s (pgOutlier n) FB_BUDGET)
    setStope s1 n { Stope.reset with
      imem := x.imem, codeLen := x.codeLen, prog := .running, pc := fld (rd s (pgStope n) PROG_ENTRY) 12 0, s := launchRegs s n }

/-- A write of 3 to `PROG_CMD`: never refused (R133). -/
def progStop (s : State) (n : Nat) : State :=
  if isSafe s (n / 256) then s else stopProgram s n

/-- PROG_CMD_NONE: a write of 0 has no effect and is never refused (Table 06-8). -/
def execProgCmdNone (_ : Agent) (_ : Fin 512) (s : State) : Out := .next s

/-- PROG_LOAD. -/
def execProgLoad (w : Agent) (st : Fin 512) (s : State) : Out := .next (progLoad s w st)

/-- PROG_LOAD_DONE: a load whose image has not been read yet goes on reading. -/
def execProgLoadDone (st : Fin 512) (s : State) : Out :=
  .next (if (stope s st).prog = .loading then progLoaded (imageNext s st) st else s)

/-- PROG_LAUNCH. -/
def execProgLaunch (w : Agent) (st : Fin 512) (s : State) : Out := .next (progLaunch s w st)

/-- PROG_STOP. -/
def execProgStop (_ : Agent) (st : Fin 512) (s : State) : Out := .next (progStop s st)

/-- STOPE_READY_RETURN: no operation is outstanding. -/
def execStopeReadyReturn (st : Fin 512) (s : State) : Out :=
  .next (let x := stope s st
    if x.prog = .stopping ∧ x.out = [] then setStope s st { x with prog := .ready } else s)

end Sys2Proof.Machine
end

