-- ==== Sys2Proof/Machine/Boot.lean ====
section
/-!
DEFINITION. Power-up, reset, bring-up, the headframes, the muster and the multifunction pins (chapter 16, R18, R22, R367 to R374).
-/

namespace Sys2Proof.Machine

-- power and reset (R367 to R369) ---------------------------------------------------------------------------------------------

/-- What a reset leaves (R369): memory, fuses, the MRAM halves, the power inputs and the management bus, which serves in reset too and raises its
interrupt for the change of `DEV_STATE` (R379); everything else is at reset. A seal begun is completed under the hold-up of R367. The time
bases run on until the release. -/
def resetState (s : State) : State :=
  let kept (d : Nat) (t : State) : State := if (history t d).sealing then seal_ t d 1 else t
  let s0 := kept 1 (kept 0 s)
  let base (d : Nat) (t : State) : State := setTime t d { TimeBlk.reset with now := now s d }
  let p := s.power
  let t := base 1 (base 0 { State.reset with
    mem := s.mem, ue := s.ue, history := s0.history
    security := { Security.new with floors := s.security.floors, revoked := s.security.revoked }
    power := { Power.reset with pwrGood := p.pwrGood, pwrGoodAt := p.pwrGoodAt, busAt := p.busAt, trip := p.trip, tripOff := p.tripOff, inputMv := p.inputMv }
    boot := { Boot.reset with up := s.boot.up }
    pins := { Pins.reset with levels := s.pins.levels, i3c0 := s.pins.i3c0 }
    nextOp := s.nextOp, free := s.free, out := s.out, pending := s.pending })
  if p.pwrGood ∧ (service s 0).state ≠ 0 then stateChanged t 0 0 else t

/-- PWR_GOOD deasserts: the powered-second counts are written, and the device is reset (R367, R369). A RESET_N that stands released is one released
before the PWR_GOOD to come (R368). -/
def powerLost (s : State) : State :=
  if s.power.pwrGood then
    let save (d : Nat) (t : State) : State := setHistory t d { history t d with mramPowered := (history t d).powered }
    let s0 := save 1 (save 0 s)
    let s1 := resetState { s0 with power := { s0.power with pwrGood := false, pwrGoodAt := none } }
    emit { s1 with
      power := { s1.power with earlyRelease := s.power.earlyRelease || !s.power.inReset }
      pins := { s1.pins with i3c0 := I3c.reset } } (.pwrGood false)
  else s

/-- RESET_N is released and the device may run: Table 16-2 begins, with the time base at 0 and one more reset counted (R223, R306). -/
def release (s : State) : State :=
  let one (d : Nat) (t : State) : State :=
    let n := (history t d).resets + 1
    setLayer (setHistory t d { history t d with resets := n }) d { RemoteLayer.reset with incarn := n }
  let s1 := one 1 (one 0 { s with times := [] })
  { s1 with power := { s1.power with inReset := false, earlyRelease := false, pwrGoodAt := none, busAt := s1.power.busAt - elapsed s }
            boot := { s1.boot with released := true, up := 0 } }

/-- PWR_GOOD was released less than 100 µs ago (R368). -/
def tooEarly (s : State) : Bool := match s.power.pwrGoodAt with
  | some t => decide (elapsed s < t + 100000)
  | none => false

/-- POWER_UP: with the input between its limits the regulators start and PWR_GOOD is released; the counts are those of the MRAM. -/
def execPowerUp (s : State) : Out :=
  .next (if s.power.pwrGood ∨ s.power.tripOff ∨ s.power.inputMv < 40000 ∨ 60000 < s.power.inputMv then s
    else
      let back (d : Nat) (t : State) : State := setHistory t d { history t d with powered := (history t d).mramPowered, poweredNs := 0 }
      let s1 := back 1 (back 0 s)
      emit { s1 with power := { s1.power with pwrGood := true, pwrGoodAt := some (elapsed s1), busAt := elapsed s1 + 1000000 } } (.pwrGood true))

/-- RESET: a low pulse below 1 µs is ignored, one of 10 µs or more resets, one between the two may or may not be taken; a loss of
PWR_GOOD resets. -/
def execReset (cause : ResetCause) (s : State) : Out :=
  .next (match cause with
    | .powerLoss => powerLost s
    | .lowPulse ns =>
      if ns < 1000 then s
      else if 10000 ≤ ns then resetState s
      else
        let r := freshValue s
        if r.2.toNat % 2 = 1 then resetState r.1 else r.1)

/-- RESET_RELEASE: a release earlier than PWR_GOOD + 100 µs, one before PWR_GOOD too, takes effect then. -/
def execResetRelease (s : State) : Out :=
  .next (if !s.power.inReset then s
    else if !s.power.pwrGood || tooEarly s then { s with power := { s.power with earlyRelease := true } }
    else release s)

/-- RESET_HOLD_END: the device ends the reset that it held itself in. -/
def execResetHoldEnd (s : State) : Out :=
  .next (if s.power.inReset && s.power.pwrGood && s.power.earlyRelease && !tooEarly s then release s else s)

-- bring-up (R306 to R309) -----------------------------------------------------------------------------------------------------

/-- Bring-up runs: reset is released and the device is not in the safe state. -/
def booting (s : State) : Bool := s.boot.released && !isSafe s 0

/-- BANK_ZEROING_DONE: every byte of space 1 is 0 with valid check bits. -/
def execBankZeroingDone (s : State) : Out :=
  .next (if s.boot.released ∧ s.boot.zeroed = false then
    { s with
      mem := s.mem.filter (fun c => aSpace c.1 ≠ 1), ue := s.ue.filter (fun w => aSpace w ≠ 1), boot := { s.boot with zeroed := true } }
    else s)

/-- A latched trip is recorded and judged; judged permanent, it seals the history (R344). -/
def recordTrip (s : State) : State :=
  if s.power.trip then
    let r := recordEvent { s with power := { s.power with trip := false } } ⟨0, ⟨btDie, 0⟩, 0x0B, .count, 0, none⟩
    if r.2 < 2 then r.1 else seal_ (seal_ r.1 0 1) 1 1
  else s

/-- The history of some die is sealed for replacement. -/
def historySealed (s : State) : Bool := (history s 0).sealed.isSome || (history s 1).sealed.isSome

/-- The safe state of a device whose history is found sealed (Table 16-3). -/
def sealedSafe (s : State) : State :=
  let safe (t : State) (d : Nat) : State := if isSafe t d then t else makeSafe t d 1 true
  stateChanged (safe (safe { s with boot := { s.boot with fail := 5 } } 0) 1) 0 4

/-- SECURITY_SELF_TEST_DONE: the history halves are read, and the bridge trains next. -/
def execSecuritySelfTestDone (pass : Bool) (s : State) : Out :=
  .next (if !booting s || !s.boot.zeroed || s.security.selfTest then s
    else
      let s1 := recordTrip s
      if historySealed s1 then sealedSafe { s1 with security := { s1.security with selfTest := pass } }
      else if pass then { s1 with security := { s1.security with selfTest := true }, bridge := { s1.bridge with st := 1 } }
      else report { s1 with boot := { s1.boot with fail := 1 } } ⟨0, ⟨btSecurity, 0⟩, 0x0E, .always, 0, none⟩)

/-- BRIDGE_TRAINED: at bring-up, or at the end of a retrain (R352). -/
def execBridgeTrained (s : State) : Out :=
  .next (if booting s ∧ s.bridge.st = 1 then { s with bridge := { st := 2, retrainAt := none } } else s)

/-- The bridge has failed before the device left quarantine: a permanent fault that both halves record (R307). -/
def bridgeFailsEarly (s : State) : State :=
  let rec1 (d : Nat) (t : State) : State := (recordEvent t ⟨d, ⟨btBridge, 0⟩, 0x0D, .always, 0, none⟩).1
  bootFail (rec1 1 (rec1 0 { s with bridge := { s.bridge with st := 3, retrainAt := none } })) 4 1 true

/-- BRIDGE_TRAINING_TIMEOUT: 5 ms after the release. -/
def execBridgeTrainingTimeout (s : State) : Out :=
  .next (if booting s ∧ s.bridge.st < 2 ∧ s.bridge.retrainAt = none ∧ (service s 0).state = 0 ∧ 5000000 ≤ elapsed s then bridgeFailsEarly s else s)

/-- An image in force. -/
def imageOf (image : List Byte) : Image :=
  let h := ImageHdr.parse (sliceB image 0 512)
  { digest := h.digest, svn := h.svn, slot := h.slot }

/-- HEADFRAME_IMAGE_VERIFIED: headframe 0 acts and headframe 1 stands by, or the safe state. -/
def execHeadframeImageVerified (image : List Byte) (s : State) : Out :=
  .next (if !booting s || decide (s.bridge.st ≠ 2) || s.security.hf.isSome then s
    else if imageAccepted s imHEADFRAME image then
      let s1 := { s with security := { s.security with hf := some (imageOf image) } }
      setStep { s1 with boot := { s1.boot with hf0 := ⟨1, false⟩, hf1 := ⟨2, false⟩, step1At := elapsed s, lastBeat := none } } 1
    else bootFail (countReject s) 2 4 false)

/-- FOREMAN_IMAGE_VERIFIED: all eight foremen run and power their domains, or the safe state. -/
def execForemanImageVerified (image : List Byte) (s : State) : Out :=
  .next (if !booting s || decide (s.boot.step < 1) || s.security.fm.isSome then s
    else if imageAccepted s imFOREMAN image then
      let s0 := { s with security := { s.security with fm := some (imageOf image) } }
      let s1 := { s0 with security := { s0.security with aliasSeed := measuredBytes s0 } }
      let s2 := (List.range 8).foldl (fun t f => setForeman t f { foreman t f with st := 1, tables := true }) s1
      bootProgress (powerDomains (setStep s2 2))
    else bootFail (countReject s) 3 4 false)

/-- PCIE_LINK_TRAINED. -/
def execPcieLinkTrained (s : State) : Out :=
  .next (if s.boot.released ∧ s.security.selfTest then { s with host := { s.host with linkUp := true } } else s)

-- headframes and foremen (R18, R22, R309) --------------------------------------------------------------------------------------

/-- HEADFRAME_HEARTBEAT: the acting headframe 0 writes a heartbeat to the standby. -/
def execHeadframeHeartbeat (s : State) : Out :=
  .next (if s.boot.hf0.role = 1 ∧ s.boot.hf1.role = 2 then { s with boot := { s.boot with lastBeat := some (elapsed s) } } else s)

/-- The standby takes over, and the loss of headframe 0 is recorded and judged. -/
def takeOver (s : State) : State := report (standbyActs s) ⟨0, ⟨btHeadframe, 0⟩, 7, .count, 0, none⟩

/-- HEADFRAME_TAKEOVER: three heartbeats in a row were missed. -/
def execHeadframeTakeover (s : State) : Out :=
  .next (match s.boot.lastBeat with
    | some t => if s.boot.hf1.role = 2 ∧ t + 300000 ≤ elapsed s then takeOver s else s
    | none => s)

/-- FIRST_HEARTBEAT_TIMEOUT: none within 10 ms of `STEP` = 1. -/
def execFirstHeartbeatTimeout (s : State) : Out :=
  .next (if s.boot.hf1.role = 2 ∧ s.boot.lastBeat = none ∧ s.boot.step1At + 10000000 ≤ elapsed s then takeOver s else s)

/-- The pillar banks of a quadrant. -/
def quadPillars (f : Nat) : List Res :=
  ((List.range 256).filter (fun i => decide (quadOf (256 * (f / 4) + i) = f))).map (fun i => .bank (Fin.ofNat 544 (256 * (f / 4) + i)))

/-- FOREMAN_LOST: the acting headframe takes its place and recalls the quadrant's pillar banks (R18). -/
def execForemanLost (f : Fin 8) (s : State) : Out :=
  .next (if (foreman s f).st = 1 then
      let s1 := report (setForeman s f { foreman s f with st := 2 }) ⟨f.val / 4, ⟨btForeman, f⟩, 8, .count, 0, none⟩
      if isSafe s1 (f.val / 4) then s1 else recallAll s1 (quadPillars f)
    else s)

-- the muster (R310 to R315) -----------------------------------------------------------------------------------------------------

/-- A counter of `MUSTER_STAT`: it stops at 255. -/
def upTo255 (n : Nat) : Nat := Nat.min 255 (n + 1)

/-- The device has taken a node ID: agree frames are resent and bring-up goes on (R242, R306). -/
def nodeTaken (s : State) : State := bootProgress (reagree (reagree s 0) 1)

/-- A frame forwarded with its CRC recomputed. -/
def forwardMuster (bs : List Byte) (next taken : Nat) : Output :=
  let b := spliceB bs 4 (toLE 4 (next % 2 ^ 15 + 2 ^ 16 * taken))
  .chain (spliceB b 0x3C (toLE 4 (crc32c (b.take 0x3C)).toNat))

/-- The fields of a muster frame hold no reserved encoding. -/
def musterOk (bs : List Byte) : Bool :=
  decide (leAt bs 0x3C 4 = (crc32c (bs.take 0x3C)).toNat) && decide (leAt bs 0 4 = 1) && decide (leAt bs 4 4 / 2 ^ 15 % 2 = 0) &&
  decide (leAt bs 0x38 4 = 0)

/-- A bad frame is counted and not forwarded. -/
def chainError (s : State) : State := { s with boot := { s.boot with crcErr := upTo255 s.boot.crcErr } }

/-- The muster has expired: 10 s have passed since the release without a node ID (R314), and the SCLK cycle in which they ended (R315). -/
def musterExpired (s : State) : Bool := s.boot.expired || (!s.boot.assigned && decide (10000000004 ≤ s.boot.up))

/-- A valid muster frame (Table 16-5). -/
def muster (s : State) (bs : List Byte) : State :=
  let next := leAt bs 4 2 % 2 ^ 15
  let taken := leAt bs 6 2
  let b0 := { s.boot with frames := upTo255 s.boot.frames }
  let b := if b0.assigned then b0 else { b0 with cycleFrame := some (bs, b0.overflow) }
  if isSafe s 0 ∨ musterExpired s ∨ (b.assigned ∧ b.byHost) then emit { s with boot := b } (forwardMuster bs next taken)
  else if b.assigned then emit { s with boot := b } (forwardMuster bs (Nat.max next (b.node + 1)) taken)
  else if 16384 ≤ next then emit { s with boot := { b with overflow := true } } (forwardMuster bs next taken)
  else
    nodeTaken (emit { s with boot := { b with node := next, assigned := true, byHost := false, profile := sliceB bs 8 48 } }
      (forwardMuster bs (next + 1) (Nat.min 65535 (taken + 1))))

/-- MUSTER_FRAME: a device held in reset forwards nothing. -/
def execMusterFrame (bytes : List Byte) (s : State) : Out :=
  .next (if !s.boot.released || decide (bytes.length ≠ 64) then s
    else if musterOk bytes then muster s bytes else chainError s)

/-- CHAIN_FRAME_GAP: a clock pause of more than 80 ns ends the frame. -/
def execChainFrameGap (s : State) : Out := .next (if s.boot.released then chainError s else s)

/-- The bytes of `PROFILE_IN`. -/
def profileIn (s : State) : List Byte := (List.range 12).flatMap (fun i => toLE 4 (rd s (pgHeadframe 0) (PROFILE_IN + 4 * i)).toNat)

/-- The newest frame forwarded on the chain goes out as `f` instead. -/
def chainInstead (f : Output) : List Output → List Output
  | [] => []
  | .chain _ :: rest => f :: rest
  | o :: rest => o :: chainInstead f rest

/-- A write to `ASSIGN` comes before a muster frame of its SCLK cycle, which then finds a host-assigned ID and is forwarded unchanged
(R315). -/
def frameAfter (s : State) : State := match s.boot.cycleFrame with
  | some (bs, ov) =>
    { s with
      out := chainInstead (forwardMuster bs (leAt bs 4 2 % 2 ^ 15) (leAt bs 6 2)) s.out
      boot := { s.boot with assigned := false, overflow := ov, cycleFrame := none } }
  | none => s

/-- A write to `ASSIGN` (R313). In the safe state it is refused without `BLK_ERR` (R292). -/
def assignNode (s : State) (w : Agent) (v : W32) : State :=
  if !s.boot.released then s
  else if isSafe s 0 then recordRefused s w (pgHeadframe 0) ASSIGN
  else if v.toNat / 2 ^ 14 ≠ 0 ∨ (frameAfter s).boot.assigned ∨ musterExpired s then refuseWrite s w (pgHeadframe 0) ASSIGN
  else
    let t := frameAfter s
    nodeTaken { t with boot := { t.boot with node := v.toNat, assigned := true, byHost := true, profile := profileIn s, cycleAssign := true } }

/-- A write to `PROFILE_IN`: it comes before a write to `ASSIGN` of its SCLK cycle, which copies it (R313, R315). -/
def profileInWrite (s : State) (off : Nat) (v : W32) : State :=
  let t := wr s (pgHeadframe 0) off v
  if s.boot.cycleAssign then nodeTaken { t with boot := { t.boot with profile := profileIn t } } else t

/-- ASSIGN. -/
def execAssign (w : Agent) (value : W32) (s : State) : Out := .next (assignNode s w value)

/-- MUSTER_EXPIRY: 10 s after the release without a node ID; it applies from the next SCLK cycle. -/
def execMusterExpiry (s : State) : Out :=
  .next (if s.boot.released ∧ s.boot.assigned = false ∧ 10000000000 ≤ s.boot.up then { s with boot := { s.boot with expiring := true } } else s)

-- joining (R316, R317) --------------------------------------------------------------------------------------------------------------

/-- A bank goes into service: handed to its user with no lease end, and its mode set to normal (R152). -/
def intoService (s : State) (b : Fin 544) (nextHolder : Agent) : State :=
  let r : Res := .bank b
  let p := recaller s r
  let s1 := if holder s (resPage r) = nextHolder then s else ownerWrite s p r nextHolder
  modeWrite (wr s1 (resPage r) BLK_LEASE_END 0) p b 0

/-- The ready actions of R316 on the banks. -/
def handBanks (s : State) : State :=
  let s1 := (List.range 512).foldl (fun t n => intoService t (Fin.ofNat 544 n) ⟨btStope, n⟩) s
  let s2 := (List.range 32).foldl (fun t l => intoService t (Fin.ofNat 544 (512 + l)) ⟨btLevel, l⟩) s1
  [0, 1].foldl (fun t d => (cacheRows t d).foldl (fun u row => cacheOn u d row) t) s2

/-- DEVICE_READY: time agreed on both dies, and `STEP` = 4. -/
def execDeviceReady (s : State) : Out :=
  .next (if (service s 0).state = 1 ∧ s.boot.step = 4 ∧ (timeBlk s 0).st = 1 ∧ (timeBlk s 1).st = 1 then
      event (setStep (setDevState (handBanks s) 2) 5) (devPage s 0 0)
    else s)

/-- PEER_DISAGREEMENT_TIMEOUT: the condition of R317 has held for 1 s. -/
def execPeerDisagreementTimeout (s : State) : Out :=
  .next (match s.boot.disagree with
    | some t =>
      if t + 1000000000 ≤ elapsed s ∧ disagreeing s = true ∧ ((service s 0).state = 1 ∨ (service s 0).state = 2) then enterSafe s 0 3 false else s
    | none => s)

-- pins (R320, R321, R374) ------------------------------------------------------------------------------------------------------------

/-- A pin allows a function code (Table 20-4). -/
def pinAllows (n code : Nat) : Bool :=
  decide (code < 2) || decide (code = (if n < 2 then 2 else if n < 4 then 3 else if n < 8 then 4 else 5))

/-- A write to `PIN_FUNC_LO` or `PIN_FUNC_HI`: the pins whose code changes park together, or the write is refused as a whole. One
in the last cycle of a park finds it ended (R321). In the safe state every pin is parked, and a write that is refused is so without `BLK_ERR`
(R292). -/
def pinFuncWrite (s : State) (w : Agent) (hi : Bool) (v : W32) : State :=
  let base := if hi then 8 else 0
  let off := if hi then PIN_FUNC_HI else PIN_FUNC_LO
  let code (i : Nat) : Nat := bitsOf v.toNat (4 * i + 3) (4 * i)
  let changed := (List.range 8).filter (fun i => decide (code i ≠ pinFunc s (base + i)))
  let bad := (List.range 8).any (fun i => !pinAllows (base + i) (code i)) ||
    changed.any (fun i => bitsOf (parkedFor s 28) (base + i) (base + i) == 1)
  if !s.boot.released then s
  else if isSafe s 0 then (if bad then recordRefused s w (pgHeadframe 0) off else s)
  else if bad || decide (s.boot.step < 1) then refuseWrite s w (pgHeadframe 0) off
  else
    let set := changed.foldl (fun a i => a ||| 2 ^ (base + i)) 0
    let s1 := wr s (pgHeadframe 0) off v
    if changed = [] then s1 else { s1 with pins := { s1.pins with parks := s1.pins.parks ++ [(set, elapsed s - s.sclk % 4 + 4)] } }

/-- PIN_FUNC_WRITE. -/
def execPinFuncWrite (w : Agent) (hi : Bool) (value : W32) (s : State) : Out := .next (pinFuncWrite s w hi value)

/-- PIN_PARK_END: eight SCLK cycles of 4 ns have passed. -/
def execPinParkEnd (s : State) : Out :=
  .next (if isSafe s 0 then s
    else { s with pins := { s.pins with parks := s.pins.parks.filter (fun p => decide (elapsed s < p.2 + 32)) } })

end Sys2Proof.Machine
end

