-- ==== Sys2Proof/Machine/Commits.lean ====
section
/-!
DEFINITION. Shadow and commit outside the profile (R295, R296): snapshots, their application, and operating points (R327).
-/

namespace Sys2Proof.Machine

/-- The power domain of a page's block, where it lies in a switched one (Table 17-1). -/
def pageDomain (pg : Nat) : Option Nat :=
  let d := pg / 8192
  let kj := pageKind d (pg % 8192)
  match kj.1 with
  | .stope | .face | .outlier => some (domHalf (halfOf (256 * d + kj.2)))
  | .stack => some (domStack (4 * d + kj.2))
  | .port => some (domPort (12 * d + kj.2))
  | _ => none

/-- The page's block has power: its domain is on or switching off. -/
def pageOn (s : State) (pg : Nat) : Bool := match pageDomain pg with
  | some n => decide (2 ≤ domain s n)
  | none => true

/-- Offsets of a page's RWS registers. -/
def rwsOffsets (pg : Nat) : List Nat :=
  ((List.range 128).map (fun i => 0x40 + 4 * i)).filter (fun off => match regOf pg off with
    | some r => decide (r.acc = .rws)
    | none => false)

/-- A commit of `LINK_CRYPT` is for each port's next full training, one that has begun in the same cycle included (R361). -/
def cryptNow (s : State) : State :=
  (List.range 24).foldl (fun t p =>
    let x := port t p
    if x.st = 2 ∧ x.training = .electrical ∧ x.trainAt = elapsed t then
      setPort t p { x with crypt := decide (bitsOf (committedCrypt t).toNat p p = 1) } else t) s

/-- A write of `g` to `BLK_COMMIT`: a snapshot of every staged field, which replaces one not yet applied. -/
def takeSnapshot (s : State) (d page : Nat) (g : W32) : State :=
  let pg := gpage d page
  let c : Commit := { die := Fin.ofNat 2 d, page := page, g := g, vals := (rwsOffsets pg).map (fun off => (off, rdStaged s pg off)) }
  let s1 := { s with commits := s.commits.filter (fun x => !(decide (x.die.val = d) && decide (x.page = page))) ++ [c] }
  if pg = pgSecurity then cryptNow s1 else s1

/-- Long operations accepted on a die and not complete. -/
def longOps (s : State) (d : Nat) : List Nat :=
  (List.range 256).flatMap (fun i => (stope s (256 * d + i)).queue.map (fun o => o.op))

/-- A commit of `DVFS_POINT` is applied: a change begins, unless it names the point already reached (R327). -/
def beginPoint (s : State) (d p : Nat) : State :=
  let v := dvfs s d
  if p = v.point then s
  else setDvfs s d { v with target := some p, switched := false, waitOps := if v.point < p then longOps s d else [] }

/-- A face tile of the stope is running: its outlier page is not at a tile boundary. -/
def tileRuns (s : State) (n : Nat) : Bool := match (stope s n).queue with
  | o :: _ => decide (o.kind = .face) && o.started.isSome
  | [] => false

/-- Stopes of quadrant `q` that run a face tile keep the assay settings of `old` until their next tile boundary (R340). -/
def keepAssay (old s : State) (q : Nat) : State :=
  ((List.range 256).map (fun i => 256 * (q / 4) + i)).foldl (fun t n =>
    if quadOf n = q ∧ tileRuns old n then setStope t n { stope t n with assay := some (assayOf old n) } else t) s

/-- What the applied values of a page bring about. -/
def afterApply (old s : State) (pg : Nat) : State :=
  let d := pg / 8192
  let kj := pageKind d (pg % 8192)
  match kj.1 with
  | .assay => keepAssay old s (4 * d + kj.2)
  | .die => beginPoint s d (fld (rd s pg DVFS_POINT) 2 0)
  | .rmop =>
    let was := cacheRows old d
    let is_ := cacheRows s d
    let s1 := (was.filter (fun r => !is_.contains r)).foldl (fun t r => cacheOff t d r) s
    let s2 := (is_.filter (fun r => !was.contains r)).foldl (fun t r => cacheOn t d r) s1
    if rd old pg SYS_EPOCH = rd s pg SYS_EPOCH then s2 else reagree s2 d
  | _ => s

/-- A snapshot becomes live as one change, with what its values bring about. -/
def applyCommit (s : State) (c : Commit) : State := afterApply s (applyVals s c) (gpage c.die c.page)

/-- The point of application of Table 15-9 has come. -/
def mayApply (s : State) (pg : Nat) : Bool :=
  let d := pg / 8192
  let kj := pageKind d (pg % 8192)
  pageOn s pg && (match kj.1 with
    | .outlier => !tileRuns s (256 * d + kj.2)
    | .die => decide ((dvfs s d).target = none)
    | _ => true)

/-- COMMIT_APPLIED. -/
def execCommitApplied (die : Die) (page : BitVec 13) (s : State) : Out :=
  .next (match s.commits.find? (fun c => c.die = die ∧ c.page = page.toNat) with
    | some c => if mayApply s (gpage die page.toNat) then applyCommit s c else s
    | none => s)

/-- Commits that a page took while its domain was off are applied as the domain powers up (R296). -/
def applyWaiting (s : State) (n : Nat) : State :=
  (s.commits.filter (fun c => decide (pageDomain (gpage c.die c.page) = some n))).foldl applyCommit s

end Sys2Proof.Machine
end

