-- ==== Sys2Proof/Machine/Flags.lean ====
section
/-!
DEFINITION. Status words and other registers that read what the state holds elsewhere (Tables 06-9, 08-5, 10-5, 10-6, 12-9, 13-7, 14-5,
14-6, 15-4, 15-12, 15-13, 16-6, 16-7, 17-9, 17-10, 18-5, 18-7, 19-5, R353), and the reading of a register without its side effects.
-/

namespace Sys2Proof.Machine

-- BLK_STATUS (R292, R293, R147) ---------------------------------------------------------------------------------------------

/-- The headframe image is being loaded or verified, and the foreman image (Table 16-2). -/
def hfVerified (s : State) : Bool := s.boot.released && decide (s.bridge.st = 2) && decide (s.boot.step < 1)
def fmVerified (s : State) : Bool := s.boot.released && decide (s.boot.step = 1)

/-- A stope's instruction memory is being loaded somewhere on the device, or a boot image is being read. -/
def verifying (s : State) : Bool :=
  s.stopes.any (fun p => decide (p.2.prog = .loading)) || hfVerified s || fmVerified s

/-- The busy condition of Table 15-8 for a page. -/
def pageBusy (s : State) (pg : Nat) : Bool :=
  let d := pg / 8192
  let kj := pageKind d (pg % 8192)
  let j := kj.2
  match kj.1 with
  | .die => decide ((dvfs s d).target ≠ none)
  | .stope => (stope s (256 * d + j)).busy
  | .face | .outlier => tileRuns s (256 * d + j)
  | .channel => (channel s (128 * d + j)).run.isSome
  | .stack => decide (domain s (domStack (4 * d + j)) = 2) && !(stack s (4 * d + j)).open_
  | .bridge => decide (s.bridge.st = 1)
  | .port => decide ((port s (12 * d + j)).st = 2) || decide ((port s (12 * d + j)).training = .fast)
  | .host => s.host.enabled
  | .foreman => fmVerified s
  | .headframe => hfVerified s
  | .security => verifying s
  | .assay => s.canaries.any (fun c => decide (quadOf c.st = 4 * d + j))
  | .history => (history s d).sealing
  | _ => false

/-- A bank is in start-up, test or recovery mode. -/
def bankPage (k : PageKind) : Bool := match k with
  | .pillar => true
  | .gallery => true
  | _ => false

/-- `BLK_STATUS`: 0 off, 1 idle, 2 busy, 3 recovery, 4 safe. -/
def blkStatus (s : State) (pg : Nat) : Nat :=
  if isSafe s (pg / 8192) then 4
  else if !pageOn s pg then 0
  else if bankPage (pageKind (pg / 8192) (pg % 8192)).1 then (if fld (rd s pg MODE) 1 0 = 0 then 1 else 3)
  else if pageBusy s pg then 2 else 1

-- device and identity (Tables 15-12, 15-13) ------------------------------------------------------------------------------------

/-- `DEV_STATE`. -/
def devState (s : State) (d : Nat) : Nat :=
  let v := service s d
  v.state + bitIf (decide (v.state = 4)) (256 * v.reason) + bitIf v.replaceN 0x10000 + bitIf (decide (v.state = 4)) 0x20000

/-- Live and old profile generation of die `d` (R298). -/
def genLive (s : State) (d : Nat) : Nat := (router s d).live.gen
def genOld (s : State) (d : Nat) : Nat := (router s d).other.gen

/-- The old generation has drained and been copied, on every die that the page serves (R299). -/
def oldDrained (s : State) (d : Nat) : Bool := (deviceDies s d).all (fun e => !s.undrained.contains e)

/-- `IDENT.NODE`. -/
def identNode (s : State) : Nat := s.boot.node + bitIf s.boot.assigned 0x4000 + bitIf (s.boot.assigned && s.boot.byHost) 0x8000

/-- Security version of an image in force. -/
def svnOf (i : Option Image) : Nat := (i.map (fun x => x.svn)).getD 0

/-- DEVICE and IDENT registers. -/
def deviceReg (s : State) (d off : Nat) : Option Nat :=
  if off = DEV_STATE then some (devState s d)
  else if off = GEN_LIVE then some (genLive s d)
  else if off = GEN_STATE then some (genOld s d + bitIf (oldDrained s d) 0x10000)
  else none

def identReg (s : State) (off : Nat) : Option Nat :=
  if off = 0x05C then some (identNode s)
  else if off = 0x060 then some (svnOf s.security.hf)
  else if off = 0x064 then some (svnOf s.security.fm)
  else if 0x080 ≤ off ∧ off < 0x0B0 then some (leAt s.boot.profile (off - 0x080) 4)
  else none

-- headframe, die, foreman (Tables 16-6, 16-7, 17-9, 17-10) --------------------------------------------------------------------------

/-- Heartbeats that the standby has missed in a row (R22). -/
def missed (s : State) : Nat := match s.boot.lastBeat with
  | some t => Nat.min 3 ((elapsed s - t) / 100000)
  | none => 0

/-- `HF_STATE` of a headframe. -/
def hfState (s : State) (d : Nat) : Nat :=
  let h := if d = 0 then s.boot.hf0 else s.boot.hf1
  h.role + bitIf (decide (h.role = 2)) (4 * missed s) + bitIf h.takenOver 16 + 256 * s.boot.step + 65536 * s.boot.fail

/-- Level that each pin's function sees: the park level of a parked pin (R320, Table 20-4), the driven level of an output. -/
def gpioIn (s : State) : Nat :=
  let bit (n : Nat) : Nat :=
    if bitsOf (parked s) n n = 1 then (if n < 8 then 1 else 0)
    else if pinFunc s n = 1 then bitsOf (rd s (pgHeadframe 0) GPIO_OUT).toNat n n
    else bitsOf s.pins.levels n n
  (List.range 16).foldl (fun a n => a + bit n * 2 ^ n) 0

def headframeReg (s : State) (d off : Nat) : Option Nat :=
  if off = HF_STATE then some (hfState s d)
  else if off = MUSTER_STAT then
    some (s.boot.frames + 256 * s.boot.crcErr + bitIf (musterExpired s) 0x10000 + bitIf s.boot.overflow 0x20000)
  else if off = PIN_PARK then some (parked s)
  else if off = GPIO_IN then some (gpioIn s)
  else none

/-- The hotter of two half-levels, by number; the lower number on a tie. -/
def hotter (s : State) (a b : Nat) : Nat := if (halfLevel s a).temp < (halfLevel s b).temp then b else a

/-- `DIE_TEMP`; 0 before the first sample of the die. -/
def dieTemp (s : State) (d : Nat) : Nat :=
  if (halvesOf d).all (fun i => decide (halfLevel s i = HalfLevel.reset)) then 0 else
  let h := (halvesOf d).foldl (hotter s) (32 * d)
  let top := ((halvesOf d).map (fun i => (halfLevel s i).step)).foldl Nat.max 0
  (halfLevel s h).temp % 256 + 256 * h + 16384 * top

/-- A rail of a row of Table 17-7 was outside its bounds at its last sample. -/
def rowBad (s : State) (d row : Nat) : Bool :=
  let bad (n : Nat) : Bool := Sparse.get false s.power.railBad n
  match row with
  | 0 => bad d
  | 4 => (List.range 4).any (fun k => bad (5 + 4 * d + k))
  | 5 => bad 13
  | r => bad (r + 1)

def dieReg (s : State) (d off : Nat) : Option Nat :=
  if off = DVFS_STATE then some ((dvfs s d).point + bitIf (dvfs s d).target.isSome 8)
  else if off = DIE_TEMP then some (dieTemp s d)
  else if off = RAIL_STATE then some ((List.range 6).foldl (fun a r => a + bitIf (rowBad s d r) (2 ^ r)) 0)
  else if off = DIE_PWR then some (if elapsed s = 0 then 0 else (Config.diePower d (elapsed s)).toNat % 2 ^ 16)
  else if off = MOD_PWR then some (s.power.meanW % 65536 + bitIf s.power.capped 0x10000)
  else none

def foremanReg (s : State) (f off : Nat) : Option Nat :=
  let temps (b : Nat) : Nat := (List.range 4).foldl (fun a i => a + ((halfLevel s (localDomain f (b + i))).temp % 256) * 256 ^ i) 0
  if off = FM_STATE then some ((foreman s f).st + bitIf (foreman s f).tables 4)
  else if off = DOM_STATE then some ((List.range 12).foldl (fun a i => a + domain s (localDomain f i) * 4 ^ i) 0)
  else if off = HL_TEMP_LO then some (temps 0)
  else if off = HL_TEMP_HI then some (temps 4)
  else none

-- security, time, history (Tables 19-5, 13-7, 18-5, 18-7) ---------------------------------------------------------------------------------

def securityReg (s : State) (off : Nat) : Option Nat :=
  let x := s.security
  if off = SEC_STATE then
    some (bitIf x.selfTest 1 + bitIf x.hf.isSome 2 + bitIf x.fm.isSome 4 + bitIf x.kek.isSome 8 +
      (List.range 4).foldl (fun a i => a + bitIf (x.revoked.contains i) (2 ^ (4 + i))) 0)
  else if off = FLOOR then some (x.floors.getD 0 0 + 256 * x.floors.getD 1 0 + 65536 * x.floors.getD 2 0)
  else if off = KEY_RESULT then some (x.keyResult + 65536 * x.keys.length)
  else none

/-- A signed number as a register holds it. -/
def asWord (i : Int) : Nat := (i % (2 ^ 32 : Int)).toNat

def timeReg (s : State) (d off : Nat) : Option Nat :=
  let t := timeBlk s d
  if off = TIME_LO then some (t.now % 2 ^ 32)
  else if off = TIME_HI then some t.hiLatch.toNat
  else if off = TIME_STATE then some (t.st + 16 * t.src + 4096 * t.dist)
  else if off = OFFSET_NS then some (asWord t.theta)
  else if off = DELAY_NS then some (t.delay % 2 ^ 32)
  else none

/-- A record's thirty-two bytes (Table 18-5). -/
def HRec.bytes (r : HRec) : List Byte :=
  let b := toLE 28 (r.seq % 2 ^ 32 + 2 ^ 32 * (r.ty % 256) + 2 ^ 40 * (r.inst % 2 ^ 16) + 2 ^ 56 * (r.kind % 256) + 2 ^ 64 * (r.gtime % 2 ^ 64) +
    2 ^ 128 * (r.powered % 2 ^ 32) + 2 ^ 160 * (r.verdict % 16) + 2 ^ 168 * (r.detail % 2 ^ 20) + 2 ^ 192 * (r.region % 2 ^ 26) +
    2 ^ 218 * (r.space % 4) + bitIf r.rv (2 ^ 220))
  b ++ toLE 4 (crc32c b).toNat

/-- The record at a ring index, 0 the oldest. -/
def recordAt (h : History) (i : Nat) : List Byte :=
  if i < h.records.length then ((h.records[h.records.length - 1 - i]?).map HRec.bytes).getD [] else []

def historyReg (s : State) (d off : Nat) : Option Nat :=
  let h := history s d
  if off = RECORDS then some h.records.length
  else if off = NEXT_SEQ then some h.nextSeq
  else if off = POWERED_S then some h.powered
  else if off = SEAL then some (match h.sealed with
    | some r => 1 + 256 * r
    | none => 0)
  else if off = REMAP_LOST then some h.remapLost
  else if off = UE_USED then some h.ue.length
  else if RECORD ≤ off ∧ off < 0x080 then some (leAt (recordAt h (rd s (pgHistory d) READ_IDX).toNat) (off - RECORD) 4)
  else none

-- stacks, ports, hoists, stopes, host, mailboxes ---------------------------------------------------------------------------------------------

def stackReg (s : State) (k off : Nat) : Option Nat :=
  if off = S_TEMP then some ((stack s k).lastTemp % 256) else if off = S_STATE then some (stack s k).thermal else none

def portReg (s : State) (p off : Nat) : Option Nat :=
  let x := port s p
  if off = P_STATE then some (x.st + 256 * x.qcause + 4096 * x.peerReason) else none

def engineReg (s : State) (e off : Nat) : Option Nat :=
  let id (n : Nat) : Nat := ((Sparse.get none (engine s e).tables n).map (fun t => t.id)).getD 0
  if off = CH_ACTIVE then some ((List.range 4).foldl (fun a i => a + bitIf (channel s (4 * e + i)).run.isSome (2 ^ i)) 0)
  else if TABLE_ID0 ≤ off ∧ off < 0x054 then some (id ((off - TABLE_ID0) / 2) + 65536 * id ((off - TABLE_ID0) / 2 + 1))
  else none

def channelReg (s : State) (c off : Nat) : Option Nat :=
  let x := channel s c
  if off = CH_STATUS then some (bitIf x.run.isSome 1 + 16 * x.lastStatus + 256 * x.lastReason)
  else if off = DESC_IDX then some ((x.run.map (fun r => r.idx)).getD x.descIdx % 4096)
  else if off = CH_STEPS then some ((x.run.map (fun r => r.stepsDone)).getD x.steps)
  else none

/-- `PROG_STATUS.STATE`. -/
def ProgState.code : ProgState → Nat
  | .empty => 0
  | .loading => 1
  | .ready => 2
  | .running => 3
  | .stopping => 4
  | .rejected => 5

/-- STOPE registers. `PROG_PC` reads the pc modulo 8,192 (log entry 11); after HALT or a fault that is the word's own (log entry 153). -/
def stopeReg (s : State) (n off : Nat) : Option Nat :=
  let x := stope s n
  if off = PROG_STATUS then some (x.prog.code + 256 * x.cause + 65536 * x.faultPc)
  else if off = PROG_PC then some (x.pc % 8192)
  else if off = OUTSTANDING then some x.out.length
  else none

def hostReg (s : State) (off : Nat) : Option Nat :=
  let h := s.host
  if off = Q_STATE then some (bitIf h.enabled 1) else if off = RQ_HEAD then some h.head
  else if off = CQ_TAIL then some (h.cqTail + bitIf h.phase 0x10000) else none

def mailboxReg (s : State) (m off : Nat) : Option Nat :=
  let q := mailbox s m
  if off = M_STATUS then some (q.length + bitIf (decide (mbPlaces s m ≤ q.length)) 16)
  else if M_HEAD ≤ off ∧ off < 0x100 then some (leAt (q.headD []) (off - M_HEAD) 4)
  else none

/-- Live route entries with `V` = 1. -/
def routesValid (s : State) (d : Nat) : Nat := ((router s d).live.routes.filter (fun p => fld p.2 47 47 == 1)).length

/-- `MESH_STALLS`: cycles since the last read in which a level's router held a flit, which follow from the timing of the mesh: a free value for
each read, and 0 at reset (log entry 136). -/
def meshStalls (s : State) : Nat := if elapsed s = 0 then 0 else (Config.freeValue s.free).toNat % 2 ^ 32

/-- A register past the header that the state holds outside the register file; `none` for one in the register file. -/
def viewReg (s : State) (k : PageKind) (d j off : Nat) : Option Nat :=
  match k with
  | .device => deviceReg s d off
  | .ident => identReg s off
  | .headframe => headframeReg s d off
  | .die => dieReg s d off
  | .foreman => foremanReg s (4 * d + j) off
  | .security => securityReg s off
  | .time => timeReg s d off
  | .history => historyReg s d off
  | .stack => stackReg s (4 * d + j) off
  | .port => portReg s (12 * d + j) off
  | .engine => engineReg s (32 * d + j) off
  | .channel => channelReg s (128 * d + j) off
  | .stope => stopeReg s (256 * d + j) off
  | .host => hostReg s off
  | .mailbox => mailboxReg s j off
  | .bridge => if off = BR_STATE then some s.bridge.st else none
  | .level => if off = MESH_STALLS then some (meshStalls s) else none
  | .router => if off = RT_VALID then some (routesValid s d) else none
  | .rmop => if off = DIR_USED then some (layer s d).dir.length else none
  | _ => none

-- tables and profile fields ----------------------------------------------------------------------------------------------------------------------

/-- Half of a table entry: `o` is the byte offset in the table. -/
def tableHalf (t : Sparse W64) (o : Nat) : Nat := (Sparse.get 0 t (o / 8)).toNat / 2 ^ (32 * (o / 4 % 2)) % 2 ^ 32

/-- A table page's word. -/
def tableReg (s : State) (k : PageKind) (d j off : Nat) : Nat :=
  let r := router s d
  match k with
  | .stagedRoutes => tableHalf r.other.routes (4096 * j + off)
  | .liveRoutes => tableHalf r.live.routes (4096 * j + off)
  | .stagedMc => if off < 2048 then tableHalf r.other.mc off else 0
  | .liveMc => if off < 2048 then tableHalf r.live.mc off else 0
  | _ => 0

/-- A time register that belongs to the profile (R297). -/
def isProfile (off : Nat) : Bool :=
  decide (off = TIME_CTL) || (decide (PROM_EXP ≤ off) && decide (off ≤ FLIGHT_ALLOW)) || (decide (WD_CTL ≤ off) && decide (off ≤ WD_ADDR_HI))

/-- Reads of RWS fields of the page show the applied values. -/
def showLive (s : State) (pg : Nat) : Bool := decide (fld (rd s pg BLK_CTL) 0 0 = 1)

/-- The value that a read of a page's register returns, without the read's effects: reserved places, WO fields and the registers of a page
without power read 0 (R289 to R292). -/
def regValue (s : State) (pg off : Nat) : W32 :=
  let d := pg / 8192
  let kj := pageKind d (pg % 8192)
  if isTable kj.1 then BitVec.ofNat 32 (tableReg s kj.1 d kj.2 off)
  else if off = BLK_STATUS ∧ kj.1 ≠ .reserved then BitVec.ofNat 32 (blkStatus s pg)
  else match regOf pg off with
    | none => 0
    | some r =>
      if off < 0x40 then rd s pg off
      else if !pageOn s pg || decide (r.acc = .wo) then 0
      else match viewReg s kj.1 d kj.2 off with
        | some v => BitVec.ofNat 32 v
        | none =>
          if kj.1 = .time ∧ isProfile off = true then (if showLive s pg then profReg (router s d).live d off else profReg (router s d).other d off)
          else if r.acc = .rws ∧ !showLive s pg then rdStaged s pg off
          else rd s pg off

end Sys2Proof.Machine
end

