-- ==== Sys2Proof/Machine/HostRegs.lean ====
section
/-!
DEFINITION. Commands at the registers of the host port and the mailboxes (R277, R279, R281, R283 to R287).
-/

namespace Sys2Proof.Machine

/-- A BAR access completes with Completer Abort: in the safe state all but reads of the identity and history pages, and until `STEP` = 1
all outside pages 0x000, 0x001, 0x003 and 0x006 of die 0 (R276, R318). -/
def aborted (s : State) (pg : Nat) (isWrite : Bool) : Bool :=
  (isSafe s 0 && !(!isWrite && (decide (pg % 8192 = 1) || decide (pg % 8192 = 6)))) ||
  (decide (s.boot.step < 1) && !([0, 1, 3, 6].contains pg))

/-- A write by the host to a page of the host port or of a mailbox, over PCIe (log entry 134). -/
def byHost (s : State) (pg : Nat) (act : State → State) : State :=
  if !s.boot.released then s else if aborted s pg true then emit s .completerAbort else act s

/-- The same write by any agent: only the host's comes over PCIe. -/
def byAgent (s : State) (w : Agent) (pg : Nat) (act : State → State) : State :=
  if w.ty = btHost then byHost s pg act else act s

/-- A write to `RQ_TAIL`: an index, taken modulo the ring size (log entry 58). -/
def rqTail (s : State) (w : Agent) (v : W32) : State :=
  if isSafe s 0 then s
  else if v.toNat / 2 ^ 16 ≠ 0 then refuseWrite s w pgHost RQ_TAIL
  else { s with host := { s.host with tail := v.toNat % ringSize s RQ_SIZE } }

/-- Entries consumed between two values of `CQ_HEAD`: read as a count modulo 65,536, or, where so many are not there, as an index of the ring
(log entry 58). -/
def cqConsumed (n used old new : Nat) : Nat :=
  let k := (new + 65536 - old) % 65536
  if k ≤ used then k else k % n

/-- A write to `CQ_HEAD`: the entries before it are consumed. -/
def cqHead (s : State) (w : Agent) (v : W32) : State :=
  let h := s.host
  let gone := cqConsumed (ringSize s CQ_SIZE) h.cqUsed h.cqHead v.toNat
  if isSafe s 0 then s
  else if v.toNat / 2 ^ 16 ≠ 0 then refuseWrite s w pgHost CQ_HEAD
  else { s with host := { h with cqHead := v.toNat, cqUsed := h.cqUsed - gone } }

/-- A write to `Q_CMD`: an enable before the device is ready is refused (R318). -/
def queueCmd (s : State) (w : Agent) (v : W32) : State :=
  if isSafe s 0 then s
  else if v.toNat = 0 then s
  else if 3 ≤ v.toNat ∨ (v = 1 ∧ beforeReady s = true) then refuseWrite s w pgHost Q_CMD
  else { s with host := { s.host with enabled := decide (v = 1) } }

/-- RQ_TAIL_WRITE. -/
def execRqTailWrite (value : W32) (s : State) : Out := .next (byHost s pgHost (fun t => rqTail t ⟨btHost, 0⟩ value))

/-- CQ_HEAD_WRITE. -/
def execCqHeadWrite (value : W32) (s : State) : Out := .next (byHost s pgHost (fun t => cqHead t ⟨btHost, 0⟩ value))

/-- QUEUE_ENABLE. -/
def execQueueEnable (w : Agent) (s : State) : Out := .next (byAgent s w pgHost (fun t => queueCmd t w 1))

/-- QUEUE_DISABLE. -/
def execQueueDisable (w : Agent) (s : State) : Out := .next (byAgent s w pgHost (fun t => queueCmd t w 2))

/-- Every register of a page, its header too, goes back to its reset value, and a commit that waits there goes. -/
def clearPage (s : State) (pg : Nat) : State :=
  let out {α : Type} (p : Nat × α) : Bool := !(decide (rkey pg 0 ≤ p.1) && decide (p.1 < rkey pg 0x1000))
  { s with regs := s.regs.filter out, staged := s.staged.filter out, commits := s.commits.filter (fun c => gpage c.die c.page ≠ pg) }

/-- FUNCTION_LEVEL_RESET, a configuration write: the page and the apertures are at reset, fetching stops and every vector is masked; requests under way
complete without an entry, and the doorbell registers are unchanged (log entry 59). In the safe state it completes with Completer Abort (R276). -/
def execFunctionLevelReset (s : State) : Out :=
  .next (if !s.boot.released || !s.host.linkUp then s
    else if isSafe s 0 then emit s .completerAbort
    else
      let s1 := clearPage s pgHost
      let keep (t : State) (off : Nat) : State := wr t pgHost off (rd s pgHost off)
      let s2 := [DOORBELL, DB_MASK_HOST, DB_MASK_HF].foldl keep s1
      { s2 with host := { HostPort.reset with
        reqs := s.host.reqs.map (fun r => { r with discarded := true }), aps := s.host.aps
        msixMask := 2 ^ 66 - 1, msixPending := s.host.msixPending
        msixTable := s.host.msixTable, entries := s.host.entries, linkUp := true
        rung := s.host.rung, unrung := s.host.unrung, posts := s.host.posts } })

/-- A write to `DOORBELL`: ones clear, but for a bit set in the same cycle (R283). -/
def doorbellClear (s : State) (v : W32) : State :=
  if isSafe s 0 then s
  else
    let old := (rd s pgHost DOORBELL).toNat
    let kept := BitVec.ofNat 32 s.host.rung
    wr { s with host := { s.host with unrung := s.host.unrung ||| (old &&& v.toNat) } } pgHost DOORBELL
      (rd s pgHost DOORBELL &&& ~~~(v &&& ~~~kept))

/-- Doorbell bits that a write to a mask unmasks while they are set. -/
def unmasked (s : State) (off : Nat) (v : W32) : List Nat :=
  bitList 32 (v &&& ~~~(rd s pgHost off) &&& rd s pgHost DOORBELL).toNat

/-- A write to `DB_MASK_HOST`, a RW register past the header: refused while ring fetching keeps the port busy (R294; log entry 129). -/
def dbMaskHost (s : State) (w : Agent) (v : W32) : State :=
  if isSafe s 0 then s
  else if s.host.enabled then refuseWrite s w pgHost DB_MASK_HOST
  else (unmasked s DB_MASK_HOST v).foldl (fun t b => msix t b) (wr s pgHost DB_MASK_HOST v)

/-- A write to `DB_MASK_HF`, a management-only field, refused likewise while the port is busy. -/
def dbMaskHf (s : State) (w : Agent) (v : W32) : State :=
  if isSafe s 0 then s
  else if s.host.enabled || !isParent s w pgHost then refuseWrite s w pgHost DB_MASK_HF
  else ranked s w pgHost DB_MASK_HF [.hfIrq s.boot.hfIrq] (fun t => (unmasked t DB_MASK_HF v).foldl (fun u _ => hfInterrupt u) (wr t pgHost DB_MASK_HF v))

/-- DOORBELL_CLEAR. -/
def execDoorbellClear (value : W32) (s : State) : Out := .next (byHost s pgHost (fun t => doorbellClear t value))

/-- DB_MASK_HOST_WRITE. -/
def execDbMaskHostWrite (value : W32) (s : State) : Out := .next (byHost s pgHost (fun t => dbMaskHost t ⟨btHost, 0⟩ value))

/-- DB_MASK_HF_WRITE. -/
def execDbMaskHfWrite (w : Agent) (value : W32) (s : State) : Out := .next (byAgent s w pgHost (fun t => dbMaskHf t w value))

/-- A post to a mailbox, which a channel lease whose end has come no longer covers (R285, R301). -/
def post (s : State) (m : Nat) (bytes : List Byte) : State :=
  if isSafe s 0 then s else (mbPost (dueEnd s (.mailbox (Fin.ofNat 32 m))) m bytes).1

/-- The notice at `HEAD` goes, and a mailbox left empty may interrupt its sender side (R287). -/
def popHead (s : State) (m : Nat) : State :=
  match mailbox s m with
  | [] => s
  | _ :: rest =>
    let s1 := setMailbox s m rest
    if rest = [] ∧ fld (rd s (pgMailbox m) M_CTL) 2 2 = 1 then (if m < 16 then msix s1 (48 + m) else hfInterrupt s1)
    else s1

/-- A pop, which comes before a post of its SCLK cycle (R286). -/
def pop (s : State) (m : Nat) : State := if isSafe s 0 then s else beforePosts s m (fun t => popHead t m)

/-- MAILBOX_POST: of a mailbox below 16 by the host, of any other by the headframe. -/
def execMailboxPost (m : Fin 32) (bytes : List Byte) (s : State) : Out :=
  .next (if m.val < 16 then byHost s (pgMailbox m) (fun t => post t m bytes) else post s m bytes)

/-- MAILBOX_POP. -/
def execMailboxPop (w : Agent) (m : Fin 32) (s : State) : Out := .next (byAgent s w (pgMailbox m) (fun t => pop t m))

end Sys2Proof.Machine
end

