-- ==== Sys2Proof/Machine/HostReqs.lean ====
section
/-!
DEFINITION. The host's operations: requests of the ring, apertures, and configuration requests (R274, R278 to R282, R318).
-/

namespace Sys2Proof.Machine

-- the host's ingress (R257, R260, R278) --------------------------------------------------------------------------------

/-- A remote operation of the host before it is judged. -/
structure HostOp where
  opc : Nat
  sub : Nat
  cls : Nat
  bell : Nat
  addr : Nat
  len : Nat
  /-- budget asked for; 0 for the class promise, or 2^32 − 1 ns in Scavenge -/
  dl : Nat
deriving DecidableEq, Repr

/-- The largest budget of a class at the host, and the one taken where none is asked for. -/
def hostCap (s : State) (cls : Nat) : Nat := if cls = scavenge then 2 ^ 32 - 1 else promise s 0 cls
def HostOp.budget (s : State) (r : HostOp) : Nat := if r.dl ≠ 0 then r.dl else hostCap s r.cls

/-- The host's windows grant the operation's right (R278). -/
def hostRights (s : State) (r : HostOp) : Bool :=
  let ws := hostWindows s
  match r.opc with
  | 1 => grants ws r.addr r.len rtWRITE
  | 2 => grants ws r.addr r.len rtREAD
  | 3 => grants ws r.addr (touchLen 3 r.sub r.len) rtATOM
  | 4 => grants ws r.addr r.len rtFLAG
  | _ => grants ws (nodeBase s + low50 r.addr) r.len rtMCAST

/-- Judgement at the host's ingress: DENIED, REFUSED (`short`: for want of credit alone), or admitted with the credit taken. -/
inductive HostJudge where
  | denied
  | refused (short : Bool)
  | go (s : State)

/-- Judge an operation of the host (R214, R257, R260, R278), issued with the operations `before` it. -/
def judgeHost (s : State) (r : HostOp) (before : List ROp := []) : HostJudge :=
  let b := r.budget s
  if !remoteOk r.opc r.sub r.addr r.len || !hostRights s r || (decide (r.opc = 5) && !isRoot s 0 (groupOf r.addr)) then .denied
  else
    let m := newMsg s 0 2 0 r.opc r.sub r.cls r.addr r.len (now s 0 + b) r.bell []
    if !windowOpen s 0 (newOp s 0 0 (.host 0) m 0 0) before then .refused false
    else match admitOp s 0 .host r.opc r.cls r.addr r.len b (hostCap s r.cls) true with
      | some s1 => .go s1
      | none => .refused (creditShort s 0 r.opc r.cls r.addr r.len b (hostCap s r.cls) true)

/-- The admitted operation as its layer holds it; `data` is empty where it is read later. -/
def hostRop (s : State) (r : HostOp) (id : Nat) (origin : Origin) (data : List Byte) (wait : Bool) : ROp :=
  newOp s 0 id origin (newMsg s 0 2 0 r.opc r.sub r.cls r.addr r.len (now s 0 + r.budget s) r.bell data) 0 (if wait then 1 else 0)

/-- Add an operation to die 0's layer without sending it. -/
def keepOp (s : State) (o : ROp) : State := setLayer s 0 { layer s 0 with ops := (layer s 0).ops ++ [o] }

-- the request ring (R279 to R281) ------------------------------------------------------------------------------------------

/-- The request's encoding is reserved: reserved fields, an unknown `OPC`, or a FLAG whose `LEN_M1` is not 7. -/
def requestBad (bs : List Byte) : Bool :=
  let w := leAt bs 0 4
  let opc := w % 256
  decide (opc = 0) || decide (5 < opc) || decide (bitsOf w 15 14 ≠ 0) || decide (bitsOf w 31 29 ≠ 0) || decide (32 ≤ leAt bs 4 4) ||
  decide (leAt bs 0x1C 4 ≠ 0) || (bs.drop 0x28).any (fun b => b ≠ 0) || (decide (opc = 4) && decide (bitsOf w 28 16 ≠ 7))

/-- The operation that a request spells (Table 14-2). -/
def requestOp (bs : List Byte) : HostOp :=
  let w := leAt bs 0 4
  { opc := w % 256, sub := bitsOf w 11 8, cls := bitsOf w 13 12, bell := leAt bs 4 4 % 32, addr := leAt bs 8 8
    len := bitsOf w 28 16 + 1, dl := leAt bs 0x18 4 }

/-- A fetched request is admitted, or completes at once; its entry has been reserved. -/
def takeRequest (s : State) (bs : List Byte) : State :=
  let r := requestOp bs
  let user := BitVec.ofNat 64 (leAt bs 0x20 8)
  let ha := leAt bs 0x10 8
  if requestBad bs then writeEntry s user sPOISONED 0
  else match judgeHost s r with
    | .denied => writeEntry s user sDENIED 0
    | .refused short => writeEntry (if short then countRefused s 0 else s) user sREFUSED 0
    | .go s1 =>
      let id := s1.nextOp
      let s2 := (freshOp { s1 with host := { s1.host with reqs := s1.host.reqs ++ [⟨id, ha, user, false⟩] } }).1
      if r.opc = 2 then startOp s2 0 (hostRop s r id (.host id) [] false) 0
      else emit (keepOp s2 (hostRop s r id (.host id) [] true)) (.hostFetch ha r.len id)

/-- A request may be fetched: fetching is enabled, one lies before the tail, and a completion entry is free. -/
def mayFetch (s : State) : Bool :=
  let h := s.host
  h.linkUp && h.enabled && !isSafe s 0 && decide (h.head ≠ h.tail) && decide (h.cqUsed + h.reserved < ringSize s CQ_SIZE)

/-- REQUEST_FETCH: the request at `RQ_HEAD` has been read from host memory. -/
def execRequestFetch (bytes : List Byte) (s : State) : Out :=
  .next (if mayFetch s && decide (bytes.length = 64) then
      takeRequest { s with host := { s.host with head := (s.host.head + 1) % ringSize s RQ_SIZE, reserved := s.host.reserved + 1 } } bytes
    else s)

/-- HOST_DATA_READ_DONE: the data of an admitted request has come from host memory, and the operation is sent; or the read failed, and it
completes without being sent (R280); where its timer fires before now it has failed by its deadline (R2, R265). -/
def execHostDataReadDone (op : Nat) (result : HostRead) (s : State) : Out :=
  .next (match findOp s 0 op with
    | none => s
    | some o =>
      if o.phase ≠ .prep ∨ o.origin ≠ .host op then s
      else if timerPast s 0 o then finishOp s 0 o sFAILED rDeadline [] true
      else match result with
        | .ok bs => if bs.length = msgLen o.msg then flush (putOp s 0 { o with phase := .ready, msg := { o.msg with data := bs } }) 0 else s
        | .unsupported => finishOp s 0 o sDENIED 0 [] false
        | .aborted => finishOp s 0 o sDENIED 0 [] false
        | .poisoned => finishOp s 0 o sPOISONED 0 [] false)

-- apertures (R282) -----------------------------------------------------------------------------------------------------------

/-- Registers of aperture `n`. -/
def apBase (s : State) (n : Nat) : Nat := (rd64 s pgHost (AP_BASE + 16 * n)).toNat
def apCtl (s : State) (n : Nat) : W32 := rd s pgHost (AP_BASE + 16 * n + 8)

/-- The 4 KiB-aligned pieces of an access, as address and length. -/
def apPieces (a len : Nat) : List (Nat × Nat) :=
  (List.range (ceilDiv (a % 4096 + len) 4096)).map (fun i =>
    let lo := if i = 0 then a else a / 4096 * 4096 + 4096 * i
    (lo, Nat.min (a + len) (a / 4096 * 4096 + 4096 * (i + 1)) - lo))

/-- One piece of an access as an operation. -/
def apOp (x : ApAccess) (p : Nat × Nat) : HostOp :=
  { opc := if x.write then 1 else 2, sub := 0, cls := x.cls, bell := 0, addr := p.1 % 2 ^ 64, len := p.2, dl := 0 }

/-- The pieces of an access are judged one after another: what each is to do, with the state that has its credit; `none` where a piece finds no
credit. A piece that is denied or refused otherwise is done at once. -/
def judgePieces (x : ApAccess) : State → List ROp → List (Nat × Nat) → Option (State × List (ApPiece × Option (ROp × Nat)))
  | s, _, [] => some (s, [])
  | s, before, p :: rest =>
    let r := apOp x p
    let bad : ApPiece := ⟨s.nextOp, true, false, []⟩
    match judgeHost s r before with
    | .denied => (judgePieces x (freshOp s).1 before rest).map (fun q => (q.1, (bad, none) :: q.2))
    | .refused true => none
    | .refused false => (judgePieces x (freshOp s).1 before rest).map (fun q => (q.1, (bad, none) :: q.2))
    | .go s1 =>
      let origin : Origin := if x.write then .apWrite x.id else .apRead x.id
      let data := if x.write then sliceB x.data (p.1 - x.addr) p.2 else []
      let o := hostRop s r s.nextOp origin data false
      (judgePieces x (freshOp s1).1 (o :: before) rest).map (fun q => (q.1, (⟨s.nextOp, false, false, []⟩, some (o, 0)) :: q.2))

/-- Put an access in the place of the one with its number. -/
def putAp (s : State) (x : ApAccess) : State :=
  { s with host := { s.host with aps := s.host.aps.map (fun y => if y.id = x.id then x else y) } }

/-- Issue an access whose turn it is. A write that finds no credit is held; a read then counts a refusal and ends with Completer Abort. -/
def issueAp (s : State) (x : ApAccess) : State :=
  let ps := apPieces x.addr x.len
  match judgePieces x s [] ps with
  | none =>
    if x.write then putAp s { x with held := true }
    else finishAperture (countRefused s 0) { x with held := false, pieces := [⟨0, true, false, []⟩] }
  | some (s1, qs) =>
    let y := { x with held := false, pieces := qs.map (fun q => q.1) }
    let s2 := (qs.filterMap (fun q => q.2)).foldl (fun t o => startOp t 0 o.1 o.2) (putAp s1 y)
    match s2.host.aps.find? (fun z => z.id = x.id) with
    | some z => if z.isDone then finishAperture s2 z else s2
    | none => s2

/-- An access that came before this one and is still a write under way. -/
def earlierWrite : List ApAccess → Nat → Bool
  | [], _ => false
  | y :: rest, id => if y.id = id then false else y.write || earlierWrite rest id

/-- Reads whose earlier writes have all completed are performed; `fuel` bounds them. -/
def releaseReadsN : Nat → State → State
  | 0, s => s
  | fuel + 1, s =>
    match s.host.aps.find? (fun x => x.held && !x.write && !earlierWrite s.host.aps x.id) with
    | some x => releaseReadsN fuel (issueAp s x)
    | none => s

/-- Reads whose earlier writes have all completed are performed. -/
def releaseReads (s : State) : State := releaseReadsN s.host.aps.length s

/-- A new aperture access at offset `o` of BAR4. -/
def newAp (s : State) (write : Bool) (o len : Nat) (data : List Byte) : ApAccess :=
  let n := o / 2 ^ 32
  { id := s.nextOp, write := write, cls := fld (apCtl s n) 2 1, addr := apBase s n + o % 2 ^ 32, len := len, data := data, held := true
    pieces := [] }

/-- Why an aperture access does not reach the device: safe or before `STEP` 1 it aborts, and before ready, at a disabled aperture, or on a write
without `WR`, it is unsupported. -/
def apTurnedAway (s : State) (write : Bool) (o : Nat) : Option Output :=
  let c := apCtl s (o / 2 ^ 32)
  if isSafe s 0 ∨ s.boot.step < 1 then some .completerAbort
  else if beforeReady s = true ∨ fld c 0 0 = 0 ∨ (write ∧ fld c 3 3 = 0) then some .unsupported
  else none

/-- An access of `len` bytes at an offset of one aperture. -/
def apFits (o len : Nat) : Bool := decide (0 < len) && decide (len ≤ 4096) && decide (o % 2 ^ 32 + len ≤ 2 ^ 32)

/-- APERTURE_READ. -/
def execApertureRead (offset : BitVec 36) (len : Nat) (s : State) : Out :=
  let o := offset.toNat
  .next (if !s.host.linkUp || !apFits o len then s
    else match apTurnedAway s false o with
      | some out => emit s out
      | none =>
        let x := newAp s false o len []
        let s1 := (freshOp s).1
        let s2 := { s1 with host := { s1.host with aps := s1.host.aps ++ [x] } }
        releaseReads s2)

/-- APERTURE_WRITE: PUTs in the order written; held behind an earlier held write, or for want of credit. -/
def execApertureWrite (offset : BitVec 36) (data : List Byte) (s : State) : Out :=
  let o := offset.toNat
  .next (if !s.host.linkUp || !apFits o data.length then s
    else match apTurnedAway s true o with
      | some out => emit s out
      | none =>
        let x := newAp s true o data.length data
        let s1 := (freshOp s).1
        let s2 := { s1 with host := { s1.host with aps := s1.host.aps ++ [x] } }
        if s.host.aps.any (fun y => y.held && y.write) then s2 else issueAp s2 x)

/-- APERTURE_WRITE_RELEASE: the oldest held write finds its credit. -/
def execApertureWriteRelease (s : State) : Out :=
  .next (match s.host.aps.find? (fun x => x.held && x.write) with
    | some x => releaseReads (issueAp s x)
    | none => s)

-- configuration space (R274, R276, R318) ----------------------------------------------------------------------------------------

/-- A free register of the configuration space: in the extended space it begins no SR-IOV, ATS or PRI capability, which the port has not (R274). -/
def freeConfig (o : Nat) : W32 :=
  let w := Config.pcieConfig o
  if 0x100 ≤ o ∧ [0x0F, 0x10, 0x13].contains (fld w 15 0) = true then putFld w 15 0 0 else w

/-- A register of the configuration space. What R274 and R275 give stands where PCIe has it (log entry 131): IDs and class code, one function, no
interrupt pin, the three 64-bit BARs, the MSI-X table of 66 vectors and its pending bits, 512-byte payloads and Function Level Reset, a link of 16
lanes at 64 GT/s in Flit mode, 14-bit tags, the Data Object Exchange capability, and no capability of SR-IOV, ATS or PRI. The rest is free. -/
def configWord (o : Nat) : W32 :=
  let free := freeConfig o
  if o = 0 then BitVec.ofNat 32 (0xC512 * 2 ^ 16 + Config.vendorId.toNat)
  else if o = 8 then BitVec.ofNat 32 (0x120000 * 2 ^ 8 + free.toNat % 256)
  else if o = 0x0C then putFld free 23 16 0
  else if o = 0x10 ∨ o = 0x18 then putFld free 3 0 4
  else if o = 0x20 then putFld free 3 0 12
  else if o = 0x3C then putFld free 15 8 0
  else if o = Config.msixCap then putFld (putFld free 26 16 65) 7 0 0x11
  else if o = Config.msixCap + 4 then 0x00030002
  else if o = Config.msixCap + 8 then 0x00038002
  else if o = Config.expressCap then putFld (putFld free 31 31 1) 7 0 0x10
  else if o = Config.expressCap + 4 then putFld (putFld free 28 28 1) 2 0 2
  else if o = Config.expressCap + 0x0C then putFld free 9 0 0x106
  else if o = Config.expressCap + 0x10 then putFld free 25 16 0x106
  else if o = Config.expressCap + 0x2C then putFld free 6 6 1
  else if o = Config.expressCap + 0x30 then putFld free 26 26 1
  else if o = Config.tagCap then putFld free 15 0 0x2F
  else if o = Config.tagCap + 4 then putFld free 2 1 3
  else if o = Config.doeCap then putFld free 15 0 0x2E
  else free

/-- PCIE_CONFIG_REQUEST: retry status before the port has trained, Completer Abort in the safe state, else the register's value. -/
def execPcieConfigRequest (offset : Nat) (s : State) : Out :=
  .next (if !s.boot.released then s
    else if !s.host.linkUp then emit s .configRetry
    else if isSafe s 0 then emit s .completerAbort
    else emit s (.configAnswer (configWord (offset / 4 * 4))))

end Sys2Proof.Machine
end

