-- ==== Sys2Proof/Machine/Attest.lean ====
section
/-!
DEFINITION. Attestation: the SPDM requests of the host over the Data Object Exchange mailbox (R363) and the exchange between the ports of a
link (R361, R364).
-/

namespace Sys2Proof.Machine

-- the host's requests (R363) --------------------------------------------------------------------------------------------------------------

/-- The key-wrapping key after a request: of the session that FINISH completed, and gone with its session (Table 19-2). -/
def kekAfter (old : Option (List Byte)) (before after : Spdm) : Option (List Byte) :=
  if after.session.map (fun x => x.th) = before.session.map (fun x => x.th) then old
  else match after.session with
    | some x => some (kekOf x.secret x.th)
    | none => none

/-- The host's SPDM message of this version and code, in this session: ResponseNotReady while the security block is busy. -/
def hostSpdm (ver code id : Nat) (message : List Byte) (s : State) : State :=
  let q := toLE 1 ver ++ toLE 1 code ++ message
  if !s.boot.released then s
  else if !s.host.linkUp then emit s .configRetry
  else if isSafe s 0 then emit s .completerAbort
  else if verifying s then
    emit { s with free := s.free + 2 } (.spdm (hostRecord s.security.spdm code id <| spdmMsg 0x7F 0x42 0 (drawn s.free 1 ++ toLE 1 code ++ drawn (s.free + 1) 2)))
  else
    let c := s.security.spdm
    let r := respond s s.free id c q
    emit { s with free := s.free + 2, security := { s.security with spdm := r.1, kek := kekAfter s.security.kek c r.1 } } (.spdm (hostRecord c code id r.2))

/-- GET_VERSION. -/
def execGetVersion (message : List Byte) (s : State) : Out := .next (hostSpdm 0x10 0x84 0 message s)

/-- GET_CAPABILITIES. -/
def execGetCapabilities (message : List Byte) (s : State) : Out := .next (hostSpdm 0x12 0xE1 0 message s)

/-- NEGOTIATE_ALGORITHMS. -/
def execNegotiateAlgorithms (message : List Byte) (s : State) : Out := .next (hostSpdm 0x12 0xE3 0 message s)

/-- GET_DIGESTS. -/
def execGetDigests (message : List Byte) (s : State) : Out := .next (hostSpdm 0x12 0x81 0 message s)

/-- GET_CERTIFICATE. -/
def execGetCertificate (message : List Byte) (s : State) : Out := .next (hostSpdm 0x12 0x82 0 message s)

/-- CHALLENGE. -/
def execChallenge (message : List Byte) (s : State) : Out := .next (hostSpdm 0x12 0x83 0 message s)

/-- GET_MEASUREMENTS. -/
def execGetMeasurements (message : List Byte) (s : State) : Out := .next (hostSpdm 0x12 0xE0 0 message s)

/-- KEY_EXCHANGE. -/
def execKeyExchange (message : List Byte) (s : State) : Out := .next (hostSpdm 0x12 0xE4 0 message s)

/-- FINISH in a session. -/
def execFinish (session : Nat) (message : List Byte) (s : State) : Out := .next (hostSpdm 0x12 0xE5 session message s)

/-- HEARTBEAT in a session. -/
def execHeartbeat (session : Nat) (message : List Byte) (s : State) : Out := .next (hostSpdm 0x12 0xE8 session message s)

/-- END_SESSION. -/
def execEndSession (session : Nat) (message : List Byte) (s : State) : Out := .next (hostSpdm 0x12 0xEC session message s)

-- toward a peer (R361, R364) -----------------------------------------------------------------------------------------------------------------

/-- The session fails: the port stays in quarantine with cause 6. -/
def attestFails (s : State) (p : Nat) : State :=
  applyAgree (setPort s p { port s p with attest := 3, fragments := [], keys := none }) p false

/-- The session is set up: the port takes its keys and enters its agreed state. -/
def attestDone (s : State) (p : Nat) (k : LinkKeys) : State :=
  applyAgree (setPort s p { port s p with attest := 2, fragments := [], keys := some k, cryptCount := 0 }) p false

/-- Value of measurement `i` in a record of blocks. -/
def measuredIn (i : Nat) : Nat → List Byte → List Byte
  | 0, _ => []
  | n + 1, b => if leAt b 0 1 = i then sliceB b 7 (leAt b 5 2) else measuredIn i n (b.drop (4 + leAt b 2 2))

/-- The peer's measurements show this device's `BEHAVIOUR_CLASS` and a headframe `SVN` at or above the local floor (R364; the version is
that of measurement 2, log entry 69). -/
def peerMeasuresOk (s : State) (record : List Byte) : Bool :=
  decide (bitsOf (leAt (measuredIn 4 5 record) 4 4) 15 8 = bitsOf (rd s (gpage 0 1) 0x044).toNat 15 8) &&
    decide (s.security.floors.getD 0 0 ≤ leAt (measuredIn 2 5 record) 48 4)

/-- The signature that ends a response verifies under the chain that the peer gave. -/
def peerSignedOk (r : PeerReq) (context : String) (transcript sig : List Byte) : Bool :=
  Config.peerSigned (Crypto.beNat (Crypto.sha384 r.chain)) (Crypto.beNat (toSign context transcript)) (Crypto.beNat sig)

/-- GET_CAPABILITIES, NEGOTIATE_ALGORITHMS, and GET_CERTIFICATE of slot 1 from this offset, as a port asks them. -/
def askCapabilities (draw : Nat) : List Byte := spdmMsg 0xE1 0 0 ([0] ++ drawn draw 1 ++ [0, 0] ++ toLE 4 0x22D6 ++ drawn (draw + 1) 8)
def askAlgorithms : List Byte :=
  spdmMsg 0xE3 3 0 (toLE 2 44 ++ [1, 0] ++ toLE 4 0x80 ++ toLE 4 2 ++ List.replicate 16 0 ++
    [2, 0x20, 0x10, 0, 3, 0x20, 2, 0, 5, 0x20, 1, 0])
def askCertificate (off : Nat) : List Byte := spdmMsg 0x82 1 0 (toLE 2 off ++ toLE 2 4000)

/-- Signed GET_MEASUREMENTS of all, with a nonce; KEY_EXCHANGE with the data of a draw. -/
def askMeasurements (draw : Nat) : List Byte := spdmMsg 0xE0 1 0xFF (drawn draw 32 ++ [1])
def askKeyExchange (draw : Nat) : List Byte :=
  spdmMsg 0xE4 0 1 (drawn draw 2 ++ [0, 0] ++ drawn (draw + 1) 32 ++ (List.range 96).map (Config.kexPublic draw) ++ [0, 0])

/-- The lower node-die ID exchanges keys once each side has given its measurements. -/
def maybeExchange (s : State) (p : Nat) : State :=
  let x := port s p
  if x.requester.step = 8 ∧ x.measured ∧ asksFirst s p then
    attestAsk { s with free := s.free + 2 } p { x.requester with step := 6, kex := s.free } (askKeyExchange s.free)
  else s

/-- The requester takes a response and asks on, or the session fails. -/
def takeSpdmResponse (s : State) (p : Nat) (a : List Byte) : State :=
  let r := (port s p).requester
  let v := r.vca ++ r.sent ++ a
  let s2 := { s with free := s.free + 2 }
  match r.step, spdmCode a with
  | 1, 0x04 => attestAsk s2 p { r with step := 2, vca := v } (askCapabilities s.free)
  | 2, 0x61 => attestAsk s p { r with step := 3, vca := v } askAlgorithms
  | 3, 0x63 => attestAsk s p { r with step := 4, vca := v } (askCertificate 0)
  | 4, 0x02 =>
    let chain := r.chain ++ sliceB a 8 (leAt a 4 2)
    if leAt a 6 2 = 0 then attestAsk s2 p { r with step := 5, chain := chain } (askMeasurements s.free)
    else if leAt a 4 2 = 0 then attestFails s p
    else attestAsk s p { r with chain := chain } (askCertificate chain.length)
  | 5, 0x60 =>
    let cut := a.length - 96
    if peerSignedOk r "responder-measurements signing" (r.vca ++ r.sent ++ a.take cut) (a.drop cut) &&
        peerMeasuresOk s (sliceB a 8 (leAt a 5 3)) then
      maybeExchange (setPort s p { port s p with requester := { r with step := 8 } }) p
    else attestFails s p
  | 6, 0x64 =>
    let cut := a.length - 144
    let th := r.vca ++ Crypto.sha384 r.chain ++ r.sent ++ a.take cut
    let th1 := th ++ sliceB a cut 96
    let hs := handshakeOf ((List.range 48).map (Config.kexSecret r.kex (Crypto.beNat (sliceB a 40 96))))
    let mac := a.drop (cut + 96)
    let head := spdmMsg 0xE5 0 0 []
    let q := head ++ Crypto.hmac (finishedKey hs th1 "req hs data") (Crypto.sha384 (th1 ++ mac ++ head))
    if peerSignedOk r "responder-key_exchange_rsp signing" th (sliceB a cut 96) &&
        decide (mac = Crypto.hmac (finishedKey hs th1 "rsp hs data") (Crypto.sha384 th1)) then
      attestAsk s p { r with step := 7, th := th1 ++ mac ++ q, secret := hs } q
    else attestFails s p
  | 7, 0x65 => attestDone s p (linkKeysOf true r.secret (r.th ++ a))
  | _, _ => attestFails s p

/-- The responder answers a request. The measurements once given, the higher node-die ID begins to ask, and the lower may exchange keys; a
peer's key exchange is answered only after this port's own checks; FINISH sets the session up. -/
def takeSpdmRequest (s : State) (p : Nat) (q : List Byte) : State :=
  let x := port s p
  let id := match x.responder.pending with
    | some t => t.id
    | none => 0
  let a := if spdmCode q = 0xE4 ∧ x.requester.step ≠ 8 then (x.responder, spdmError 4) else respond s s.free id x.responder q
  let s1 := attestSend (setPort { s with free := s.free + 2 } p { x with responder := a.1 }) p false a.2
  let code := spdmCode a.2
  if code = 0x7F then attestFails s1 p
  else if code = 0x60 then
    let s2 := setPort s1 p { port s1 p with measured := true }
    if x.requester.step = 0 then beginAsking s2 p else maybeExchange s2 p
  else if code = 0x65 then
    match a.1.session with
    | some t => attestDone s1 p (linkKeysOf false t.secret t.th)
    | none => s1
  else s1

/-- The message bytes of a fragment: the rest of the message, at most 1,024. -/
def fragmentData (b : List Byte) : List Byte := (b.drop 8).take (Nat.min 1024 (leAt b 4 2 - leAt b 2 2))

/-- A fragment's prefix is well formed and continues the message being received (R364). -/
def fragmentOk (have_ : Nat) (b : List Byte) : Bool :=
  decide (leAt b 2 2 = 0 ∨ leAt b 2 2 = have_) && decide (leAt b 4 2 ≤ 4096) && decide (leAt b 2 2 < leAt b 4 2) &&
    decide (leAt b 6 2 < 2) && decide ((fragmentData b).length = Nat.min 1024 (leAt b 4 2 - leAt b 2 2))

/-- A fragment arrives at a port that attests: a whole message is a request or a response. -/
def takeFragment (s : State) (p : Nat) (b : List Byte) : State :=
  let x := port s p
  if !fragmentOk x.fragments.length b then attestFails s p
  else
    let got := (if leAt b 2 2 = 0 then [] else x.fragments) ++ fragmentData b
    if got.length < leAt b 4 2 then setPort s p { x with fragments := got }
    else
      let s1 := setPort s p { x with fragments := [] }
      if leAt b 6 1 % 2 = 1 then takeSpdmRequest s1 p got else takeSpdmResponse s1 p got

/-- ATTESTATION_FRAME: taken in quarantine and in time wait while the port attests. -/
def execAttestationFrame (port : Fin 24) (bytes : List Byte) (s : State) : Out :=
  let r := receive s port bytes 6
  .next (match r.2 with
    | none => r.1
    | some f =>
      let s1 := consume r.1 port f
      let x := Machine.port s1 port
      if x.attest = 1 ∧ (x.st = 3 ∨ x.st = 4) then takeFragment s1 port f.body else s1)

/-- ATTESTATION_TIMEOUT: 50 ms without an end. -/
def execAttestationTimeout (port : Fin 24) (s : State) : Out :=
  let x := Machine.port s port
  .next (if linkRuns s port && decide (x.attest = 1) && decide (x.attestAt + 50000000 ≤ elapsed s) then attestFails s port else s)

end Sys2Proof.Machine
end

