-- ==== Sys2Proof/Machine/Control.lean ====
section
/-!
DEFINITION. Loops, branches, jumps, HALT and reserved words (R115, R117, R133).
-/

namespace Sys2Proof.Machine

/-- Activate a loop, or skip its body where the count is 0: an outer loop with the same last word then goes on or ends (log entry 149). -/
def enterLoop (x : Stope) (c count last : Nat) : Stope :=
  if count = 0 then x.pass last
  else { x with
    loops := ⟨c, x.pc + 1, last⟩ :: x.loops
    l := Sparse.set 0 x.l c (BitVec.ofNat 32 count)
    pc := x.pc + 1 }

/-- LOOP (0x18): judged at its issue, whatever its count (R117). The count is the low 32 bits of sA. A last word both past the code and past
an outer body faults `TARGET` (log entry 113). -/
def execLoop (st : Fin 512) (d a b : Byte) (imm : W32) (s : State) : Out :=
  .next (issue s st 0x18 d a b imm (fun s =>
    let x := stope s st
    if x.loops.any (fun r => r.ctr == d.toNat) then progFault s st cLOOP
    else if imm.toNat ≤ x.pc then progFault s st cLOOP
    else if imm.toNat ≥ x.codeLen then progFault s st cTARGET
    else if x.loops.any (fun r => decide (r.last < imm.toNat)) then progFault s st cLOOP
    else setStope s st (enterLoop x d.toNat ((sA s st a).toNat % 2 ^ 32) imm.toNat)))

/-- BEQ (0x19). -/
def execBeq (st : Fin 512) (d a b : Byte) (imm : W32) (s : State) : Out :=
  .next (branch s st 0x19 d a b imm (fun x y => x == y))

/-- BNE (0x1A). -/
def execBne (st : Fin 512) (d a b : Byte) (imm : W32) (s : State) : Out :=
  .next (branch s st 0x1A d a b imm (fun x y => x != y))

/-- BLT (0x1B), signed. -/
def execBlt (st : Fin 512) (d a b : Byte) (imm : W32) (s : State) : Out :=
  .next (branch s st 0x1B d a b imm (fun x y => BitVec.slt x y))

/-- BGE (0x1C), signed. -/
def execBge (st : Fin 512) (d a b : Byte) (imm : W32) (s : State) : Out :=
  .next (branch s st 0x1C d a b imm (fun x y => BitVec.sle y x))

/-- BLTU (0x1D), unsigned. -/
def execBltu (st : Fin 512) (d a b : Byte) (imm : W32) (s : State) : Out :=
  .next (branch s st 0x1D d a b imm (fun x y => BitVec.ult x y))

/-- JMP (0x1E): to word IMM. -/
def execJmp (st : Fin 512) (d a b : Byte) (imm : W32) (s : State) : Out :=
  .next (issue s st 0x1E d a b imm (fun s => jumpTo s st imm.toNat))

/-- HALT (0x1F): issue ends with `CAUSE` `HALTED`; the stope is busy until its operations complete (R133). -/
def execHalt (st : Fin 512) (d a b : Byte) (imm : W32) (s : State) : Out :=
  .next (issue s st 0x1F d a b imm (fun s => setStope s st ((stope s st).stop cHALTED)))

/-- A word with a reserved opcode, or with a reserved field or bit that is not 0 (R115). -/
def wordIllegal (w : W64) : Bool :=
  !(legalFields (fld w 63 56) (BitVec.ofNat 8 (fld w 55 48)) (BitVec.ofNat 8 (fld w 47 40)) (BitVec.ofNat 8 (fld w 39 32))
    (BitVec.ofNat 32 (fld w 31 0)))

/-- RESERVED_OPCODE: such a word at the stope's pc is a program fault with cause `ILLEGAL`. -/
def execReservedOpcode (st : Fin 512) (word : W64) (s : State) : Out :=
  .next (if issueWord (stope s st) = some word ∧ wordIllegal word = true then progFault s st cILLEGAL else s)

end Sys2Proof.Machine
end

