-- ==== Sys2Proof/Machine/LoadStore.lean ====
section
/-!
DEFINITION. LDS, STS, VLD and VST (R116); an error that they meet is recorded (R139).
-/

namespace Sys2Proof.Machine

/-- LDS (0x11). -/
def execLds (st : Fin 512) (d a b : Byte) (imm : W32) (s : State) : Out :=
  .next (issue s st 0x11 d a b imm (fun s => doLoad metIn false false s st d a b imm))

/-- STS (0x12). -/
def execSts (st : Fin 512) (d a b : Byte) (imm : W32) (s : State) : Out :=
  .next (issue s st 0x12 d a b imm (fun s => doStore metIn false false s st d a b imm))

/-- VLD (0x3D). -/
def execVld (st : Fin 512) (d a b : Byte) (imm : W32) (s : State) : Out :=
  .next (issue s st 0x3D d a b imm (fun s => doLoad metIn true false s st d a b imm))

/-- VST (0x3E). -/
def execVst (st : Fin 512) (d a b : Byte) (imm : W32) (s : State) : Out :=
  .next (issue s st 0x3E d a b imm (fun s => doStore metIn true false s st d a b imm))

/-- The word at the stope's pc, as a load or store performed at bank `bk` beside a port-B access (R142); `busy` as in `doLoad`. Of a vector
access a gallery bank performs one word (R137). -/
def localAtPc (s : State) (bk : Nat) (st : Fin 512) (word : W64) (busy : Bool) : State :=
  let d := BitVec.ofNat 8 (fld word 55 48)
  let a := BitVec.ofNat 8 (fld word 47 40)
  let b := BitVec.ofNat 8 (fld word 39 32)
  let imm := BitVec.ofNat 32 (fld word 31 0)
  match fld word 63 56 with
  | 0x11 => issue s st 0x11 d a b imm (fun s => doLoad metIn false busy s st d a b imm)
  | 0x12 => issue s st 0x12 d a b imm (fun s => doStore metIn false busy s st d a b imm)
  | 0x3D => issue s st 0x3D d a b imm (fun s =>
      if bk < 512 then doLoad metIn true busy s st d a b imm else vecWord metIn false busy (served s st bk) st d b (memAddr s st a imm))
  | 0x3E => issue s st 0x3E d a b imm (fun s =>
      if bk < 512 then doStore metIn true busy s st d a b imm else vecWord metIn true busy (served s st bk) st d b (memAddr s st a imm))
  | _ => s

end Sys2Proof.Machine
end

