-- ==== Sys2Proof/Machine/Face.lean ====
section
/-!
DEFINITION. What a face pass computes: group sums, terms, nugget add-back, the order of R66, and the checks that the face
makes of every pass (R55, R59, R64 to R66, R79, R81, R83, R84, R335, R336).
-/

namespace Sys2Proof.Machine

/-- One scale group of the table operand: held values, its E8M0 byte, whether it is NaN (R38, R55), and its nugget record. -/
structure XGroup where
  held : List Int
  scale : Nat
  nan : Bool
  rec_ : NugRec
deriving DecidableEq, Repr

/-- Nugget record `k` of token `t` as memory holds it. -/
def FaceDesc.record (s : State) (d : FaceDesc) (t k : Nat) : Nat :=
  if d.xNug = 0 then 0 else leNat (readMem s (d.xNug + 8 * (t * d.xsStride + k)) 8)

/-- Group `k` of token `t`, from the descriptor's codes and scales (R123). -/
def FaceDesc.xGroup (s : State) (d : FaceDesc) (zp t k : Nat) : XGroup :=
  let g := groupSize d.group
  let bytes := readMem s (d.xData + t * d.xStride + k * g * fmtBits d.xFmt / 8) (g * fmtBits d.xFmt / 8)
  let codes := (List.range g).map (codeAt d.xFmt bytes)
  let bad := decide (d.xFmt = 0x14) && codes.any a8fNan
  let e := (readByte s (d.xScl + t * d.xsStride + k)).toNat
  { held := if bad then codes.map (fun _ => 0) else codes.map (heldValue d.xFmt [] zp)
    scale := e, nan := bad || decide (e = 255), rec_ := NugRec.ofNat (d.record s t k) }

/-- Values of the fall-back source of group `k` of token `t`, as FP32. -/
def FaceDesc.source (s : State) (d : FaceDesc) (t k : Nat) : List Nat :=
  let g := groupSize d.group
  let n := if d.fb32 then 4 else 2
  let bytes := readMem s (d.xFb + t * d.fbStride + k * g * n) (g * n)
  (List.range g).map (fun i => let v := leAt bytes (n * i) n; if d.fb32 then v else bf16ToFp32 v)

/-- The same group re-quantised to A8F for the W4A8 path (R84); it adds nothing to the quantiser's counters (log entry 109). -/
def FaceDesc.xGroupFb (s : State) (d : FaceDesc) (t k : Nat) : XGroup :=
  let r := quantGroupE8m0 { fmt := 0x14, rnd := 0, book := [], zp := 0, seed := 0, step := 0, tensorId := 0, nug := false, thresh := 0 }
    0 none (d.source s t k)
  { held := r.codes.map (heldValue 0x14 [] 0), scale := r.scale, nan := false, rec_ := NugRec.none }

/-- A group sum: the value a faulty face produced for it, or its exact value (R64). -/
def groupSum (errs : List SumErr) (r t k : Nat) (w x : List Int) : Int :=
  match errs.find? (fun e => decide (e.row = r) && decide (e.tok = t) && decide (e.grp = k)) with
  | some e => e.n
  | none => (List.zipWith (· * ·) w x).foldl (· + ·) 0

/-- An FP32 result with the overflow mark of `FP_RANGE`. -/
abbrev Marked := Nat × Bool

/-- A step of R65 or R66 overflowed: finite operands gave a result that is not finite. -/
def overflowed (z : Nat) (ops : List Nat) : Bool := fpNotFinite fp32 z && ops.all (fun x => !fpNotFinite fp32 x)

/-- An FP32 addition that keeps the mark. -/
def addMarked (x : Marked) (y : Marked) : Marked :=
  let z := fpAdd fp32 x.1 y.1
  (z, x.2 || y.2 || overflowed z [x.1, y.1])

/-- The scales of a weight group: v, S2 and the exponent e_w − 127 (R65, R66, R81). -/
structure WScale where
  v : Nat
  s2 : Nat
  exp : Int
  nan : Bool
  /-- an SQ8 byte that R39 calls invalid -/
  bad : Bool
deriving DecidableEq, Repr

/-- Scales of group `k` of row `r`: those of an SQ8-class weight from the scale records as the tile's start fetched them (R44). -/
def FaceDesc.wScale (s : State) (recs : List Byte) (d : FaceDesc) (q : Geo) (r k : Nat) : WScale :=
  let n := d.groupNo q r k
  if d.sq8 then
    let a := n / d.tileGroups * scaleRecordSize d.group
    let b := leAt recs (a + 8 + n % d.tileGroups) 1
    { v := e4m3ToFp32 b, s2 := leAt recs a 4, exp := 0, nan := false, bad := !sq8Valid b }
  else
    let b := (readByte s (d.wScl + n)).toNat
    { v := fpOne, s2 := fpOne, exp := (b : Int) - 127, nan := decide (b = 255), bad := false }

/-- p_k of R81: exact, rounded only outside the normal range. -/
def nuggetProduct (w : Int) (v val : Nat) (q : Int) : Marked :=
  let a := fpExact v
  let b := fpExact (bf16ToFp32 val)
  let m := w * a.1 * b.1
  let z := fpRound fp32 (decide (m < 0)) m.natAbs (a.2 + b.2 + q) false
  (z, fpNotFinite fp32 z)

/-- term(g) of R65 with the add-back of R81. -/
def groupTerm (xf wf : Nat) (n : Int) (w : List Int) (x : XGroup) (c : WScale) : Marked :=
  if x.nan || c.nan then (0, false)
  else
    let x2 := fpMul fp32 (fpOfInt fp32 n) c.v
    let z := fpScale fp32 x2 ((x.scale : Int) - 127 + c.exp + fmtFactor xf + fmtFactor wf)
    let add (on : Bool) (idx val : Nat) (a : Marked) : Marked :=
      if on then addMarked a (nuggetProduct (w.getD idx 0) c.v val (fmtFactor wf + c.exp)) else a
    add x.rec_.v1 x.rec_.idx1 x.rec_.val1 (add x.rec_.v0 x.rec_.idx0 x.rec_.val0 (z, overflowed z [x2]))

/-- The running sums of R66: y, the segment's sum, its weight tile and its S2. -/
structure RowSum where
  y : Marked
  seg : Marked
  tile : Option Nat
  s2 : Nat
deriving DecidableEq, Repr

/-- End of a segment: y + s × S2. -/
def RowSum.close (a : RowSum) : RowSum :=
  match a.tile with
  | none => a
  | some _ =>
    let p := fpMul fp32 a.seg.1 a.s2
    { a with y := addMarked a.y (p, a.seg.2 || overflowed p [a.seg.1, a.s2]), seg := (0, false), tile := none }

/-- One term joins its segment. -/
def RowSum.add (a : RowSum) (tile s2 : Nat) (term : Marked) : RowSum :=
  let b := if a.tile = some tile then a else { a.close with tile := some tile, s2 := s2 }
  { b with seg := addMarked b.seg term }

/-- What a pass reads, with its groups. -/
structure PassIn where
  d : FaceDesc
  q : Geo
  book : List Int
  xf : Nat
  x : Nat → Nat → XGroup
  errs : List SumErr
  /-- the weights' scale records -/
  recs : List Byte

/-- Output (r, t) of a pass. -/
def PassIn.output (s : State) (p : PassIn) (init : Nat) (r t : Nat) : Marked :=
  ((List.range p.d.groups).foldl (fun (a : RowSum) k =>
    let w := p.d.weights s p.q p.book r k
    let x := p.x t k
    let c := p.d.wScale s p.recs p.q r k
    let n := groupSum p.errs r t k w x.held
    a.add (p.d.groupNo p.q r k / p.d.tileGroups) c.s2 (groupTerm p.xf p.d.wFmt n w x c))
    ⟨(init, false), (0, false), none, 0⟩).close.y

/-- Largest held activation magnitude of a pass: A of R335. -/
def PassIn.maxAct (p : PassIn) : Nat :=
  ((List.range p.d.tokens).flatMap (fun t => (List.range p.d.groups).flatMap (fun k => (p.x t k).held.map Int.natAbs))).foldl Nat.max 0

/-- Rows that fail R335. An exact sum never does, so only produced values are compared. -/
def PassIn.rangeRows (s : State) (p : PassIn) : List Nat :=
  (p.errs.filter (fun e => decide (e.row < p.d.rows) && decide (e.tok < p.d.tokens) && decide (e.grp < p.d.groups) &&
    decide (((p.d.weights s p.q p.book e.row e.grp).map Int.natAbs).foldl (· + ·) 0 * p.maxAct <
      (groupSum p.errs e.row e.tok e.grp [] []).natAbs))).map (fun e => e.row)

/-- Row sets that fail R336 with spacing `chk`: the produced sums of a set differ from the exact ones in total. -/
def PassIn.checkSets (s : State) (p : PassIn) (chk : Nat) : List Nat :=
  if chk = 0 then []
  else (p.errs.filter (fun e => decide (e.row < p.d.rows) && decide (e.tok < p.d.tokens) && decide (e.grp < p.d.groups) &&
    (let rows := (List.range chk).map (fun i => e.row / chk * chk + i)
     decide (((rows.filter (fun r => r < p.d.rows)).map (fun r =>
       let w := p.d.weights s p.q p.book r e.grp
       let x := (p.x e.tok e.grp).held
       groupSum p.errs r e.tok e.grp w x - groupSum [] r e.tok e.grp w x)).foldl (· + ·) 0 ≠ 0)))).map (fun e => e.row / chk)

/-- Lowest of a list of numbers. -/
def lowest : List Nat → Option Nat
  | [] => none
  | x :: rest => some (rest.foldl Nat.min x)

/-- What a pass gives. -/
structure PassOut where
  outs : List W32
  /-- `TILE_STATUS` bits 12 to 18 of the pass -/
  flags : Nat
  poisoned : Bool
  triggered : Bool
  /-- lowest failing row (R335) and row set (R336) -/
  range : Option Nat
  check : Option Nat
deriving DecidableEq, Repr

/-- Condition bits of Table 03-4. -/
abbrev tNAN_IN : Nat := 0x1000
abbrev tBAD_CODE : Nat := 0x2000
abbrev tBAD_HEADER : Nat := 0x4000
abbrev tBAD_SHAPE : Nat := 0x8000
abbrev tSAT : Nat := 0x10000
abbrev tFP_RANGE : Nat := 0x40000

/-- Every (row, group) and every (token, group) of a tile. -/
def FaceDesc.rowGroups (d : FaceDesc) : List (Nat × Nat) :=
  (List.range d.rows).flatMap (fun r => (List.range d.groups).map (fun k => (r, k)))
def FaceDesc.tokGroups (d : FaceDesc) : List (Nat × Nat) :=
  (List.range d.tokens).flatMap (fun t => (List.range d.groups).map (fun k => (t, k)))

/-- One pass of a tile of stope `n` on the path that its formats give, or (`fb`) on the W4A8 path. A record's `SAT_COUNT` is compared as its
eight bits stand, also above 128 (log entry 108); of a scale record only the groups of rows below `ROWS` are examined (log entry 145); saturations of the re-quantisation set no `SAT` (log entry 109). -/
def facePass (s : State) (n : Nat) (o : LongOp) (d : FaceDesc) (fb : Bool) (errs : List SumErr) : PassOut :=
  let q := d.geo
  let zp := (parseHeader o.hdrX).zp
  let p : PassIn :=
    { d := d, q := q, book := (parseHeader o.hdrW).book, xf := if fb then 0x14 else d.xFmt
      x := if fb then d.xGroupFb s else d.xGroup s zp, errs := errs, recs := o.scales }
  let init := o.init.getD []
  let ys := (List.range (d.rows * d.tokens)).map (fun i =>
    p.output s (if d.acc then (init.getD i 0).toNat else 0) (i / d.tokens) (i % d.tokens))
  let tern := d.rowGroups.any (fun c => d.badTern s q c.1 c.2)
  let sq8 := d.sq8 && d.rowGroups.any (fun c => (d.wScale s o.scales q c.1 c.2).bad)
  let recs := if fb then [] else d.tokGroups.map (fun c => d.record s c.1 c.2)
  let nug := recs.any (nugMalformed (groupSize d.group))
  let wNan := !d.sq8 && d.rowGroups.any (fun c => (d.wScale s o.scales q c.1 c.2).nan)
  let eNan := !fb && d.tokGroups.any (fun c => decide ((p.x c.1 c.2).scale = 255))
  let xNan := !fb && d.tokGroups.any (fun c => (p.x c.1 c.2).nan)
  let srcNan := fb && d.tokGroups.any (fun c => (d.source s c.1 c.2).any (fpIsNan fp32))
  let parsed := recs.map NugRec.ofNat
  let recNan := parsed.any (fun r => r.nan)
  let limit := fld (rd s (pgOutlier n) FB_CTL) 7 0
  { outs := ys.map (fun y => BitVec.ofNat 32 y.1)
    flags := bitIf (wNan || xNan || srcNan || (recNan && fmtAct4 d.xFmt)) tNAN_IN ||| bitIf (tern || nug) tBAD_CODE |||
      bitIf sq8 tBAD_HEADER ||| bitIf (parsed.any (fun r => decide (0 < r.satCount)) || eNan || wNan) tSAT |||
      bitIf (ys.any (fun y => y.2)) tFP_RANGE
    poisoned := tern || nug || sq8
    triggered := !fb && fmtAct4 d.xFmt && (eNan || recNan || parsed.any (fun r => r.overs || decide (limit < r.satCount)))
    range := lowest (p.rangeRows s), check := lowest (p.checkSets s o.chk) }

end Sys2Proof.Machine
end

