-- ==== Sys2Proof/Machine/FaceOps.lean ====
section
/-!
DEFINITION. FACE from acceptance to its end: the checks of R124, the operation queue and computed ends of R119 and R121, passes,
replays and fall-back (R84 to R87, R339), the tile's end (R67, R68) and canaries (R337, R338).
-/

namespace Sys2Proof.Machine

-- the operation queue (R119, R121) -----------------------------------------------------------------------------------------

/-- What judging a descriptor answers: a status word at once, or an operation to queue. -/
structure Job where
  desc : List Byte
  hdrW : List Byte
  hdrX : List Byte
  cycles : Nat
  chk : Nat
  area : Nat
  reads : List Span
  writes : List Span
deriving DecidableEq, Repr

/-- New FACE, UPD and QUANT are taken: admission is open, the power cap and the thermal step of the half-level allow them, and the
half-level is not being switched off (R19, R135, R316, R331, R332, R347). -/
def longGate (s : State) (n cls : Nat) : Bool :=
  admitting s (n / 256) cls && !s.power.capped && decide ((halfLevel s (halfOf n)).step < 2) && stopeOpen s n

/-- Cycles of the operations ahead in the queue, each with the CCLK that its own end was computed at (R119, R327). -/
def aheadCycles (x : Stope) : List (Nat × Nat) := x.queue.map (fun o => (o.cycles, o.mhz))

/-- Time until the end of an operation of some cycles behind those of the queue (R119, R327). -/
def endsIn (s : State) (n cycles : Nat) : Nat := runNs (aheadCycles (stope s n) ++ [(cycles, cclk s (n / 256))])

/-- The instruction completes at acceptance with a status word, which its register keeps too. -/
def endAtOnce (s : State) (n : Nat) (d : Byte) (t : Nat) (k : LongKind) (w : W32) : State :=
  let s1 := keepWord s n k w
  answerNow (if k = .upd then wr s1 (pgStope n) UPD_DONE 0 else s1) n d t w

/-- Queue an accepted operation. -/
def queueLong (s : State) (n : Nat) (d : Byte) (t dl : Nat) (k : LongKind) (addr : Nat) (canary : Bool) (j : Job) : State :=
  let q := freshOp s
  let o : LongOp :=
    { op := q.2, kind := k, accepted := now s (n / 256), deadline := dl, cycles := j.cycles, mhz := cclk s (n / 256), descAddr := addr, desc := j.desc
      hdrW := j.hdrW, hdrX := j.hdrX, seed := (stope s n).sreg 30, step := (stope s n).sreg 31, init := none, run := none
      canary := canary, chk := j.chk, area := j.area, reReads := 0, stalls := 0, started := none, fetched := false, scales := [], tiles := 0, outBuf := none
      wrote := [] }
  let s1 := acceptAsync q.1 n d t { op := q.2, ticket := t, deadline := dl, remote := false, reads := j.reads, writes := j.writes }
  let x := stope s1 n
  let s2 := setStope s1 n { x with queue := x.queue ++ [o] }
  if x.queue = [] then startHead s2 n else s2

/-- A read of the own banks at acceptance, of a descriptor or a header: DENIED where port A does not serve the stope (R148), POISONED and
reported where a word holds an error; `none` where its bytes may be used. -/
def readRefused (s : State) (n a len : Nat) : Option (State × Sum W32 Job) :=
  if rangeDenied s n a len false then some (countDenied s (tallyDenies s n [(a, len)]), .inl (statusWord sDENIED 0))
  else if anyBad s a len then some (metIn s a len, .inl (statusWord sPOISONED 0))
  else none

/-- The first read of a list that is refused. -/
def readsRefused (s : State) (n : Nat) (rs : List (Nat × Nat)) : Option (State × Sum W32 Job) := rs.findSome? (fun r => readRefused s n r.1 r.2)

-- the copy of a canary's tile (R338) -----------------------------------------------------------------------------------------------

/-- The canary partner of a stope. -/
def partner (n : Nat) : Nat := if n % 2 = 0 then n + 1 else n - 1

/-- A number of bytes rounded up to 64. -/
def up64 (n : Nat) : Nat := 64 * ceilDiv n 64

/-- The ranges of a descriptor by the place of their address in it. -/
def FaceDesc.named (d : FaceDesc) : List (Nat × Nat × Nat) :=
  let q := d.geo
  [(0, d.wData, d.wLen q), (8, d.wHdr, 64), (0x10, d.wScl, d.sclLen q), (0x18, d.xData, runLen d.tokens d.xStride d.codeLen),
   (0x20, d.xHdr, 64), (0x28, d.xScl, runLen d.tokens d.xsStride d.groups), (0x30, d.xNug, 8 * runLen d.tokens d.xsStride d.groups),
   (0x38, d.xFb, runLen d.tokens d.fbStride d.fbLen), (0x40, d.y, 4 * d.rows * d.tokens)]

/-- Places of the named ranges one after another from `p`: (offset in the descriptor, address, bytes, place). -/
def copyPlaces (p : Nat) : List (Nat × Nat × Nat) → List (Nat × Nat × Nat × Nat)
  | [] => []
  | (o, a, n) :: rest => if a = 0 then copyPlaces p rest else (o, a, n, p) :: copyPlaces (p + up64 n) rest

/-- The descriptor redirected to those places. -/
def redirect (desc : List Byte) (ps : List (Nat × Nat × Nat × Nat)) : List Byte := ps.foldl (fun b p => spliceB b p.1 (toLE 8 p.2.2.2)) desc

/-- Where the copy of a tile of stope `n` starts, of a canary area at this pillar offset: past the area's first 64 KiB, in the partner's bank. -/
def copyAt (s : State) (n area : Nat) : Nat := pillarAddr s (partner n) + area + 65536

/-- The assay block begins the copy of a tile of stope `st`: the descriptor, and every range it names, through port B (R338). -/
def copyTile (s : State) (st : Fin 512) (op : Nat) (desc : List Byte) (area due : Nat) : State :=
  let base := copyAt s st area
  let ps := copyPlaces (base + 128) (FaceDesc.parse desc).named
  let s1 := { s with canaries := s.canaries ++ [⟨st, op, .copying, ps.length + 1⟩] }
  ps.foldl (fun t p => queueCanary t st op (some p.2.2.2) .read p.2.1 p.2.2.1 due [])
    (queueCanary s1 st op none .write base 128 due (redirect desc ps))

/-- The common issue of FACE, UPD and QUANT. -/
def longIns (s : State) (st : Fin 512) (op : Nat) (d a b : Byte) (imm : W32) (k : LongKind)
    (judge : State → Nat → Nat → State × Sum W32 Job) (select : State → Nat → Job → Nat → State × Bool) : State :=
  issue s st op d a b imm (fun s =>
    if 4 ≤ (stope s st).queue.length then s
    else withTicket s st d false (fun s t =>
      if !longGate s st (immClass imm) then answerNow s st d t (statusWord sREFUSED 0)
      else
        let addr := (areg s st a.toNat).toNat
        match judge s st addr with
        | (s1, .inl w) => endAtOnce s1 st d t k w
        | (s1, .inr j) =>
          let die := st.val / 256
          let budget := budgetOf s1 st imm
          let dl := now s1 die + budget
          if budget = 0 ∨ 2 ^ 32 ≤ budget ∨ dl < now s1 die + endsIn s1 st j.cycles then answerNow s1 st d t (statusWord sREFUSED 0)
          else
            let c := select s1 st j dl
            let s2 := queueLong c.1 st d t dl k addr c.2 j
            if c.2 then copyTile s2 st c.1.nextOp j.desc j.area dl else s2))

/-- Spans of ranges, by the low 50 bits. -/
def spansOf (rs : List (Nat × Nat)) : List Span := rs.map (fun r => ⟨low50 r.1, r.2⟩)

/-- A range lies wholly in the own pillar bank. -/
def inPillar (s : State) (n a len : Nat) : Bool := decide (ownBank s n a len = some n)

/-- Every range lies wholly in the own pillar bank or the own gallery bank. -/
def ownRanges (s : State) (n : Nat) (rs : List (Nat × Nat)) : Bool := rs.all (fun r => (ownBank s n r.1 r.2).isSome)

-- judging a face descriptor (R124) -----------------------------------------------------------------------------------------------

/-- Step 2: no field of the descriptor excludes the tile. -/
def FaceDesc.fieldsOk (d : FaceDesc) : Bool :=
  !d.bad && decide (1 ≤ d.rows) && decide (1 ≤ d.tokens) && decide (d.rows * d.tokens ≤ 16384) && decide (d.kc ≠ 0) &&
  decide (d.group ≤ 2) && fmtIsWeight d.wFmt && fmtIsAct d.xFmt && fmtAllowsClass d.wFmt (if d.sq8 then 1 else 0) &&
  decide (laneSpan d.wFmt d.xFmt (groupSize d.group) ≤ 128) && decide (d.kc % d.geo.span = 0) && (d.sq8 == decide (d.wHdr ≠ 0)) &&
  (!fmtHasZp d.xFmt || decide (d.xHdr ≠ 0)) && (fmtAct4 d.xFmt || decide (d.xNug = 0))

/-- Step 4: the address rules of the face; weight words repeat their place in 4 KiB after two. -/
def FaceDesc.placesOk (s : State) (n : Nat) (d : FaceDesc) : Bool :=
  let q := d.geo
  inPillar s n d.wData (d.wLen q) && inPillar s n d.y (4 * d.rows * d.tokens) &&
  (List.range (Nat.min 2 (d.blocks * d.sets q * q.words))).all (fun i => decide ((d.wData + i * q.step) % 4096 + q.word ≤ 4096))

/-- Step 6: the headers agree with the descriptor in format, group and nugget list. -/
def FaceDesc.headersAgree (d : FaceDesc) (hw hx : Header) : Bool :=
  (decide (d.wHdr = 0) || (decide (hw.fmt = d.wFmt) && decide (hw.group = d.group))) &&
  (decide (d.xHdr = 0) || (decide (hx.fmt = d.xFmt) && decide (hx.group = d.group) && (hx.nug == decide (d.xNug ≠ 0))))

/-- Spacing of checksum rows of stope `n`'s quadrant; 0 for none (Table 18-3). -/
def chkSpacing (s : State) (n : Nat) : Nat :=
  match fld (assayOf s n).ctl 2 0 with
  | 1 => 128 | 2 => 64 | 3 => 32 | 4 => 16 | _ => 0

/-- A header's bytes, where one is named. -/
def hdrBytes (s : State) (a : Nat) : List Byte := if a = 0 then [] else readMem s a 64

/-- Judge a face descriptor at `a` by the checks of R124, in their order. -/
def judgeFace (s : State) (n a : Nat) : State × Sum W32 Job :=
  let no (st bits : Nat) : State × Sum W32 Job := (s, .inl (wordBits st 0 bits))
  if (ownBank s n a 128).isNone then no sDENIED 0
  else if !inPillar s n a 128 || decide (a % 64 ≠ 0) then no sPOISONED tBAD_SHAPE
  else match readRefused s n a 128 with
  | some r => r
  | none =>
    let desc := readMem s a 128
    let d := FaceDesc.parse desc
    if !d.fieldsOk then no sPOISONED tBAD_SHAPE
    else if !ownRanges s n (d.ranges d.geo) then no sDENIED 0
    else if !d.placesOk s n then no sPOISONED tBAD_SHAPE
    else match readsRefused s n (([d.wHdr, d.xHdr].filter (fun h => h ≠ 0)).map (fun h => (h, 64))) with
    | some r => r
    | none =>
      let hw := hdrBytes s d.wHdr
      let hx := hdrBytes s d.xHdr
      if (d.wHdr ≠ 0 ∧ headerValid hw = false) ∨ (d.xHdr ≠ 0 ∧ headerValid hx = false) then no sPOISONED tBAD_HEADER
      else if !d.headersAgree (parseHeader hw) (parseHeader hx) then no sPOISONED tBAD_SHAPE
      else
        let rs := d.ranges d.geo
        let k := chkSpacing s n
        (s, .inr { desc := desc, hdrW := hw, hdrX := hx, cycles := d.cycles s k, chk := k, area := (assayOf s n).base.toNat
                   reads := spansOf ((a, 128) :: rs.dropLast ++ (if d.acc then [(d.y, 4 * d.rows * d.tokens)] else []))
                   writes := [⟨low50 d.y, 4 * d.rows * d.tokens⟩] })

-- canaries: selection (R337, R338) ------------------------------------------------------------------------------------------------------

/-- Rate D of canaries (Table 18-3); 0 for off. -/
def canaryRate (s : State) (n : Nat) : Nat :=
  match fld (assayOf s n).ctl 5 3 with
  | 1 => 256 | 2 => 64 | 3 => 16 | 4 => 4 | 5 => 1 | _ => 0

/-- Bytes of the copy of a tile: its descriptor and its ranges. -/
def copyBytes (rs : List (Nat × Nat)) : Nat := 128 + (rs.map (fun r => up64 r.2)).foldl (· + ·) 0

/-- The copy and the outputs fit the area, the partner is on and free of canaries, and the canary can end by the deadline: a copy and
a return at 102.4 GB/s about a second run of the tile. -/
def canaryFits (s : State) (n : Nat) (j : Job) (dl : Nat) : Bool :=
  let d := FaceDesc.parse j.desc
  let bytes := copyBytes (d.ranges d.geo)
  let die := n / 256
  let run := runNs [(j.cycles, cclk s die)]
  let copied := ceilDiv (bytes * 10) 1024
  let tile := endsIn s n j.cycles
  decide (65536 + bytes ≤ 4096 * (assayOf s n).size.toNat) &&
  decide (domain s (domHalf (halfOf (partner n))) = 2) &&
  !s.canaries.any (fun c => decide (c.st.val = n) || decide (c.st.val = partner n)) &&
  decide (now s die + Nat.max copied tile + run + ceilDiv (4 * d.rows * d.tokens * 10) 1024 ≤ dl)

/-- A face tile is issued: it counts in m, and may be selected for a canary. -/
def selectCanary (s : State) (n : Nat) (j : Job) (dl : Nat) : State × Bool :=
  let x := stope s n
  let rate := canaryRate s n
  let s1 := setStope s n { x with issued := x.issued + 1 }
  if rate = 0 ∨ (x.issued + fld (assayOf s n).ctl 13 6) % rate ≠ 0 then (s1, false)
  else if canaryFits s n j dl then (s1, true)
  else (bump s1 (pgAssay (quadOf n)) CANARY_SKIPPED 1, false)

/-- FACE (0x20): issue a face tile with the descriptor at aA. -/
def execFace (st : Fin 512) (d a b : Byte) (imm : W32) (s : State) : Out :=
  .next (longIns s st 0x20 d a b imm .face judgeFace selectCanary)

-- passes (R83 to R87, R335, R336, R339) -----------------------------------------------------------------------------------------------------

/-- Report every run of a list that meets an uncorrectable error. -/
def reportBad (s : State) (rs : List (Nat × Nat)) : State :=
  (rs.filter (fun r => anyBad s r.1 r.2)).foldl (fun t r => metIn t r.1 r.2) s

/-- Replace the operation at the head of a stope's queue. -/
def putHead (s : State) (n : Nat) (o : LongOp) : State :=
  let x := stope s n
  setStope s n { x with queue := x.queue.map (fun p => if p.op = o.op then o else p) }

/-- Some cycles of the running operation, with those that re-reads, port B and replays have added, have passed (R63, R70, R105, R126, R144, R339), at
the CCLK of its acceptance (log entry 140). -/
def hasRun (s : State) (n : Nat) (o : LongOp) (cycles : Nat) : Bool :=
  match o.started with
  | some t0 => decide (t0 + runNs [(cycles + o.reReads + o.stalls, o.mhz)] ≤ now s (n / 256))
  | none => false

/-- A run that has ended with a status. -/
def runEnd (fl st reason : Nat) : FaceRun :=
  { outs := [], flags := BitVec.ofNat 32 fl, status := st, reason := reason, fallback := false }

/-- Outcome of a pass whose checks are settled: poisoned, clipped, or to be recomputed (R83 to R86). Answers the fall-back's charge. -/
def settlePass (d : FaceDesc) (left : Nat) (fb : Bool) (before : Nat) (p : PassOut) : FaceRun × Nat :=
  let fl := before ||| p.flags
  if p.poisoned then (runEnd fl sPOISONED 0, 0)
  else if fb || !p.triggered then
    ({ outs := p.outs, flags := BitVec.ofNat 32 fl, status := sOK, reason := 0, fallback := false }, 0)
  else if d.xFb ≠ 0 ∧ ¬(d.wFmt = 7 ∧ d.group = 2) ∧ d.charge ≤ left then
    ({ outs := [], flags := BitVec.ofNat 32 (fl ||| tFELL_BACK), status := sOK, reason := 0, fallback := true }, d.charge)
  else ({ outs := p.outs, flags := BitVec.ofNat 32 fl, status := sCLIPPED, reason := 0, fallback := false }, 0)

/-- Count a pass that fails its checks, and keep `LAST_FAIL`. -/
def countChecks (s : State) (n : Nat) (p : PassOut) : State :=
  let pg := pgAssay (quadOf n)
  let s1 := if p.range.isSome then bump s pg RANGE_FAILS 1 else s
  let s2 := if p.check.isSome then bump s1 pg CHK_FAILS 1 else s1
  if p.range.isSome then wr s2 pg LAST_FAIL (BitVec.ofNat 32 (n + 2 ^ 9))
  else if p.check.isSome then wr s2 pg LAST_FAIL (BitVec.ofNat 32 (n + 2 * 2 ^ 9)) else s2

/-- A pass fails R335 or R336. -/
def PassOut.fails (p : PassOut) : Bool := p.range.isSome || p.check.isSome

/-- The record of a failed pass (Table 18-4). -/
def checkEvent (n : Nat) (p : PassOut) (again : Bool) : Event :=
  ⟨n / 256, ⟨btStope, n⟩, if p.range.isSome then 1 else 2, .replay again, (p.range.orElse (fun _ => p.check)).getD 0, none⟩

/-- FP32 words from an address. -/
def readWords (s : State) (a n : Nat) : List W32 := (List.range n).map (fun i => BitVec.ofNat 32 (leNat (readMem s (a + 4 * i) 4)))

/-- The reads of a face tile's start: the scale records of SQ8-class weights (R44), and the operand it accumulates on (R67). One that port A
denies or that meets an error settles the tile. -/
def fetchFace (s : State) (n : Nat) (o : LongOp) : State :=
  let d := FaceDesc.parse o.desc
  let y := (d.y, 4 * d.rows * d.tokens)
  let rs := (if d.sq8 then [(d.wScl, d.sclLen d.geo)] else []) ++ (if d.acc then [y] else [])
  let o1 := { o with fetched := true }
  if anyDenied s n rs [] then putHead (countDenied s (tallyDenies s n rs)) n { o1 with run := some (runEnd 0 sDENIED 0) }
  else if rs.any (fun r => anyBad s r.1 r.2) then reportBad (putHead s n { o1 with run := some (runEnd 0 sPOISONED 0) }) rs
  else putHead s n { o1 with
    scales := if d.sq8 then readMem s d.wScl (d.sclLen d.geo) else []
    init := if d.acc then some (readWords s d.y (d.rows * d.tokens)) else none }

/-- The head of a stope's queue has made the reads of its start, where it is a face tile. -/
def faceFetched (s : State) (n : Nat) : State :=
  match (stope s n).queue with
  | o :: _ => if o.kind = .face ∧ o.started.isSome = true ∧ o.fetched = false then fetchFace s n o else s
  | [] => s

/-- The head tile of a stope with a pass still to end, and whether that is the W4A8 pass. -/
def passDue (s : State) (n : Nat) : Option (LongOp × Bool) :=
  match (stope s n).queue with
  | o :: _ =>
    if o.kind = .face then
      (match o.run with
       | none => some (o, false)
       | some r => if r.fallback then some (o, true) else none)
    else none
  | [] => none

/-- Cycles of a pass of a tile, of its W4A8 pass for `fb` (R70, R336). -/
def passTime (o : LongOp) (fb : Bool) : Nat := if fb then (FaceDesc.parse o.desc).fbCycles o.chk else o.cycles

/-- The time left suffices for one more pass (R339). -/
def replayFits (s : State) (n : Nat) (o : LongOp) (fb : Bool) : Bool :=
  decide (now s (n / 256) + runNs [(passTime o fb, o.mhz)] ≤ o.deadline)

/-- Report an error of stope `n` found in its tile `op`, whose outcome the replay has settled: the tile completes with that also where the
stope is taken out of service (R339, Table 18-1). -/
def reportBeside (s : State) (n op : Nat) (e : Event) : State :=
  let mine (p : LongOp) : Bool := decide (p.op = op)
  let q := (stope s n).queue
  let t := report (setStope s n { stope s n with queue := q.filter (fun p => !mine p) }) e
  setStope t n { stope t n with queue := q.filter mine ++ (stope t n).queue }

/-- What a pass of a tile reads: the scale records of SQ8-class weights have been read at the tile's start (R44). -/
def FaceDesc.passReads (d : FaceDesc) (fb : Bool) : List (Nat × Nat) :=
  let q := d.geo
  (d.reads q fb).filter (fun r => !(d.sq8 && decide (r = (d.wScl, d.sclLen q))))

/-- A pass of the head tile ends: denied ranges, bad words, the checks with their one replay, and the trigger. -/
def endPass (s : State) (n : Nat) (o : LongOp) (fb : Bool) (errs again : List SumErr) : State :=
  let d := FaceDesc.parse o.desc
  let rs := d.passReads fb
  let before := ((o.run.map (fun r => r.flags.toNat)).getD 0)
  let left := (rd s (pgOutlier n) FB_LEFT).toNat
  let put (t : State) (r : FaceRun) : State := putHead t n { o with run := some r }
  if rs.any (fun r => rangeDenied s n r.1 r.2 false) || rangeDenied s n d.y (4 * d.rows * d.tokens) true then
    put (countDenied s (tallyDenies s n (rs ++ [(d.y, 4 * d.rows * d.tokens)]))) (runEnd before sDENIED 0)
  else if rs.any (fun r => anyBad s r.1 r.2) then reportBad (put s (runEnd before sPOISONED 0)) rs
  else
    let p := facePass s n o d fb errs
    let settle (t : State) (x : LongOp) (p : PassOut) : State :=
      let r := settlePass d left fb before p
      putHead (wr t (pgOutlier n) FB_LEFT (BitVec.ofNat 32 (left - r.2))) n { x with run := some r.1 }
    if !p.fails then settle s o p
    else
      let s1 := countChecks s n p
      let failed (rs : Nat) : FaceRun := if p.poisoned then runEnd (before ||| p.flags) sPOISONED 0 else runEnd (before ||| p.flags) sFAILED rs
      if !replayFits s n o fb then reportBeside (put s1 (failed rDeadline)) n o.op (checkEvent n p false)
      else
        let p2 := facePass s n o d fb again
        let o2 := { o with stalls := o.stalls + passTime o fb }
        if p2.fails then
          reportBeside (putHead (countChecks s1 n p2) n { o2 with run := some (failed rDrained) }) n o.op (checkEvent n p true)
        else reportBeside (settle s1 o2 p2) n o.op (checkEvent n p false)

/-- FACE_PASS_COMPLETE: `errs` are group sums that a faulty face produced in the pass, `again` in its replay. -/
def execFacePassComplete (st : Fin 512) (errs replayErrs : List SumErr) (s : State) : Out :=
  let s1 := faceFetched s st
  .next (match passDue s1 st with
    | some (o, fb) => endPass s1 st o fb errs replayErrs
    | none => s1)

-- the tile's end (R67, R68, R85, R87, R88) -----------------------------------------------------------------------------------------------------

/-- The tile's canary has not returned. -/
def canaryOut (s : State) (op : Nat) : Bool :=
  s.canaries.any (fun c => decide (c.op = op) && (match c.phase with
    | .returned _ => false
    | _ => true))

/-- Cycles of a tile: its pass, and the W4A8 pass where it fell back (R70, R85, R336). -/
def tileCycles (o : LongOp) : Nat := o.cycles + (if o.bits / tFELL_BACK % 2 = 1 then passTime o true else 0)

/-- Outputs of a tile whose outcome is settled OK or CLIPPED, as pieces still to be written. -/
def outputPieces (o : LongOp) (r : FaceRun) : List (Nat × List Byte) :=
  o.outBuf.getD (toPieces [((FaceDesc.parse o.desc).y, r.outs.flatMap (fun w => toLE 4 w.toNat))])

/-- The outputs of a settled tile are written: all of them also where a word of them has turned out to hold an error (R139). -/
def writesOut (o : LongOp) (r : FaceRun) : Bool := decide (r.status = sOK) || decide (r.status = sCLIPPED) || o.outBuf.isSome

/-- The tile ends with what its passes gave. One that has passed its deadline fails; one whose cycles have not passed goes on. -/
def endTile (s : State) (n : Nat) (o : LongOp) (r : FaceRun) : State :=
  if o.deadline < now s (n / 256) then failLong s n rDeadline o
  else if writesOut o r then
    if !hasRun s n o (tileCycles o) then s
    else
      let w := finishTile s n o (outputPieces o r)
      w.2.foldl metError w.1
  else endLong (countFallBack s n o) n o (wordBits r.status r.reason (o.bits ||| bitIf o.retried tRETRIED))

/-- A pass that no FACE_PASS_COMPLETE ends, the only pass of 8-bit codes or the W4A8 pass, ends with its tile. -/
def lastPass (s : State) (n : Nat) : State :=
  match passDue s n with
  | some (o, fb) => if fb || !fmtAct4 (FaceDesc.parse o.desc).xFmt then endPass s n o fb [] [] else s
  | none => s

/-- FACE_TILE_COMPLETE. -/
def execFaceTileComplete (st : Fin 512) (s : State) : Out :=
  let s1 := lastPass (faceFetched s st) st
  .next (match (stope s1 st).queue with
    | o :: _ =>
      (match o.run with
       | some r => if r.fallback || canaryOut s1 o.op then s1 else endTile s1 st o r
       | none => s1)
    | [] => s)

/-- Write the pieces of a settled operation's outputs that lie in one word: the operation goes on with the rest. -/
def writeOutWord (s : State) (n : Nat) (o : LongOp) (r : FaceRun) (ps : List (Nat × List Byte)) (w : Nat) : State :=
  let here (p : Nat × List Byte) : Bool := decide (eccWord p.1 = w)
  let x := writePieces s (ps.filter here)
  let r1 := if x.2 = [] then r else { r with status := sPOISONED }
  let kept := (ps.filter here).map (fun p => (⟨p.1, readMem s p.1 p.2.length, p.2, isBad s p.1⟩ : OutWord))
  x.2.foldl metError (putHead x.1 n { o with
    outBuf := some (ps.filter (fun p => !here p)), run := some r1, wrote := if o.kind = .face then o.wrote ++ kept else o.wrote })

/-- The word at a bank's offset that a settled face tile, sweep or quantise operation of a stope writes now: its pieces there. -/
def outPieces (s : State) (n : Nat) : Option (LongOp × FaceRun × List (Nat × List Byte)) :=
  match (stope s n).queue with
  | o :: _ =>
    match o.run with
    | none => none
    | some r =>
      match o.kind with
      | .face =>
        if writesOut o r = false ∨ r.fallback = true ∨ canaryOut s o.op = true ∨ o.deadline < now s (n / 256) ∨
            hasRun s n o (tileCycles o - (FaceDesc.parse o.desc).writeOut) = false then none
        else some (o, r, outputPieces o r)
      | _ => o.outBuf.map (fun ps => (o, r, ps))
  | [] => none

-- canaries: copy and comparison (R338) ---------------------------------------------------------------------------------------------------------------

/-- Change the phase of a stope's canary. -/
def setCanary (s : State) (st : Fin 512) (p : CanaryPhase) : State :=
  { s with canaries := s.canaries.map (fun c => if c.st = st then { c with phase := p } else c) }

/-- The canary of a stope and its tile. -/
def findCanary (s : State) (st : Fin 512) : Option (Canary × LongOp) :=
  match s.canaries.find? (fun c => c.st = st) with
  | some c => ((stope s st).queue.find? (fun o => o.op = c.op)).map (fun o => (c, o))
  | none => none

/-- Offset of the canary area of stope `n`'s canary: the one in force as its tile was accepted (R340). -/
def areaOffset (s : State) (n : Nat) : Nat := match findCanary s (Fin.ofNat 512 n) with
  | some c => c.2.area
  | none => (assayOf s n).base.toNat

/-- First byte of the canary area of stope `n`'s pillar bank, as a global address. -/
def canaryArea (s : State) (n : Nat) : Nat := pillarAddr s n + areaOffset s n

/-- Where the copy of stope `n`'s tile starts. -/
def copyBase (s : State) (n : Nat) : Nat := copyAt s n (areaOffset s n)

/-- CANARY_COPY_DONE: the copy stands in the partner's area, once its last write has been made at the bank. -/
def execCanaryCopyDone (st : Fin 512) (s : State) : Out :=
  .next (match findCanary s st with
    | some (⟨_, _, .copying, 0⟩, _) => setCanary s st .running
    | _ => s)

/-- The partner's passes of a canary: its outputs, and the state with what the checks of R335 and R336 found there; `none` where its one replay
fails them too (R339). -/
def canaryPass (s : State) (st : Fin 512) (o : LongOp) (there : FaceDesc) (fb : Bool) (errs again : List SumErr) : State × Option (List W32) :=
  let p := facePass s st o there fb errs
  if !p.fails then (s, some p.outs)
  else
    let m := partner st
    let p2 := facePass s st o there fb again
    let s1 := countChecks s m p
    if p2.fails then (report (countChecks s1 m p2) (checkEvent m p true), none)
    else (report s1 (checkEvent m p false), some p2.outs)

/-- A mismatch resolved by Table 18-1: `replay` is the issuer's replay, `pAgain` the partner's. A replay that fails the checks of R335 or R336 has
reproduced the error (R339; log entry 142). -/
def resolveCanary (s : State) (st : Fin 512) (o : LongOp) (r : FaceRun) (canary : List W32) (replay pAgain : PassOut) : State :=
  let n := st.val
  let pg := pgAssay (quadOf n)
  let s1 := wr (bump s pg CANARY_FAILS 1) pg LAST_FAIL (BitVec.ofNat 32 (n + 3 * 2 ^ 9))
  let ev (unit other : Nat) (again : Bool) : Event := ⟨n / 256, ⟨btStope, unit⟩, 3, .replay again, other, none⟩
  let failed : FaceRun := runEnd r.flags.toNat sFAILED rDrained
  if replay.fails then reportBeside (putHead (countChecks s1 n replay) n { o with run := some failed }) n o.op (checkEvent n replay true)
  else if replay.outs = canary then
    reportBeside (putHead s1 n { o with run := some { r with outs := replay.outs } }) n o.op (ev n (partner n) false)
  else if replay.outs = r.outs then
    report (if pAgain.fails then countChecks s1 (partner n) pAgain else s1) (ev (partner n) n (pAgain.fails || decide (pAgain.outs ≠ r.outs)))
  else reportBeside (putHead s1 n { o with run := some failed }) n o.op (ev n (partner n) true)

/-- CANARY_RESULT_RETURN: the partner has run the copy. `errs` are sums that the partner's face got wrong in the canary, `replayErrs` the issuer's in its
replay, `partnerErrs` the partner's in its own replay. The outputs go to the issuer's area through port B, and the tile may end once they stand
there. -/
def execCanaryResultReturn (st : Fin 512) (errs replayErrs partnerErrs : List SumErr) (s : State) : Out :=
  .next (match findCanary s st with
    | some (⟨_, _, .running, _⟩, o) =>
      match o.run with
      | some r =>
        if r.fallback then s
        else if r.status ≠ sOK ∧ r.status ≠ sCLIPPED then setCanary s st (.returned [])
        else
          let fb := decide (r.flags.toNat / tFELL_BACK % 2 = 1)
          let there := FaceDesc.parse (readMem s (copyBase s st) 128)
          let oc := { o with scales := if there.sq8 then readMem s there.wScl (there.sclLen there.geo) else [] }
          match canaryPass s st oc there fb errs partnerErrs with
          | (s1, none) => setCanary s1 st (.returned [])
          | (s1, some canary) =>
            let s2 := bump (setCanary s1 st (.returning canary)) (pgAssay (quadOf st)) CANARY_RUNS 1
            let s3 := queueCanary { s2 with canaries := s2.canaries.map (fun c => if c.st = st then { c with left := 1 } else c) } st o.op none .write
              (canaryArea s st) (4 * canary.length) o.deadline (canary.flatMap (fun w => toLE 4 w.toNat))
            if canary = r.outs then s3
            else resolveCanary s3 st o r canary (facePass s st o (FaceDesc.parse o.desc) fb replayErrs) (facePass s st oc there fb partnerErrs)
      | none => s
    | _ => s)

-- the face's counters (R89) -----------------------------------------------------------------------------------------------------------------------------

/-- A write to `FACE.CNT_CLEAR` (Table 04-7): refused while the domain is off (R292) or where a reserved bit is 1 (R8). -/
def faceClear (s : State) (w : Agent) (n : Nat) (v : W32) : State :=
  let pg := pgOutlier n
  if isSafe s (n / 256) then s
  else if domain s (domHalf (halfOf n)) < 2 ∨ 2 ^ 9 ≤ v.toNat then refuseWrite s w pg F_CNT_CLEAR
  else
    let s1 := (bitList 8 v.toNat).foldl (fun t i => wr t pg (AMAX_SLOT0 + 4 * i) 0) s
    if fld v 8 8 = 1 then (List.range 6).foldl (fun t i => wr t pg (F_SAT_TOTAL + 4 * i) 0) s1 else s1

/-- AMAX_SLOT_CLEAR: a write to `CNT_CLEAR` with `SLOT` bits. -/
def execAmaxSlotClear (w : Agent) (st : Fin 512) (value : W32) (s : State) : Out := .next (faceClear s w st value)

/-- TOTALS_CLEAR: a write to `CNT_CLEAR` with `TOTALS`. -/
def execTotalsClear (w : Agent) (st : Fin 512) (value : W32) (s : State) : Out := .next (faceClear s w st value)

end Sys2Proof.Machine
end

