-- ==== Sys2Proof/Machine/SweepOps.lean ====
section
/-!
DEFINITION. UPD and QUANT from acceptance to their ends (R101, R104, R105, R126, R88, R89).
-/

namespace Sys2Proof.Machine

/-- No word to test, for a kind without canaries. -/
def noCanary (s : State) (_ : Nat) (_ : Job) (_ : Nat) : State × Bool := (s, false)

-- the update sweep (R101) ------------------------------------------------------------------------------------------------

/-- A FP32 value is finite, at least 0, and at most 1. -/
def fpUnit (x : Nat) : Bool :=
  !fpNotFinite fp32 x && !fpLtVal (fpDecode fp32 x) (fpDecode fp32 0) && !fpLtVal (fpDecode fp32 fpOne) (fpDecode fp32 x)

/-- The descriptor's fields keep R101, headers apart. `S_REC` and `S_DATA` are not examined where there is no serving output (log entry
110). -/
def SweepDesc.fieldsOk (d : SweepDesc) : Bool :=
  !d.bad && decide (d.count ≠ 0) && decide (d.rndM ≠ 3) && decide (d.rndV ≠ 3) && decide (d.rndS ≠ 3) && fpUnit d.beta1 && fpUnit d.beta2 &&
  [d.eta, d.eps, d.decay, d.gscale].all (fun x => !fpNotFinite fp32 x) && !fpLtVal (fpDecode fp32 d.eps) (fpDecode fp32 0) &&
  ([d.dw, d.mRec, d.mData, d.vRec, d.vData, d.whi, d.comp, d.scratch] ++ (if d.sHdr = 0 then [] else [d.sRec, d.sData])).all
    (fun a => decide (a % 64 = 0))

/-- Ranges that need no header. -/
def SweepDesc.fixed (d : SweepDesc) : List (Nat × Nat) :=
  [(d.dw, d.count * 65536), (d.whi, d.count * 32768), (d.comp, d.count * 16384), (d.scratch, 196608), (d.mHdr, 64), (d.vHdr, 64)] ++
  (if d.sHdr = 0 then [] else [(d.sHdr, 64)])

/-- The header rules of R96 and of the serving tensor (R101). -/
def sweepHeadersOk (d : SweepDesc) (m v sv : Header) : Bool :=
  let moment (h : Header) : Bool := fmtIsBook h.fmt && decide (h.sclass = 1) && bookValid h.fmt h.book
  moment m && moment v && (v.book.take (2 ^ fmtBits v.fmt)).all (fun e => decide (0 ≤ e)) &&
  (decide (d.sHdr = 0) || (decide (sv.sclass = 1) && fmtIsWeight sv.fmt))

/-- Ranges whose size a header gives. -/
def SweepDesc.sized (d : SweepDesc) (m v sv : Header) : List (Nat × Nat) :=
  let part (r a : Nat) (h : Header) : List (Nat × Nat) :=
    [(r, d.count * scaleRecordSize h.group), (a, d.count * tileBytes h.fmt)]
  part d.mRec d.mData m ++ part d.vRec d.vData v ++ (if d.sHdr = 0 then [] else part d.sRec d.sData sv)

/-- The ranges whose size a header gives, as far as no header is needed: their first bytes (R101). -/
def SweepDesc.starts (d : SweepDesc) : List (Nat × Nat) :=
  ([d.mRec, d.mData, d.vRec, d.vData] ++ (if d.sHdr = 0 then [] else [d.sRec, d.sData])).map (fun a => (a, 1))

/-- The headers whose formats are valid give ranges inside the own pillar bank: those of an invalid header are not known. -/
def sizedInside (s : State) (n : Nat) (d : SweepDesc) (hs : List (List Byte)) : Bool :=
  let part (r a i : Nat) : Bool :=
    let bs := hs.getD i []
    let h := parseHeader bs
    !headerValid bs || (inPillar s n r (d.count * scaleRecordSize h.group) && inPillar s n a (d.count * tileBytes h.fmt))
  part d.mRec d.mData 0 && part d.vRec d.vData 1 && (decide (d.sHdr = 0) || part d.sRec d.sData 2)

/-- Cycles of a sweep (R105). -/
def SweepDesc.cycles (d : SweepDesc) : Nat := d.count * sweepTileCycles d

/-- Judge an update-sweep descriptor: its fields first, alone (log entry 111), then its headers, of which one can be invalid under R43 and
malformed under R96 at once. -/
def judgeUpd (s : State) (n a : Nat) : State × Sum W32 Job :=
  let no (st bits : Nat) : State × Sum W32 Job := (s, .inl (wordBits st 0 bits))
  if (ownBank s n a 160).isNone then no sDENIED 0
  else if !inPillar s n a 160 then no sPOISONED uBAD_DESC
  else match readRefused s n a 160 with
  | some r => r
  | none =>
    let desc := readMem s a 160
    let d := SweepDesc.parse desc
    if !d.fieldsOk || !(d.fixed ++ d.starts).all (fun r => inPillar s n r.1 r.2) then no sPOISONED uBAD_DESC
    else match readsRefused s n (d.hdrs.map (fun h => (h, 64))) with
      | some r => r
      | none =>
        let bytes := d.hdrs.flatMap (fun h => readMem s h 64)
        let h (i : Nat) : Header := parseHeader (sliceB bytes (64 * i) 64)
        let invalid := d.hdrs.any (fun h => !headerValid (readMem s h 64))
        let malformed := !sweepHeadersOk d (h 0) (h 1) (h 2) || !sizedInside s n d (d.hdrs.map (fun h => readMem s h 64))
        if invalid || malformed then no sPOISONED (bitIf malformed uBAD_DESC ||| bitIf invalid uBAD_HEADER)
        else
          let ws := d.sized (h 0) (h 1) (h 2)
          (s, .inr { desc := desc, hdrW := bytes, hdrX := [], cycles := d.cycles, chk := 0, area := 0
                     reads := spansOf ((a, 160) :: d.fixed)
                     writes := spansOf (ws ++ [(d.whi, d.count * 32768), (d.comp, d.count * 16384), (d.scratch, 196608)] ++
                       d.hdrs.map (fun h => (h, 64))) })

/-- UPD (0x21): issue an update sweep with the descriptor at aA. -/
def execUpd (st : Fin 512) (d a b : Byte) (imm : W32) (s : State) : Out :=
  .next (longIns s st 0x21 d a b imm .upd judgeUpd noCanary)

/-- An SQ8 byte of a scale record is invalid (R39). -/
def badScales (h : Header) (rec_ : List Byte) : Bool := (List.range (16384 / groupSize h.group)).any (fun g => !sq8Valid (leAt rec_ (8 + g) 1))

/-- The moments' records of tile `k` hold an invalid SQ8 byte. -/
def sweepBadScale (s : State) (o : LongOp) (d : SweepDesc) (k : Nat) : Bool :=
  (List.zip [sweepHdr o 0, sweepHdr o 1] (sweepRecords o d k)).any (fun p => badScales p.1 (readMem s p.2.1 p.2.2))

/-- Settle a sweep with a status and condition bits beside those gathered: it goes no further. -/
def settleSweep (s : State) (n : Nat) (o : LongOp) (st bits : Nat) : State :=
  putHead s n { o with fetched := true, run := some (runEnd (o.bits ||| bits) st 0) }

/-- Tile `k` of a sweep starts: its scale records are fetched (R44), and pass 1 begins to use the working area. A record in any tile with an
invalid SQ8 byte as the sweep starts, or in a later tile as that one starts, is an invalid header (R39, R43). -/
def startTile (s : State) (n : Nat) (o : LongOp) : State :=
  let d := SweepDesc.parse o.desc
  let k := o.tiles
  let rs := sweepRecords o d k
  let ks := if k = 0 then List.range d.count else [k]
  if anyDenied s n rs [] then settleSweep (countDenied s (tallyDenies s n rs)) n o sDENIED 0
  else if rs.any (fun r => anyBad s r.1 r.2) then reportBad (settleSweep s n o sPOISONED 0) rs
  else if ks.any (sweepBadScale s o d) then settleSweep s n o sPOISONED uBAD_HEADER
  else putHead (spoilScratch s d) n { o with fetched := true, scales := rs.flatMap (fun r => readMem s r.1 r.2) }

/-- The passes of a sweep's tile end: its outputs are settled, and write-back begins. -/
def endPasses (s : State) (n : Nat) (o : LongOp) : State :=
  let d := SweepDesc.parse o.desc
  let k := o.tiles
  let reads := sweepReads o d k
  let writes := sweepWrites o d k ++ d.hdrs.map (fun h => (h, 64))
  if anyDenied s n reads writes then settleSweep (countDenied s (tallyDenies s n (reads ++ writes))) n o sDENIED 0
  else if reads.any (fun r => anyBad s r.1 r.2) then reportBad (settleSweep s n o sPOISONED 0) reads
  else
    let r := sweepTile s o d k
    let s1 := bump (bump s (pgOutlier n) F_SAT_TOTAL r.sats) (pgOutlier n) F_NAN_TOTAL r.nans
    putHead s1 n { o with run := some (runEnd (o.bits ||| r.flags) sOK 0), outBuf := some (toPieces r.runs) }

/-- The write-back of a sweep's tile ends: it counts as written, unless a word of it held an error. -/
def endTileWrites (s : State) (n : Nat) (o : LongOp) (ps : List (Nat × List Byte)) : State :=
  let d := SweepDesc.parse o.desc
  let w := writePieces (spoilScratch s d) (ps ++ d.modes s)
  w.2.foldl metError (if w.2 = [] ∧ o.status = sOK then putHead w.1 n { o with tiles := o.tiles + 1, outBuf := none, fetched := false }
    else putHead w.1 n { o with outBuf := none, run := some (runEnd o.bits sPOISONED 0) })

/-- A sweep at the head of a stope's queue goes on as far as time allows (R102, R103, R105), in at most `fuel` parts. -/
def sweepOn : Nat → State → Nat → State
  | 0, s, _ => s
  | fuel + 1, s, n =>
    match (stope s n).queue with
    | o :: _ =>
      let d := SweepDesc.parse o.desc
      let t := sweepTileCycles d
      if o.kind ≠ .upd ∨ (o.status ≠ sOK ∧ o.outBuf = none) ∨ d.count ≤ o.tiles ∨ o.deadline < now s (n / 256) then s
      else match o.outBuf with
        | some ps => if hasRun s n o ((o.tiles + 1) * t) then sweepOn fuel (endTileWrites s n o ps) n else s
        | none =>
          if !o.fetched then (if hasRun s n o (o.tiles * t) then sweepOn fuel (startTile s n o) n else s)
          else if hasRun s n o ((o.tiles + 1) * t - 64) then sweepOn fuel (endPasses s n o) n else s
    | [] => s

/-- Parts that a sweep of `n` tiles has at most. -/
def sweepParts (n : Nat) : Nat := 3 * n + 1

/-- The sweep at the head of a stope's queue ends: with the DENIED or POISONED that stopped it, or once its last tile is written; past its deadline
it fails (R2). -/
def endSweep (s : State) (n : Nat) (o : LongOp) : State :=
  let d := SweepDesc.parse o.desc
  let re := bitIf o.retried uRETRIED
  let s1 := wr s (pgStope n) UPD_DONE (BitVec.ofNat 32 o.tiles)
  if o.deadline < now s (n / 256) then failLong s n rDeadline o
  else if (o.status ≠ sOK ∧ o.outBuf = none) ∨ d.count ≤ o.tiles then endLong s1 n o (wordBits o.status 0 (o.bits ||| re))
  else s

/-- The operation at the head of a stope's queue, of a kind. -/
def headOf (s : State) (n : Nat) (k : LongKind) : Option LongOp := ((stope s n).queue.head?).filter (fun o => decide (o.kind = k))

/-- UPD_COMPLETE. -/
def execUpdComplete (st : Fin 512) (s : State) : Out :=
  let s1 := match headOf s st .upd with
    | some o => sweepOn (sweepParts (SweepDesc.parse o.desc).count) s st
    | none => s
  .next (match headOf s1 st .upd with
    | some o => endSweep s1 st o
    | none => s1)

-- the quantise operation (R126) -----------------------------------------------------------------------------------------------

/-- Step 2: the fields, before any header. -/
def QuantDesc.fieldsOk (d : QuantDesc) (raw : List Byte) : Bool :=
  !d.bad && decide (1 ≤ d.lines) && decide (1 ≤ d.len) && decide (d.rnd ≠ 3) && decide ((if d.src32 then 4 else 2) ≤ d.srcE) &&
  (if d.hdr = 0 then
     decide (d.group ≤ 2) && fmtAllowsClass d.fmt 0 && !d.sq8 && !fmtIsBook d.fmt && !fmtHasZp d.fmt && decide (d.zp = 0) &&
     rotNugValid d.fmt d.rotSize d.rotId d.rotSeed d.thresh (decide (d.nug ≠ 0)) &&
     decide (d.len % groupSize d.group = 0) && (decide (d.rotSize = 0) || decide (d.len % rotOrder d.rotSize = 0))
   else
     decide (d.fmt = 0) && decide (d.group = 0) && !d.sq8 && decide (d.zp = 0) && decide (d.tensorId = 0) && decide (d.rotSize = 0) &&
     decide (d.rotId = 0) && decide (d.rotSeed = 0) && decide (d.thresh = 0)) && decide (raw.length = 128)

/-- Step 5: what the header brings agrees with the descriptor. -/
def QuantDesc.agrees (d : QuantDesc) (h : Header) : Bool :=
  (fmtIsWeight d.fmt || fmtIsAct d.fmt) && !(d.static && d.sq8) && (h.nug == decide (d.nug ≠ 0)) &&
  decide (d.len % groupSize d.group = 0) && (decide (d.rotSize = 0) || decide (d.len % rotOrder d.rotSize = 0)) &&
  (!d.sq8 || (decide (d.base % tileElems = 0) && decide (d.lines * d.len % tileElems = 0)))

/-- The ranges of an operation whose header gives a reserved `GROUP`: its source and codes, and the first bytes of those that groups size. -/
def QuantDesc.bare (d : QuantDesc) : List (Nat × Nat) :=
  [(d.src, (d.lines - 1) * d.srcL + d.srcBytes), (d.dst, (d.lines - 1) * d.dstL + ceilDiv (d.len * fmtBits d.fmt) 8), (d.scl, 1)] ++
  (if d.nug = 0 then [] else [(d.nug, 1)])

/-- Cycles of a QUANT (R126). -/
def QuantDesc.cycles (d : QuantDesc) : Nat :=
  64 + ceilDiv (d.len * d.lines * (48 + rotCycles d.rotSize + (if d.srcE = 2 ∨ d.srcE = 4 then 0 else 16))) 1024

/-- Judge a quantise descriptor, in the order of R126. -/
def judgeQuant (s : State) (n a : Nat) : State × Sum W32 Job :=
  let no (st bits : Nat) : State × Sum W32 Job := (s, .inl (wordBits st 0 bits))
  if (ownBank s n a 128).isNone then no sDENIED 0
  else if !inPillar s n a 128 then no sPOISONED tBAD_SHAPE
  else match readRefused s n a 128 with
  | some r => r
  | none =>
    let desc := readMem s a 128
    let d0 := QuantDesc.parse desc
    if !d0.fieldsOk desc then no sPOISONED tBAD_SHAPE
    else if d0.hdr ≠ 0 ∧ ownRanges s n [(d0.hdr, 64)] = false then no sDENIED 0
    else
      let hb := hdrBytes s d0.hdr
      let h := parseHeader hb
      let d := if d0.hdr = 0 then d0 else d0.withHeader h
      if ownRanges s n (if h.group ≤ 2 then d.reads ++ d.writes else d.bare) = false then no sDENIED 0
      else match (if d0.hdr = 0 then none else readRefused s n d0.hdr 64) with
      | some r => r
      | none =>
      if d0.hdr ≠ 0 ∧ headerValid hb = false then no sPOISONED tBAD_HEADER
      else if d0.hdr ≠ 0 ∧ d.agrees h = false then no sPOISONED tBAD_SHAPE
      else
        (s, .inr { desc := desc, hdrW := hb, hdrX := [], cycles := d.cycles, chk := 0, area := 0
                   reads := spansOf ((a, 128) :: d.reads), writes := spansOf d.writes })

/-- QUANT (0x22): issue a quantise operation with the descriptor at aA. -/
def execQuant (st : Fin 512) (d a b : Byte) (imm : W32) (s : State) : Out :=
  .next (longIns s st 0x22 d a b imm .quant judgeQuant noCanary)

/-- The counters of a quantise operation (Table 04-5, R89). -/
def countQuant (s : State) (n : Nat) (d : QuantDesc) (q : QuantOut) : State :=
  let pg := pgOutlier n
  let s1 := wr (wr s pg AMAX_TILE (BitVec.ofNat 32 q.amax)) pg SAT_TILE (BitVec.ofNat 32 q.sats)
  let s2 := bump (bump (bump (bump s1 pg F_SAT_TOTAL q.sats) pg NUG_TOTAL q.taken) pg OVER_TOTAL q.overs) pg F_NAN_TOTAL q.nans
  let slot := AMAX_SLOT0 + 4 * d.slot
  if d.slotEn then wr s2 pg slot (BitVec.ofNat 32 (Nat.max (rd s2 pg slot).toNat q.amax)) else s2

/-- The runs of bytes that a quantise operation writes: codes, scales, nugget records, and the mode it used in the header (R47, R126). -/
def quantRuns (s : State) (d : QuantDesc) (q : QuantOut) : List (Nat × List Byte) :=
  q.codes.mapIdx (fun i bs => (d.dst + i * d.dstL, bs)) ++ (if d.static then [] else [(d.scl, q.scales)]) ++
  (if d.nug = 0 then [] else [(d.nug, q.nugs)]) ++ (if d.hdr = 0 then [] else headerRuns s d.hdr d.rnd)

/-- A quantise operation's descriptor, with its header's fields as read at acceptance. -/
def LongOp.quantDesc (o : LongOp) : QuantDesc :=
  let d := QuantDesc.parse o.desc
  if d.hdr = 0 then d else d.withHeader (parseHeader o.hdrW)

/-- A quantise operation settles: denied, poisoned by a word it reads, or with its outputs ready to be written and its counters kept. -/
def settleQuant (s : State) (n : Nat) (o : LongOp) : State :=
  let d := o.quantDesc
  let reads := d.elemRuns ++ d.reads.drop 1
  if anyDenied s n reads d.writes then
    putHead (countDenied s (tallyDenies s n (d.reads ++ d.writes))) n { o with run := some (runEnd 0 sDENIED 0) }
  else if reads.any (fun r => anyBad s r.1 r.2) then reportBad (putHead s n { o with run := some (runEnd 0 sPOISONED 0) }) reads
  else
    let q := d.run s (parseHeader o.hdrW) o.seed.toNat o.step.toNat
    let bits := bitIf (decide (0 < q.nans)) tNAN_IN ||| bitIf (decide (0 < q.sats)) tSAT ||| bitIf q.range tFP_RANGE
    putHead (countQuant s n d q) n { o with run := some (runEnd bits sOK 0), outBuf := some (toPieces (quantRuns s d q)) }

/-- The quantise operation at the head of a stope's queue ends: what is left of its outputs is written. A merged word that holds an error
makes it POISONED. -/
def finishQuant (s : State) (n : Nat) (o : LongOp) : State :=
  let w := writePieces s (o.outBuf.getD [])
  w.2.foldl metError (endLong w.1 n o (wordBits (if w.2 = [] then o.status else sPOISONED) 0 o.bits))

/-- A quantise operation at the head of a stope's queue settles once its cycles have passed (R126). -/
def quantOn (s : State) (n : Nat) : State :=
  match headOf s n .quant with
  | some o => if o.run.isNone ∧ o.deadline ≥ now s (n / 256) ∧ hasRun s n o o.cycles = true then settleQuant s n o else s
  | none => s

/-- Time goes by for the operation at the head of a stope's queue: a face tile makes the reads of its start, a sweep goes on, a quantise
operation settles. -/
def longTick (s : State) (n : Nat) : State := quantOn (sweepOn 3 (faceFetched s n) n) n

/-- Time goes by for every stope's operations. -/
def longTicks (s : State) : State := (s.stopes.map (fun p => p.1)).foldl longTick s

/-- The quantise operation at the head of a stope's queue ends once it is settled, or fails past its deadline. -/
def endQuant (s : State) (n : Nat) (o : LongOp) : State :=
  if o.deadline < now s (n / 256) then failLong s n rDeadline o
  else if o.run.isSome then finishQuant s n o else s

/-- QUANT_COMPLETE. -/
def execQuantComplete (st : Fin 512) (s : State) : Out :=
  let s1 := quantOn s st
  .next (match headOf s1 st .quant with
    | some o => endQuant s1 st o
    | none => s1)

end Sys2Proof.Machine
end

