-- ==== Sys2Proof/Machine/Waits.lean ====
section
/-!
DEFINITION. Waits and the fence (R128, R129).
-/

namespace Sys2Proof.Machine

/-- WAIT (0x60): the completion word of a taken ticket goes to sD; a ticket that is not taken faults (R120). -/
def execWait (st : Fin 512) (d a b : Byte) (imm : W32) (s : State) : Out :=
  .next (issue s st 0x60 d a b imm (fun s =>
    let x := stope s st
    let tk := (x.sreg a.toNat).toNat
    if x.tickets.any (fun t => t.num == tk) then
      setStope s st ({ x.advance with wait := some (.ticket d.toNat tk) }).wake
    else progFault s st cTICKET))

/-- The test of WAITF and of a hoist's WAIT: 0 unsigned ≥, 1 =, 2 ≠. -/
def flagTest (t : Nat) (x v : Nat) : Bool :=
  match t with
  | 0 => decide (v ≤ x)
  | 1 => decide (x = v)
  | _ => decide (x ≠ v)

/-- End a WAITF with a status. -/
def endWaitf (s : State) (n d st reason : Nat) : State :=
  let x := stope s n
  setStope s n { x.setS d (compWord (statusWord st reason) 0) with wait := none }

/-- One poll of the flag (R128): `none` where it has to go on waiting. -/
def pollFlag (s : State) (n d addr : Nat) (val : W64) (t : Nat) : Option State :=
  match pollGate s n addr 8 with
  | .stall => none
  | .denied c => some (endWaitf (countDenied s c) n d sDENIED 0)
  | .pass bk =>
    match load s addr 8 with
    | none => some (metIn (endWaitf (served s n bk) n d sPOISONED 0) addr 8)
    | some bs => if flagTest t (leNat bs) val.toNat then some (endWaitf (served s n bk) n d sOK 0) else none

/-- WAITF (0x61): the flag at aA against sB under SUB; timeout sC ns; status word to sD. sC = 0 tests once. A flag that is not
aligned faults `MISALIGN` before the right to it is judged (log entry 152). -/
def execWaitf (st : Fin 512) (d a b : Byte) (imm : W32) (s : State) : Out :=
  .next (issue s st 0x61 d a b imm (fun s =>
    let x := stope s st
    let addr := (areg s st a.toNat).toNat
    let val := x.sreg b.toNat
    let c := (x.sreg (immC imm)).toNat
    if addr % 8 ≠ 0 then progFault s st cMISALIGN
    else if pollGate s st addr 8 = .stall then s
    else
      let s1 := setStope s st x.advance
      match pollFlag s1 st d.toNat addr val (immSub imm) with
      | some s2 => s2
      | none =>
        if c = 0 then endWaitf s1 st d.toNat sFAILED rDeadline
        else setStope s1 st { stope s1 st with wait := some (.flag d.toNat addr val (immSub imm) (now s (dieOf st) + c)) }))

/-- WAITF_POLL: a write to the flag word, or the 64-cycle timer, makes a waiting WAITF test again. -/
def execWaitfPoll (st : Fin 512) (s : State) : Out :=
  .next (match (stope s st).wait with
    | some (.flag d addr val t _) => (pollFlag s st d addr val t).getD s
    | _ => s)

/-- WAITF_TIMEOUT: sC ns after issue the wait ends FAILED with reason deadline. -/
def execWaitfTimeout (st : Fin 512) (s : State) : Out :=
  .next (match (stope s st).wait with
    | some (.flag d _ _ _ due) => if due ≤ now s (dieOf st) then endWaitf s st d sFAILED rDeadline else s
    | _ => s)

/-- WAITT (0x62): until global time ≥ sA. -/
def execWaitt (st : Fin 512) (d a b : Byte) (imm : W32) (s : State) : Out :=
  .next (issue s st 0x62 d a b imm (fun s =>
    let x := stope s st
    let t := (x.sreg a.toNat).toNat
    if t ≤ now s (dieOf st) then setStope s st x.advance
    else setStope s st { x.advance with wait := some (.until t) }))

/-- WAITT_EXPIRY: global time has reached the value. -/
def execWaittExpiry (st : Fin 512) (s : State) : Out :=
  .next (match (stope s st).wait with
    | some (.until t) => if t ≤ now s (dieOf st) then setStope s st { stope s st with wait := none } else s
    | _ => s)

/-- WAITALL (0x63): until no operation of the program is outstanding. -/
def execWaitall (st : Fin 512) (d a b : Byte) (imm : W32) (s : State) : Out :=
  .next (issue s st 0x63 d a b imm (fun s =>
    setStope s st ({ (stope s st).advance with wait := some .all }).wake))

/-- FENCE (0x55): later remote instructions stall until every earlier remote operation has completed (R129). -/
def execFence (st : Fin 512) (d a b : Byte) (imm : W32) (s : State) : Out :=
  .next (issue s st 0x55 d a b imm (fun s =>
    let x := stope s st
    setStope s st { x.advance with fence := (x.out.filter (fun o => o.remote)).map (fun o => o.op) }))

end Sys2Proof.Machine
end

