-- ==== Sys2Proof/Machine/Banks.lean ====
section
/-!
DEFINITION. Port B of the banks: the arbiter, what two ports do to one word in one cycle, sub-array conflicts, and the
atomic unit (R139 to R145, R148, R153 to R155, R225, R263).
-/

namespace Sys2Proof.Machine

-- port A in the cycle -------------------------------------------------------------------------------------------------

/-- A port-A access in the cycle: its stope, bytes of the bank (low 50 bits) and whether it writes. -/
structure PortAUse where
  addr : Nat
  len : Nat
  write : Bool
deriving DecidableEq, Repr

/-- The load or store at a stope's pc uses bank `b` now. -/
def portAWord (s : State) (b : Nat) (st : Fin 512) (word : W64) : Option PortAUse :=
  let op := fld word 63 56
  let vec := decide (op = 0x3D) || decide (op = 0x3E)
  let write := decide (op = 0x12) || decide (op = 0x3E)
  let ad := memAddr s st (BitVec.ofNat 8 (fld word 47 40)) (BitVec.ofNat 32 (fld word 31 0))
  if issueWord (stope s st) = some word ∧ (op = 0x11 ∨ op = 0x12 ∨ op = 0x3D ∨ op = 0x3E) ∧ wordIllegal word = false ∧
      ad % accAlign vec = 0 ∧ portAGate s st ad (accLen vec) write = .pass b then
    if vec = true ∧ 512 ≤ b then some ⟨low50 ad + 64 * ((stope s st).part.getD ⟨0, [], false, false⟩).words, 64, write⟩ else some ⟨low50 ad, accLen vec, write⟩
  else none

/-- The running operation of a stope, where it is of this kind. -/
def runs (s : State) (st : Fin 512) (k : LongKind) : Option LongOp := ((stope s st).queue.head?).filter (fun o => decide (o.kind = k) && o.started.isSome)

/-- The word of `n` bytes at an offset of bank `b`. -/
def bankWord (b o n : Nat) : Nat := bankBase b + o / n * n

/-- Bank `b` is one of stope `n`'s own. -/
def isOwn (b n : Nat) : Bool := decide (n = b) || decide (512 + levelOf n = b)

/-- The weight word of a face tile that holds the byte at `a` (R60, R63). -/
def weightWord (d : FaceDesc) (a : Nat) : Option PortAUse :=
  let q := d.geo
  let i := (a - low50 d.wData) / q.step
  if low50 d.wData ≤ a ∧ i < d.blocks * d.sets q * q.words ∧ (a - low50 d.wData) % q.step < q.word then some ⟨low50 d.wData + i * q.step, q.word, false⟩
  else none

/-- The bytes that a port-A access of the cycle asks for in bank `b`; `none` where the stope asks for none. -/
def portAAsks (s : State) (b : Nat) (pa : PortA) : Option PortAUse :=
  match pa with
  | .access st word => portAWord s b st word
  | .faceRead st o =>
    match runs s st .face with
    | some p => if st.val = b ∧ o < bankSize b then weightWord (FaceDesc.parse p.desc) (bankBase b + o) else none
    | none => none
  | .operandRead st o =>
    match (stope s st).queue with
    | p :: _ =>
      if isOwn b st = true ∧ o < bankSize b ∧
          (stope s st).out.any (fun x => decide (x.op = p.op) && touches x.reads (bankWord b o 64) 64) = true then
        some ⟨bankWord b o 64, 64, false⟩
      else none
    | [] => none
  | .sweepRead st o => if st.val = b ∧ (runs s st .upd).isSome = true ∧ o < bankSize b then some ⟨bankWord b o 64, 64, false⟩ else none
  | .quantRead st o => if isOwn b st = true ∧ (runs s st .quant).isSome = true ∧ o < bankSize b then some ⟨bankWord b o 64, 64, false⟩ else none
  | .outWrite st o =>
    match outPieces s st with
    | some (_, _, ps) => ((ps.find? (fun p => decide (eccWord p.1 = bankWord b o 64))).map (fun p => ⟨low50 p.1, p.2.length, true⟩))
    | none => none
  | .poll st =>
    match (stope s st).wait with
    | some (.flag _ a _ _ _) => if pollGate s st a 8 = .pass b then some ⟨low50 a, 8, false⟩ else none
    | _ => none

/-- The stope that makes a port-A access. -/
def portAStope (pa : PortA) : Fin 512 :=
  match pa with
  | .access st _ | .faceRead st _ | .operandRead st _ | .sweepRead st _ | .quantRead st _ | .outWrite st _ | .poll st => st

/-- The bytes a port-A access of the cycle uses in bank `b`: the tally allows it there (R148). -/
def portAUse (s : State) (b : Nat) (pa : PortA) : Option PortAUse :=
  if tallyAllows s (portAStope pa) b then portAAsks s b pa else none

/-- A read of an operand has met a port-B write and is made again: one of a face tile's start before its first pass has ended, so its fetch is
made again (R44), and any other a cycle later. -/
def reRead (s : State) (b : Nat) (st : Fin 512) (o : Nat) : State :=
  let x := stope s st
  match x.queue with
  | p :: rest =>
    let d := FaceDesc.parse p.desc
    let w := bankWord b o 64
    let start := (d.sq8 && overlaps w 64 (low50 d.wScl) (d.sclLen d.geo)) || (d.acc && overlaps w 64 (low50 d.y) (4 * d.rows * d.tokens))
    let again := decide (p.kind = .face) && p.run.isNone && start
    setStope s st { x with queue := { p with stalls := p.stalls + 1, fetched := p.fetched && !again } :: rest }
  | [] => s

/-- The running operation of a stope has re-read a word: it stalls one cycle (R63, R103). -/
def markRetried (s : State) (st : Fin 512) : State :=
  let x := stope s st
  match x.queue with
  | o :: rest => setStope s st { x with queue := { o with reReads := o.reReads + 1 } :: rest }
  | [] => s

/-- A port-A access stalls one cycle: the running operation that makes it ends that much later (R144). -/
def stallPortA (s : State) (pa : PortA) : State :=
  let stall (st : Fin 512) : State :=
    let x := stope s st
    setStope s st { x with queue := x.queue.mapIdx (fun i o => if i = 0 then { o with stalls := o.stalls + 1 } else o) }
  match pa with
  | .access _ _ | .poll _ => s
  | .faceRead st _ | .operandRead st _ | .sweepRead st _ | .quantRead st _ | .outWrite st _ => stall st

/-- What the agent at port A of bank `b` does in the cycle; `busy`: its access got the bank-busy indication or the collision mark (Table
07-4). -/
def portAAct (s0 : State) (b : Nat) (pa : PortA) (busy : Bool) : State :=
  let s := served s0 (portAStope pa) b
  match pa with
  | .access st word => localAtPc s b st word busy
  | .faceRead st _ | .sweepRead st _ | .quantRead st _ => if busy then markRetried s st else s
  | .operandRead st o => if busy then reRead s b st o else s
  | .outWrite st o =>
    match outPieces s st with
    | some (p, r, ps) => writeOutWord s st p r ps (bankWord b o 64)
    | none => s
  | .poll st =>
    if busy then s
    else match (stope s st).wait with
      | some (.flag d addr val t _) => (pollFlag s st d addr val t).getD s
      | _ => s

/-- Turns that a column waits at a gallery bank: the first after the column served last has none (R137). -/
def turnsLeft (last col : Nat) : Nat := (col + 31 - last) % 16

/-- The access that port A of bank `b` serves among those that wait for it in the cycle, with its bytes: at a gallery bank the next column's. -/
def portAServes (s : State) (b : Nat) (pas : List PortA) : Option (PortA × PortAUse) :=
  let uses := pas.filterMap (fun pa => (portAUse s b pa).map (fun u => (pa, u)))
  let left (p : PortA × PortAUse) : Nat := turnsLeft (bank s b).lastCol ((portAStope p.1).val % 16)
  uses.foldl (fun best p => match best with
    | none => some p
    | some q => if 512 ≤ b ∧ left p < left q then some p else some q) none

/-- A face weight read and a sweep read are made again beside a port-B write in every bank mode (R63, R103). -/
def reReadsAlways (pa : PortA) : Bool :=
  match pa with
  | .faceRead _ _ | .sweepRead _ _ => true
  | _ => false

-- the word of a port-B access ------------------------------------------------------------------------------------------------

/-- Bytes of an access in its next word. -/
def wordLen (x : Access) : Nat := Nat.min (64 - (x.addr + x.done) % 64) (x.len - x.done)

/-- The `n` bytes at `w` that port B presents meet a port-A access: some byte lies in both (R141). -/
def meets (w n : Nat) (u : PortAUse) : Bool := overlaps w n u.addr u.len

/-- Sub-array of an address in its bank (Table 07-1). -/
def subArray (a : Nat) : Nat := if bankOf a < 512 then bitsOf (aOff a) 17 12 else bitsOf (aOff a) 11 6

/-- A port-A access uses the sub-array of address `w`: a pillar access lies in one line, a gallery access in one word of 64. -/
def sameSub (w : Nat) (u : PortAUse) : Bool :=
  (List.range (ceilDiv (u.addr % 64 + u.len) 64)).any (fun i => subArray (u.addr / 64 * 64 + 64 * i) == subArray w)

/-- The bank is in normal mode. -/
def normalMode (s : State) (b : Nat) : Bool := decide (fld (rd s (pgBank b) MODE) 1 0 = 0)

/-- How the two ports share the cycle. -/
inductive Share where
  | alone
  /-- port A is performed and port B stalls (R144) -/
  | stallB
  /-- port B, past its deadline and begun, is performed and port A stalls -/
  | stallA
  /-- both are performed, on different sub-arrays; two accesses to disjoint bytes of one word conflict like those to two words of its sub-array
  (log entry 112) -/
  | apart
  | meet
deriving DecidableEq, Repr

def shareOf (s : State) (x : Access) (u : Option PortAUse) : Share :=
  match u with
  | none => .alone
  | some u =>
    let w := x.addr + x.done
    if meets w (wordLen x) u then .meet
    else if sameSub w u then (if x.done ≠ 0 ∧ x.deadline ≤ now s (aDie x.addr) then .stallA else .stallB)
    else .apart

/-- The operation of an access has begun at its home. -/
def markBegun (s : State) (x : Access) : State :=
  match x.client with
  | .home d id _ =>
    setLayer s d { layer s d with homes := (layer s d).homes.map (fun h => if h.id = id then { h with begun := true } else h) }
  | _ => s

/-- The operation of an access has begun. -/
def hasBegun (s : State) (x : Access) : Bool :=
  decide (x.done ≠ 0) || homeBegun s x

/-- Remove an access from its bank's queue. -/
def leaveBank (s : State) (b : Nat) (x : Access) : State :=
  setBank s b { bank s b with queue := (bank s b).queue.filter (fun y => y.id ≠ x.id) }

/-- Replace an access in its bank's queue. -/
def keepBank (s : State) (b : Nat) (x : Access) : State :=
  setBank s b { bank s b with queue := (bank s b).queue.map (fun y => if y.id = x.id then x else y) }

/-- An access whose last word has been performed leaves, and its client goes on. -/
def afterWordB (s : State) (b : Nat) (x : Access) : State :=
  if x.len ≤ x.done then accessDone (leaveBank s b x) x ⟨x.got, x.coll, x.poison, x.denied, 0, false⟩ else keepBank s b x

/-- A denied access ends with no effect. -/
def denyAccess (s : State) (b : Nat) (x : Access) (count : Bool) : State :=
  let s1 := if count then bump s (pgBank b) B_DENIED 1 else s
  accessDone (leaveBank s1 b x) x ⟨[], false, false, true, 0, false⟩

-- the atomic unit (R153 to R155) ------------------------------------------------------------------------------------------------

/-- Element size of an atomic (Table 07-9). -/
def atomElem (sub : Nat) : Nat :=
  match sub with
  | 0 => 4
  | 2 => 4
  | 3 => 2
  | _ => 8

/-- New value of an element x with operand p; `n` is CAS's new value. -/
def atomOp (sub x p n : Nat) : Nat :=
  match sub with
  | 0 => (x + p) % 2 ^ 32
  | 1 => (x + p) % 2 ^ 64
  | 2 => fpAdd fp32 x p
  | 3 => fpAdd bf16 x p
  | 4 => p
  | 5 => if x = p then n else x
  | _ => x

/-- New bytes of the elements in `old`, with their operand bytes. -/
def atomBytes (sub : Nat) (old arg : List Byte) (n : Nat) : List Byte :=
  let k := atomElem sub
  (List.range (old.length / k)).flatMap (fun i => toLE k (atomOp sub (leAt old (k * i) k) (leAt arg (k * i) k) n))

/-- `SUB` of the bank operation of an access; `none` for a plain read or write. -/
def accSub (k : AccKind) : Option Nat :=
  match k with
  | .atomic sub => some sub
  | .flagSet _ => some 4
  | .flagAdd _ => some 1
  | _ => none

-- one cycle of port B ---------------------------------------------------------------------------------------------------------------

/-- Perform the next word of an access; `a` is the port-A use that meets it, if one does. -/
def performWord (s : State) (b : Nat) (x : Access) (a : Option PortAUse) : State × Access :=
  let w := x.addr + x.done
  let n := wordLen x
  let bad := isBad s w
  let s0 := markBegun (if bad then metError s w else s) x
  let marked := normalMode s b
  match x.kind with
  | .read =>
    let hit := marked && (match a with
      | some u => u.write
      | none => false)
    match x.client, hit with
    | .source _ _, true | .canary _ _ _, true => (s0, x)
    | _, _ => (s0, { x with
        done := x.done + n, coll := x.coll || hit, poison := x.poison || bad
        got := x.got ++ (if bad then List.replicate n 0 else readMem s w n) })
  | .write =>
    let r := writePiece s w (sliceB x.data x.done n)
    let hit := match a with
      | some u => u.write || marked
      | none => false
    (markBegun (if r.2 then metError r.1 w else r.1) x,
      { x with done := x.done + n, coll := x.coll || hit, poison := x.poison || r.2 })
  | k =>
    let sub := (accSub k).getD 0
    let old := readMem s w n
    let new := atomBytes sub old (sliceB x.data x.done n) (leAt x.data 8 8)
    if bad then (s0, { x with done := x.done + n, poison := true })
    else (writeMem s0 w new, { x with done := x.done + n, got := x.got ++ old ++ (if sub = 5 then sliceB x.data 8 8 else []) })

/-- Bank-busy indications and collision marks that a meeting gives (Table 07-3, R155). -/
def marksGiven (normal : Bool) (k : AccKind) (u : PortAUse) : Nat :=
  match k, u.write with
  | .read, false => 0
  | .read, true => if normal then 2 else 0
  | _, false => if normal then 2 else 0
  | _, true => 1

/-- The port-A access that meets port B's is busy: a read beside a write, or a write beside a read, in normal mode. -/
def portABusy (normal : Bool) (k : AccKind) (u : PortAUse) : Bool :=
  match k with
  | .read => normal && u.write
  | _ => normal && !u.write

/-- A FLAG's doorbell rings once its word has been written (R225). -/
def ringFor (s : State) (x : Access) : State :=
  if x.poison then s
  else match x.kind with
    | .flagSet bell => ringDoorbell s bell
    | .flagAdd bell => ringDoorbell s bell
    | _ => s

/-- Perform a word beside the port-A access that meets it, in the order of R142 and R155: a port-A write goes first; a port-A
read sees the word before port B's write. -/
def performMeet (s : State) (b : Nat) (x : Access) (pa : PortA) (u : PortAUse) : State × Access :=
  let nm := normalMode s b
  let s1 := bump s (pgBank b) B_COLL (marksGiven nm x.kind u)
  let busy := portABusy nm x.kind u || (reReadsAlways pa && x.kind != .read)
  if u.write && !(match x.kind with
      | .read => true
      | _ => false) then performWord (portAAct s1 b pa busy) b x (some u)
  else
    match x.kind with
    | .read =>
      let r := performWord s1 b x (some u)
      (portAAct r.1 b pa busy, r.2)
    | _ => performWord (portAAct s1 b pa busy) b x (some u)

/-- One cycle of a bank's port B, for an access of the kinds that `sel` picks at the head of its queue. -/
def portBCycle (s : State) (b : Fin 544) (cyc : BankCycle) (sel : AccKind → Bool) : State :=
  match edfHead (bank s b).queue with
  | none => s
  | some x =>
    if (bank s b).toMode ≠ none ∨ !sel x.kind then s
    else if x.deadline ≤ now s (aDie x.addr) ∧ hasBegun s x = false then
      accessDone (leaveBank s b x) x ⟨[], false, false, false, 0, true⟩
    else if x.done = 0 ∧ x.by_.ty ≠ btAssay ∧ inCanaryArea s b x.addr x.len = true then denyAccess s b x false
    else if x.done = 0 ∧ (match x.kind with
        | .read => false
        | _ => exclDenies s x.by_ x.entered x.addr x.len) = true then denyAccess s b x true
    else
      let s0 := if cyc.bad then markBad s (x.addr + x.done) else s
      let served := portAServes s0 b cyc.portA
      let u := served.map (fun p => p.2)
      let pa := (served.map (fun p => p.1)).getD (.poll 0)
      match shareOf s0 x u with
      | .stallB => bump (portAAct s0 b pa false) (pgBank b) CONFLICT 1
      | .meet =>
        let r := performMeet s0 b x pa (u.getD ⟨0, 0, false⟩)
        afterWordB (if r.2.len ≤ r.2.done then ringFor r.1 r.2 else r.1) b r.2
      | .apart =>
        let r := performWord (portAAct s0 b pa false) b x none
        afterWordB (if r.2.len ≤ r.2.done then ringFor r.1 r.2 else r.1) b r.2
      | .stallA =>
        let r := performWord (stallPortA s0 pa) b x none
        afterWordB (if r.2.len ≤ r.2.done then ringFor r.1 r.2 else r.1) b r.2
      | .alone =>
        let r := performWord s0 b x none
        afterWordB (if r.2.len ≤ r.2.done then ringFor r.1 r.2 else r.1) b r.2

/-- BANK_PORT_B_ACCESS: the arbiter presents a read or a write. -/
def execBankPortBAccess (b : Fin 544) (cyc : BankCycle) (s : State) : Out :=
  .next (portBCycle s b cyc (fun k => k == .read || k == .write))

/-- IADD32: the arbiter presents an INT32 add. -/
def execIadd32 (b : Fin 544) (cyc : BankCycle) (s : State) : Out := .next (portBCycle s b cyc (fun k => k == .atomic 0))

/-- IADD64: an INT64 add. -/
def execIadd64 (b : Fin 544) (cyc : BankCycle) (s : State) : Out := .next (portBCycle s b cyc (fun k => k == .atomic 1))

/-- FADD32: an FP32 add. -/
def execFadd32 (b : Fin 544) (cyc : BankCycle) (s : State) : Out := .next (portBCycle s b cyc (fun k => k == .atomic 2))

/-- FADD16: a BF16 add. -/
def execFadd16 (b : Fin 544) (cyc : BankCycle) (s : State) : Out := .next (portBCycle s b cyc (fun k => k == .atomic 3))

/-- SWAP. -/
def execSwap (b : Fin 544) (cyc : BankCycle) (s : State) : Out := .next (portBCycle s b cyc (fun k => k == .atomic 4))

/-- CAS. -/
def execCas (b : Fin 544) (cyc : BankCycle) (s : State) : Out := .next (portBCycle s b cyc (fun k => k == .atomic 5))

/-- FLAG_SET: an 8-byte swap, and the doorbell. -/
def execFlagSet (b : Fin 544) (cyc : BankCycle) (s : State) : Out :=
  .next (portBCycle s b cyc (fun k => match k with
    | .flagSet _ => true
    | _ => false))

/-- FLAG_ADD: an 8-byte add, and the doorbell. -/
def execFlagAdd (b : Fin 544) (cyc : BankCycle) (s : State) : Out :=
  .next (portBCycle s b cyc (fun k => match k with
    | .flagAdd _ => true
    | _ => false))

end Sys2Proof.Machine
end

