-- ==== Sys2Proof/Machine/FaultCmds.lean ====
section
/-!
DEFINITION. Events of the fault history, the drain and the bridge (R344, R347, R352).
-/

namespace Sys2Proof.Machine

/-- POWERED_SECOND_WRITE: every 60 s the count goes to MRAM. -/
def execPoweredSecondWrite (die : Die) (s : State) : Out :=
  .next (setHistory s die { history s die with mramPowered := (history s die).powered })

/-- The window of die `d` has run out. -/
def windowOver (s : State) (d : Nat) : Bool := match (service s d).drainEnd with
  | some t => draining s d && !(service s d).drained && decide (t ≤ elapsed s)
  | none => false

/-- DRAIN_WINDOW_END: what is still outstanding fails, and the history is to be sealed. -/
def execDrainWindowEnd (die : Die) (s : State) : Out :=
  .next (if windowOver s die then
      let ds := deviceDies s die
      ds.foldl (fun t e =>
        setHistory (setService t e { service t e with drained := true }) e { history t e with sealing := true })
        (failHomes (failAll s ds rDrained) ds)
    else s)

/-- HISTORY_SEAL_DONE: REPLACE_N is asserted and the device, or in split mode the die, enters the safe state. -/
def execHistorySealDone (die : Die) (s : State) : Out :=
  .next (if (history s die).sealing ∧ (service s die).drained then enterSafe s die 1 true else s)

/-- The bridge has failed: split mode once quarantine has been left, a bring-up failure before (R307, R352). -/
def bridgeFails (s : State) : State :=
  if isSafe s 0 then { s with bridge := { s.bridge with st := 3, retrainAt := none } }
  else if (service s 0).state = 0 then bridgeFailsEarly s
  else enterSplit { s with bridge := { s.bridge with retrainAt := none } }

/-- BRIDGE_LOCK_LOSS. -/
def execBridgeLockLoss (s : State) : Out :=
  .next (if s.boot.released ∧ (s.bridge.st = 2 ∨ s.bridge.retrainAt.isSome) then bridgeFails s else s)

/-- BRIDGE_PROGRESS_TIMEOUT: one retrain starts; the replay that made no progress is counted at both ends. -/
def execBridgeProgressTimeout (s : State) : Out :=
  .next (if s.boot.released ∧ s.bridge.st = 2 then
      bump (bump { s with bridge := { st := 1, retrainAt := some (elapsed s) } } (pgBridge 0) BR_REPLAYS 1) (pgBridge 1) BR_REPLAYS 1
    else s)

/-- BRIDGE_RETRAIN_TIMEOUT: the retrain has not restored the bridge within 100 µs. -/
def execBridgeRetrainTimeout (s : State) : Out :=
  .next (match s.bridge.retrainAt with
    | some t => if t + 100000 ≤ elapsed s then bridgeFails s else s
    | none => s)

end Sys2Proof.Machine
end

