-- ==== Sys2Proof/Machine/Blocks.lean ====
section
/-!
DEFINITION. Entropy-coded blocks: code tables (R178 to R180), compression into a slot (R182 to R187) and the ten checks of a block
that is read (R188 to R190).
-/

namespace Sys2Proof.Machine

/-- Number of symbols of a table, and symbols and payload bounds of a sub-stream (R177, R183). -/
def symCount (sym : Nat) : Nat := if sym = 0 then 16 else 256
def subSyms (sym : Nat) : Nat := if sym = 0 then 256 else 128

/-- Fields of a table record (Table 09-1). -/
def tblId (rec_ : List Byte) : Nat := leAt rec_ 0 2
def tblSym (rec_ : List Byte) : Nat := bitsOf (leAt rec_ 0 4) 16 16
def tblLengths (rec_ : List Byte) : List Nat := (List.range (symCount (tblSym rec_))).map (fun i => bitsAt (rec_.drop 0x10) (4 * i) 4)

/-- The lengths satisfy R178: at least one code, and a Kraft sum of at most 1. -/
def kraftOk (ls : List Nat) : Bool :=
  let coded := ls.filter (fun l => l ≠ 0)
  decide (coded ≠ []) && decide ((coded.map (fun l => 2 ^ (11 - l))).foldl (· + ·) 0 ≤ 2 ^ 11)

/-- A table record is valid (R180). -/
def tableValid (rec_ : List Byte) : Bool :=
  let ls := tblLengths rec_
  decide (rec_.length = 144) && decide ((crc32c (spliceB rec_ 0xC [0, 0, 0, 0])).toNat = leAt rec_ 0xC 4) &&
  decide (leAt rec_ 0 4 / 2 ^ 17 = 0) && decide (leAt rec_ 4 8 = 0) && (tblSym rec_ == 1 || decide (leAt rec_ 0x18 0x78 = 0)) &&
  ls.all (fun l => decide (l ≤ 11)) && kraftOk ls

/-- A code: symbol, length and value. -/
structure Code where
  sym : Nat
  len : Nat
  code : Nat
deriving DecidableEq, Repr

/-- Codes of length n in ascending symbols, from the first code of the length (R178). -/
def codesOf (ls : List Nat) (n first : Nat) : List Code :=
  ((ls.mapIdx (fun s l => (s, l))).filter (fun p => p.2 = n)).mapIdx (fun i p => ⟨p.1, n, first + i⟩)

/-- Canonical codes of lengths `n` upward; `code` is the running value before length n, `prev` the count of length n − 1. -/
def canonFrom (ls : List Nat) : Nat → Nat → Nat → Nat → List Code
  | 0, _, _, _ => []
  | fuel + 1, n, code, prev =>
    let c := (code + prev) * 2
    let here := codesOf ls n c
    here ++ canonFrom ls fuel (n + 1) c here.length

/-- The codes of a table. -/
def canonCodes (ls : List Nat) : List Code := canonFrom ls 11 1 0 0

/-- Bits of a code in stream order: the most significant first (R179). -/
def Code.bits (c : Code) : List Bool := (bitsLsb c.len c.code).reverse

/-- Symbols of sub-stream k of a raw block (R177). -/
def subSymbols (sym : Nat) (block : List Byte) (k : Nat) : List Nat :=
  let bs := sliceB block (128 * k) 128
  if sym = 0 then bs.flatMap (fun b => [b.toNat % 16, b.toNat / 16]) else bs.map (fun b => b.toNat)

/-- The raw bytes that symbols spell. -/
def symbolBytes (sym : Nat) : List Nat → List Byte
  | a :: b :: rest => if sym = 0 then BitVec.ofNat 8 (a + 16 * b) :: symbolBytes sym rest else BitVec.ofNat 8 a :: BitVec.ofNat 8 b :: symbolBytes sym rest
  | [a] => [BitVec.ofNat 8 a]
  | [] => []

/-- Encode symbols; `none` where one has no code. -/
def encodeSyms (cs : List Code) : List Nat → Option (List Bool)
  | [] => some []
  | x :: rest =>
    match cs.find? (fun c => c.sym = x), encodeSyms cs rest with
    | some c, some bs => some (c.bits ++ bs)
    | _, _ => none

/-- How a decoder ends (checks 8 and 9 of Table 09-4). -/
inductive Decoded where
  | syms (xs : List Nat)
  /-- an invalid bit pattern -/
  | code
  /-- the bits do not hold exactly the symbols -/
  | count
deriving DecidableEq, Repr

/-- Decode `n` symbols: `len` and `acc` are the pattern read so far. -/
def decodeSyms (cs : List Code) (n : Nat) : List Bool → Nat → Nat → List Nat → Decoded
  | [], len, _, out => if len = 0 ∧ out.length = n then .syms out.reverse else .count
  | b :: rest, len, acc, out =>
    if out.length = n then .count
    else
      let a := 2 * acc + (if b then 1 else 0)
      let l := len + 1
      match cs.find? (fun c => decide (c.len = l) && decide (c.code = a)) with
      | some c => decodeSyms cs n rest 0 0 (c.sym :: out)
      | none =>
        if cs.any (fun c => decide (l < c.len) && decide (c.code / 2 ^ (c.len - l) = a)) then decodeSyms cs n rest l a out else .code

-- writing (R185) ----------------------------------------------------------------------------------------------------------

/-- What a compressor writes: the slot's bytes and its map entry. -/
structure SlotOut where
  bytes : List Byte
  entry : List Byte
deriving DecidableEq, Repr

/-- A map entry (Table 09-3). -/
def mapEntry (crc len : Nat) (raw : Bool) (epoch : Nat) : List Byte :=
  toLE 8 (crc + 2 ^ 32 * len + (if raw then 2 ^ 44 else 0) + 2 ^ 48 * epoch)

/-- The slot number of a global address (R186). -/
def slotNumber (a : Nat) : Nat := bitsOf a 48 12

/-- Compress a block under a table; `key` is the tensor's key of generation `epoch`, unused where that is 0. -/
def compressBlock (rec_ : List Byte) (fmt epoch : Nat) (key : List Byte) (slot : Nat) (block : List Byte) : SlotOut :=
  let sym := tblSym rec_
  let cs := canonCodes (tblLengths rec_)
  let subs := (List.range 32).map (fun k => encodeSyms cs (subSymbols sym block k))
  let total := (subs.map (fun o => ceilDiv (o.getD []).length 8)).foldl (· + ·) 0
  let enc (bs : List Byte) : List Byte := if epoch = 0 then bs else Crypto.xtsEncrypt key slot bs
  if subs.all (fun o => o.isSome) ∧ total ≤ 4032 then
    let head (crc : Nat) : List Byte :=
      toLE 4 (fmt + 2 ^ 5 * sym + 2 ^ 16 * tblId rec_) ++ toLE 4 (total + 2 ^ 16 * epoch) ++ toLE 4 crc ++ toLE 4 0
    let run := packCodes 12 (subs.map (fun o => (o.getD []).length))
    let tail := enc (run ++ subs.flatMap (fun o => packBits (o.getD [])))
    let crc := (crc32c (head 0 ++ tail)).toNat
    let bytes := head crc ++ tail
    { bytes := bytes ++ List.replicate ((32 - bytes.length % 32) % 32) 0, entry := mapEntry crc total false epoch }
  else
    let bytes := enc block
    { bytes := bytes, entry := mapEntry (crc32c bytes).toNat 0 true epoch }

-- reading (R188, Table 09-4) ---------------------------------------------------------------------------------------------------

/-- A block check word (Table 09-5). -/
def checkWord (cause : Nat) (raw : Bool) (sub : Nat) : Nat := cause + (if raw then 16 else 0) + 32 * sub

/-- Fields of a map entry. -/
def entLen (e : List Byte) : Nat := bitsOf (leAt e 0 8) 43 32
def entRaw (e : List Byte) : Bool := bitsOf (leAt e 0 8) 44 44 == 1
def entEpoch (e : List Byte) : Nat := bitsOf (leAt e 0 8) 55 48

/-- Check 2: the entry's reserved bits and its length. -/
def entryOk (e : List Byte) : Bool :=
  let v := leAt e 0 8
  decide (bitsOf v 47 45 = 0) && decide (bitsOf v 63 56 = 0) &&
  (if entRaw e then decide (entLen e = 0) else decide (512 ≤ entLen e) && decide (entLen e ≤ 4032))

/-- Bytes of a slot that its entry makes the hoist read. -/
def slotReadLen (e : List Byte) : Nat := if entRaw e then 4096 else Nat.min 4096 (32 * ceilDiv (64 + entLen e) 32)

/-- How a block is judged: its 4,096 bytes, or its check word. -/
inductive BlockVerdict where
  | pass (data : List Byte)
  | fail (word : Nat)
deriving DecidableEq, Repr

/-- Checks 7 to 10 on a decrypted length run and payload. -/
def decodeBlock (rec_ : List Byte) (total : Nat) (plain : List Byte) : BlockVerdict :=
  let sym := tblSym rec_
  let cs := canonCodes (tblLengths rec_)
  let lens := (List.range 32).map (fun k => bitsAt plain (12 * k) 12)
  let lo := subSyms sym
  let bad (p : Nat → Bool) : Option Nat := (List.range 32).find? p
  let starts (k : Nat) : Nat := ((lens.take k).map (fun l => ceilDiv l 8)).foldl (· + ·) 0
  match bad (fun k => decide (lens.getD k 0 < lo) || decide (11 * lo < lens.getD k 0)) with
  | some k => .fail (checkWord 7 false k)
  | none =>
    if starts 32 ≠ total then .fail (checkWord 7 false 0)
    else
      let bitsFrom (k n : Nat) : List Bool := bitsLsb n (leAt plain (48 + starts k) (ceilDiv n 8))
      let outs := (List.range 32).map (fun k => decodeSyms cs lo (bitsFrom k (lens.getD k 0)) 0 0 [])
      match bad (fun k => outs.getD k .code == .code) with
      | some k => .fail (checkWord 8 false k)
      | none =>
        match bad (fun k => outs.getD k .count == .count) with
        | some k => .fail (checkWord 9 false k)
        | none =>
          match bad (fun k => (bitsFrom k (8 * ceilDiv (lens.getD k 0) 8)).drop (lens.getD k 0) |>.any id) with
          | some k => .fail (checkWord 10 false k)
          | none => .pass (outs.flatMap (fun o => match o with
              | .syms xs => symbolBytes sym xs
              | _ => []))

/-- Checks 2 to 10 on a map entry and the stored bytes; `key` finds a key of the tensor by its generation, `table` a resident table by
`TABLE_ID`. -/
def judgeBlock (key : Nat → Option (List Byte)) (table : Nat → Option (List Byte)) (fmt slot : Nat) (e stored : List Byte) : BlockVerdict :=
  let raw := entRaw e
  let fail (c : Nat) : BlockVerdict := .fail (checkWord c raw 0)
  let epoch := entEpoch e
  let n := 64 + entLen e
  let dec (bs : List Byte) : Option (List Byte) := if epoch = 0 then some bs else (key epoch).map (fun k => Crypto.xtsDecrypt k slot bs)
  if !entryOk e then fail 2
  else if raw then
    if (crc32c (sliceB stored 0 4096)).toNat ≠ leAt e 0 4 then fail 3
    else match dec (sliceB stored 0 4096) with
      | none => fail 5
      | some bs => .pass bs
  else
    let body := sliceB stored 0 n
    let w0 := leAt stored 0 4
    let w1 := leAt stored 4 4
    if (crc32c (spliceB body 8 [0, 0, 0, 0])).toNat ≠ leAt e 0 4 ∨ leAt stored 8 4 ≠ leAt e 0 4 then fail 3
    else if bitsOf w1 11 0 ≠ entLen e ∨ bitsOf w1 23 16 ≠ epoch ∨ bitsOf w0 4 0 ≠ fmt ∨ fmtKnown fmt = false ∨ bitsOf w0 15 6 ≠ 0 ∨
        bitsOf w1 15 12 ≠ 0 ∨ bitsOf w1 31 24 ≠ 0 ∨ leAt stored 0xC 4 ≠ 0 then fail 4
    else match dec (body.drop 16) with
      | none => fail 5
      | some plain =>
        match (table (bitsOf w0 31 16)).filter (fun t => decide (tblSym t = bitsOf w0 5 5)) with
        | none => fail 6
        | some rec_ => decodeBlock rec_ (entLen e) plain

end Sys2Proof.Machine
end

