-- ==== Sys2Proof/Machine/HoistDesc.lean ====
section
/-!
DEFINITION. Hoist descriptors: their fields (Table 10-1), what makes one malformed (R200, R201), side streams (Table 10-3) and the
key/value layout record (R172 to R174).
-/

namespace Sys2Proof.Machine

/-- A descriptor's fields. -/
structure HDesc where
  op : Nat
  link : Bool
  fmt : Nat
  group : Nat
  fp32 : Bool
  rnd : Nat
  role : Nat
  tslot : Nat
  quant : Bool
  sb : Nat
  db : Nat
  len : Nat
  count : Nat
  src : Nat
  dst : Nat
  srcStride : Int
  dstStride : Int
  tensor : Nat
  param : Nat
  value : Nat
  addr : Nat
  target : Nat
  /-- a reserved field is not 0 -/
  bad : Bool
deriving DecidableEq, Repr

/-- Read the fields of 64 bytes. -/
def HDesc.parse (bs : List Byte) : HDesc :=
  let w := leAt bs 0 4
  let l := leAt bs 4 4
  let t := leAt bs 0x38 8
  { op := bitsOf w 5 0, link := bitsOf w 6 6 == 1, fmt := bitsOf w 12 8, group := bitsOf w 14 13, fp32 := bitsOf w 15 15 == 1
    rnd := bitsOf w 17 16, role := bitsOf w 19 18, tslot := bitsOf w 22 20, quant := bitsOf w 23 23 == 1, sb := bitsOf w 25 24
    db := bitsOf w 27 26, len := l % 2 ^ 16, count := l / 2 ^ 16, src := leAt bs 8 8, dst := leAt bs 0x10 8
    srcStride := signOf 32 (leAt bs 0x18 4), dstStride := signOf 32 (leAt bs 0x1C 4), tensor := leAt bs 0x20 4
    param := leAt bs 0x24 4, value := leAt bs 0x28 8, addr := leAt bs 0x30 8, target := t % 2 ^ 12
    bad := bitsOf w 7 7 != 0 || bitsOf w 31 28 != 0 || t / 2 ^ 12 != 0 }

/-- Operation codes of Table 10-2. -/
abbrev hEND : Nat := 0
abbrev hHEAD : Nat := 1
abbrev hMOVE : Nat := 2
abbrev hEXPAND : Nat := 3
abbrev hCOMPRESS : Nat := 4
abbrev hTABLE : Nat := 5
abbrev hKVGATHER : Nat := 6
abbrev hSETB : Nat := 7
abbrev hLOOP : Nat := 8
abbrev hWAIT : Nat := 9
abbrev hFLAG : Nat := 10
abbrev hFENCE : Nat := 11

/-- The fields that an operation names: every other one is put at 0 here, so that a descriptor keeps Table 10-2 when nothing changes. A
MOVE's or a lead's `FMT` and `GROUP` are those of its data (log entry 65). -/
def HDesc.named (d : HDesc) : HDesc :=
  let z : HDesc := HDesc.parse []
  let rows : HDesc :=
    { z with op := d.op, link := d.link, fmt := d.fmt, group := d.group, sb := d.sb, db := d.db, len := d.len, count := d.count
             src := d.src, dst := d.dst, srcStride := d.srcStride, dstStride := d.dstStride, bad := d.bad }
  let base : HDesc := { z with op := d.op, link := d.link, bad := d.bad }
  match d.op with
  | 1 => { base with db := d.db, dst := d.dst, count := d.count, value := d.value, addr := d.addr }
  | 2 => if d.link then { rows with role := d.role } else rows
  | 3 => { rows with tensor := d.tensor }
  | 4 =>
    let c := { rows with tensor := d.tensor, tslot := d.tslot, quant := d.quant, param := d.param }
    if d.quant then { c with fp32 := d.fp32, rnd := d.rnd, value := d.value } else c
  | 5 => { base with sb := d.sb, src := d.src, tslot := d.tslot }
  | 6 => { base with sb := d.sb, db := d.db, src := d.src, dst := d.dst, value := d.value, count := d.count, role := d.role }
  | 7 => { base with param := d.param, value := d.value }
  | 8 => { base with target := d.target, param := d.param, src := d.src, dst := d.dst, value := d.value }
  | 9 => { base with addr := d.addr, value := d.value, role := d.role, param := d.param }
  | 10 => { base with addr := d.addr, value := d.value, role := d.role, param := d.param }
  | _ => base

/-- Formats that COMPRESS quantises to (R204). -/
def quantFmt (f : Nat) : Bool := [5, 6, 7, 0x11, 0x12, 0x14].contains f

/-- A format of E8M0 class with codes of 4 or 8 bits (R201). -/
def sideFmt (f : Nat) : Bool := fmtKnown f && fmtAllowsClass f 0

/-- Values that each operation's own fields may take (Table 10-2); what depends on the script around it is judged at its issue. -/
def HDesc.valuesOk (d : HDesc) : Bool :=
  let rows := decide (1 ≤ d.len) && decide (d.len ≤ 4096) && decide (1 ≤ d.count) && decide (d.group ≠ 3)
  match d.op with
  | 0 => true
  | 1 => decide (2 ≤ d.count)
  | 2 => rows
  | 3 => rows && decide (d.len = 4096) && decide (d.srcStride % 4096 = 0) && fmtKnown d.fmt
  | 4 => rows && decide (d.len = 4096) && decide (d.param < 256) && fmtKnown d.fmt && (!d.quant || (quantFmt d.fmt && decide (d.rnd ≠ 3)))
  | 5 => true
  | 6 => decide (1 ≤ d.count)
  | 7 => decide (1 ≤ d.param) && decide (d.param ≤ 3)
  | 8 => true
  | 9 => decide (d.role ≠ 3)
  | 10 => decide (d.role < 2) && decide (d.param < 32)
  | 11 => true
  | _ => false

/-- The descriptor by itself keeps Tables 10-1 and 10-2. -/
def HDesc.ok (d : HDesc) : Bool := !d.bad && decide (d = d.named) && (!d.link || decide (d.op = hMOVE)) && d.valuesOk

-- side streams (R201, Table 10-3) ------------------------------------------------------------------------------------------

/-- Elements of a step: 32,768 ÷ b. -/
def stepElems (f : Nat) : Nat := 32768 / fmtBits f

/-- Weight tiles of 16,384 elements that `rows` steps of a format cover, and the step that holds tile w's first element. -/
def tileLen (f group : Nat) : Nat :=
  if f = 1 then 16384 / groupSize group * ceilDiv (groupSize group) 5 else 16384 * fmtBits f / 8
def tilesIn (f group rows : Nat) : Nat := ceilDiv (4096 * rows) (tileLen f group)
def tileStep (f group w : Nat) : Nat := w * tileLen f group / 4096

/-- `LEN` and `COUNT` of a side stream of a lead. -/
def sideSize (lead : HDesc) (role : Nat) : Nat × Nat :=
  match role with
  | 0 => (stepElems lead.fmt / groupSize lead.group, lead.count)
  | 1 => (8 * (stepElems lead.fmt / groupSize lead.group), lead.count)
  | 2 => (8, lead.count)
  | _ => (scaleRecordSize lead.group, tilesIn lead.fmt lead.group lead.count)

/-- The lead produces the unit of a side stream: the map entry of a COMPRESS, and the scales it quantises with. -/
def produced (lead : HDesc) (role : Nat) : Bool := decide (lead.op = hCOMPRESS) && (decide (role = 2) || (decide (role = 0) && lead.quant))

/-- The lead consumes the unit: the map entry of an EXPAND. -/
def consumed (lead : HDesc) (role : Nat) : Bool := decide (lead.op = hEXPAND) && decide (role = 2)

/-- A side stream keeps R201 for its lead. -/
def sideOk (lead side : HDesc) : Bool :=
  let z := sideSize lead side.role
  side.ok && decide (side.len = z.1) && decide (side.count = z.2) &&
  (decide (2 ≤ side.role) || sideFmt lead.fmt) && (decide (side.role ≠ 3) || (fmtKnown lead.fmt && fmtIsWeight lead.fmt)) &&
  (decide (side.src = 0 ∧ side.sb = 0) == produced lead side.role) &&
  (!decide (side.dst = 0 ∧ side.db = 0) || consumed lead side.role)

/-- A lead keeps R201 with its side streams: at most three, of different roles; EXPAND and COMPRESS need a map stream, and a lead that
quantises a scale stream. -/
def leadOk (lead : HDesc) (sides : List HDesc) : Bool :=
  let roles := sides.map (fun x => x.role)
  decide (sides.length ≤ 3) && decide roles.Nodup && (decide (sides = []) || decide (lead.len = 4096)) && sides.all (sideOk lead) &&
  (decide (lead.op = hMOVE) || roles.contains 2) && (!lead.quant || (roles.contains 0 && !roles.contains 1))

/-- Place, among the side streams of a lead, of the first that breaks R201: a fourth, one of a role had before, one of a lead of another `LEN`, or one that
is not of its lead's sizes and formats. -/
def brokenLink (lead : HDesc) (sides : List HDesc) : Option Nat :=
  (List.range sides.length).find? (fun k => match sides[k]? with
    | some x => decide (3 ≤ k) || decide (lead.len ≠ 4096) || (sides.take k).any (fun y => y.role = x.role) || !sideOk lead x
    | none => false)

/-- Rows of a side stream that belong to step `r`: one, or the tiles whose first element lies in it. -/
def sideRows (lead side : HDesc) (r : Nat) : List Nat :=
  if side.role = 3 then (List.range side.count).filter (fun w => tileStep lead.fmt lead.group w == r) else [r]

/-- The source of a COMPRESS's row, in bytes. -/
def compressLen (d : HDesc) : Nat := if d.quant then stepElems d.fmt * (if d.fp32 then 4 else 2) else 4096

-- key/value streams (R172 to R174) -------------------------------------------------------------------------------------------

/-- A layout record (Table 08-7). -/
structure KvLayout where
  pt : Nat
  hd : Nat
  fmt : Nat
  group : Nat
  pages : Nat
deriving DecidableEq, Repr

/-- The record's fields; `none` where it is malformed. -/
def KvLayout.parse (bs : List Byte) : Option KvLayout :=
  let w := leAt bs 0x10 4
  let p := leAt bs 0x14 4
  let k : KvLayout := { pt := leAt bs 0 8, hd := w % 2 ^ 16, fmt := bitsOf w 20 16, group := bitsOf w 22 21, pages := p % 2 ^ 16 }
  if quantFmt k.fmt ∧ k.group ≠ 3 ∧ bitsOf w 31 23 = 0 ∧ p / 2 ^ 16 = 0 ∧ leAt bs 0x18 8 = 0 ∧ k.hd % 128 = 0 ∧ 128 ≤ k.hd ∧ k.hd ≤ 16384 ∧
      1 ≤ k.pages ∧ k.pages ≤ 32768 then some k else none

/-- Bytes of a position's codes, of one region of codes, of a position's K scales, and of a page. -/
def KvLayout.cb (k : KvLayout) : Nat := k.hd * fmtBits k.fmt / 8
def KvLayout.c (k : KvLayout) : Nat := 4096 * ceilDiv (256 * k.cb) 4096
def KvLayout.ks (k : KvLayout) : Nat := k.hd / groupSize k.group
def KvLayout.size (k : KvLayout) : Nat := 2 * k.c + 4096 * ceilDiv (512 * k.hd) (groupSize k.group * 4096)

/-- Positions that one step of a part gathers: a V group of scales, or one position. -/
def KvLayout.unit (k : KvLayout) (part : Nat) : Nat := if part = 3 then groupSize k.group else 1

/-- Bytes that one step of a part gathers, and where they lie in a page for slot t (Table 08-8). -/
def KvLayout.bytes (k : KvLayout) (part : Nat) : Nat :=
  match part with
  | 0 => k.cb
  | 1 => k.ks
  | 2 => k.cb
  | _ => k.hd
def KvLayout.place (k : KvLayout) (part t : Nat) : Nat :=
  match part with
  | 0 => t * k.cb
  | 1 => 2 * k.c + t * k.ks
  | 2 => k.c + t * k.cb
  | _ => 2 * k.c + 256 * k.ks + t / groupSize k.group * k.hd

/-- A range of V positions covers whole groups (R205). -/
def KvLayout.rangeOk (k : KvLayout) (part first count : Nat) : Bool :=
  decide (part < 2) || (decide (first % groupSize k.group = 0) && decide (count % groupSize k.group = 0))

end Sys2Proof.Machine
end

