-- ==== Sys2Proof/Machine/Scripts.lean ====
section
/-!
DEFINITION. A hoist script's descriptors and rows, where it goes on after each (R199 to R201), and the ranges that it reads, for the launches
that a drain still admits (R348).
-/

namespace Sys2Proof.Machine

-- descriptors and rows --------------------------------------------------------------------------------------------------

/-- Descriptor `i` where it has been read. -/
def Script.desc (r : Script) (i : Nat) : Option HDesc := (r.descs.find? (fun p => p.1 = i)).map (fun p => HDesc.parse p.2)

/-- The side streams that follow descriptor `i`: the linked descriptors read next to it, up to four. -/
def Script.sides (r : Script) (i : Nat) : List HDesc :=
  ((List.range 4).map (fun k => r.desc (i + 1 + k))).takeWhile (fun o => (o.map (fun d => d.link)).getD false) |>.filterMap id

/-- Base register that a selector names. -/
def Script.base (r : Script) (k : Nat) : Nat :=
  match k with
  | 1 => r.b1.toNat
  | 2 => r.b2.toNat
  | 3 => r.b3.toNat
  | _ => 0

/-- Address of row `i` from a base, a field and a stride. -/
def rowAddr (base field : Nat) (stride : Int) (i : Nat) : Nat := (((base + field : Nat) + stride * i : Int) % 2 ^ 64).toNat

/-- Source and destination of row `i` of a descriptor. -/
def Script.srcRow (r : Script) (d : HDesc) (i : Nat) : Nat := rowAddr (r.base d.sb) d.src d.srcStride i
def Script.dstRow (r : Script) (d : HDesc) (i : Nat) : Nat := rowAddr (r.base d.db) d.dst d.dstStride i

-- from descriptor to descriptor ----------------------------------------------------------------------------------------

/-- Where the script goes on after descriptor position `j` is reached: loops whose body has ended are repeated or left. -/
def loopBack : List ScriptLoop → Nat → Script → Script
  | [], j, r => { r with idx := j, loops := [] }
  | l :: rest, j, r =>
    if j ≤ l.last then { r with idx := j, loops := l :: rest }
    else
      let q := { r with b1 := r.b1 + l.inc1, b2 := r.b2 + l.inc2, b3 := r.b3 + l.inc3 }
      if 2 ≤ l.left then { q with idx := l.first, loops := { l with left := l.left - 1 } :: rest } else loopBack rest j q

/-- The running descriptor and its `n` side streams have completed: the next one is reached. -/
def nextDesc (n : Nat) (r : Script) : Script :=
  loopBack r.loops (r.idx + 1 + n)
    { r with executed := r.executed + 1 + n, step := 0, stepsDone := 0, phase := .ready, retried := false, coll := false, inner := []
             tables := none }

-- the ranges that a script reads (R348) -------------------------------------------------------------------------------------

/-- The script with what its memory holds now at the descriptor it has reached and at the four after it. -/
def Script.peek (s : State) (r : Script) : Script :=
  { r with descs := (List.range 5).map (fun k => (r.idx + k, readMem s (low50 (r.addr + 64 * (r.idx + k))) 64)) }

/-- Where row `i` of a lead has its map entry. -/
def mapEntryAt (r : Script) (sides : List HDesc) (i : Nat) : Nat :=
  ((sides.find? (fun x => x.role = 2)).map (fun x => r.srcRow x i)).getD 0

/-- The ranges that a descriptor reads, as address and length: its rows, with the slot of an EXPAND as far as its map entry has it read, those of its
side streams, and what TABLE, KVGATHER and WAIT read. -/
def descReads (s : State) (r : Script) (d : HDesc) (sides : List HDesc) : List (Nat × Nat) :=
  let rows := List.range d.count
  let side (x : HDesc) : List (Nat × Nat) := if produced d x.role then [] else rows.flatMap (fun i => (sideRows d x i).map (fun w => (r.srcRow x w, x.len)))
  let leads := sides.flatMap side
  if d.op = hMOVE then rows.map (fun i => (r.srcRow d i, d.len)) ++ leads
  else if d.op = hEXPAND then rows.map (fun i => (r.srcRow d i, slotReadLen (readMem s (low50 (mapEntryAt r sides i)) 8))) ++ leads
  else if d.op = hCOMPRESS then rows.map (fun i => (r.srcRow d i, compressLen d)) ++ leads
  else if d.op = hTABLE then [(r.srcRow d 0, 144)]
  else if d.op = hWAIT then [(d.addr, 8)]
  else if d.op = hKVGATHER then
    (r.srcRow d 0, 32) :: (match KvLayout.parse (readMem s (low50 (r.srcRow d 0)) 32) with
      | none => []
      | some k => (List.range (d.count / k.unit d.role)).flatMap (fun i =>
        let pos := d.value + i * k.unit d.role
        let at_ := k.pt + 8 * (pos / 256)
        [(at_, 8), (leNat (readMem s (low50 at_) 8) / 4096 * 4096 + k.place d.role (pos % 256), k.bytes d.role)]))
  else []

/-- Where a script stands after its descriptor, loops and base registers followed; `none` at its end. -/
def afterDesc (r : Script) (d : HDesc) (sides : List HDesc) : Option Script :=
  let v := BitVec.ofNat 64 d.value
  if d.op = hEND ∨ hFENCE < d.op then none
  else if d.op = hSETB then
    some (nextDesc 0 (if d.param = 1 then { r with b1 := v } else if d.param = 2 then { r with b2 := v } else { r with b3 := v }))
  else if d.op = hLOOP then
    some (nextDesc 0 (if d.param = 0 then { r with idx := d.target }
      else { r with loops := { first := r.idx + 1, last := d.target, left := d.param, inc1 := BitVec.ofNat 64 d.src
                               inc2 := BitVec.ofNat 64 d.dst, inc3 := v } :: r.loops }))
  else some (nextDesc sides.length r)

/-- Every read of a script, its own descriptors among them, lies in a copy-out region (R348), by what memory holds now; `fuel` bounds the
descriptors that are followed, and what lies past them is judged as it is read (log entry 139). -/
def readsCopyOut : Nat → State → Script → Bool
  | 0, _, _ => true
  | fuel + 1, s, r =>
    let q := r.peek s
    match q.desc q.idx with
    | none => true
    | some d =>
      let sides := q.sides q.idx
      inCopyOut s (r.addr + 64 * r.idx) 64 && (descReads s q d sides).all (fun p => inCopyOut s p.1 p.2) &&
      (match afterDesc q d sides with
        | none => true
        | some t => readsCopyOut fuel s t)

end Sys2Proof.Machine
end

