-- ==== Sys2Proof/Machine/Hoist.lean ====
section
/-!
DEFINITION. Launching and stopping hoist scripts (R195 to R198, R210, R212): HOIST, a channel's CMD, and the engine's CNT_CLEAR.
-/

namespace Sys2Proof.Machine

/-- A script launched now, before its first descriptor. -/
def newScript (by_ : Agent) (op : Nat) (addr cls deadline : Nat) (ws : List Window) : Script :=
  { by_ := by_, op := op, addr := addr, cls := cls, deadline := deadline, windows := ws, descs := [], idx := 0, executed := 0,
    step := 0, stepsDone := 0, phase := .ready, b1 := 0, b2 := 0, b3 := 0, loops := [], seed := 0, hstep := 0, recAddr := 0, recCap := 0,
    recNext := 0, dropped := 0, poison := false, retried := false, coll := false, inner := [], recs := [], summed := false, tables := none, copyOnly := false,
    ended := none }

/-- The script starts on channel `c`; what the page shows of the running descriptor starts again. -/
def startScript (s : State) (c : Nat) (r : Script) : State :=
  setChannel s c { channel s c with run := some r, descIdx := 0, steps := 0 }

/-- A launch is turned away for now (R196, R348): the channel runs a script, its engine is out of service or without credit, the budget is
outside R257, or admission is closed (R119, R135). -/
def launchRefused (s : State) (c cls budget : Nat) (copyOut : Bool) : Bool :=
  (channel s c).run.isSome || decide (bucketLevel s (channelDie c) (.hoist (engineOf c)) cls = 0) ||
  s.faulty.contains ⟨btHoist, engineOf c⟩ || !(admitting s (channelDie c) cls || copyOut) ||
  decide (budget = 0) || decide (2 ^ 32 ≤ budget)

/-- Who launches is the channel's holder, and its windows let it read the script (R130, R195). -/
def launchAllowed (s : State) (c : Nat) (w : Agent) (ws : List Window) (addr : Nat) : Bool :=
  decide (holder s (pgChannel c) = w) && decide (addr % 64 = 0) && grants ws addr 64 rtREAD

/-- Judge HOIST: DENIED, REFUSED, or a script with one deadline (R196). -/
def judgeHoist (s : State) (n : Nat) (d : Byte) (imm : W32) (addr sel t : Nat) : State :=
  let c := 128 * (n / 256) + 4 * (sel % 32) + sel / 32 % 4
  let budget := budgetOf s n imm
  let ws := stopeWindows s n
  if sel / 128 ≠ 0 ∨ launchAllowed s c ⟨btStope, n⟩ ws addr = false then answerNow s n d t (statusWord sDENIED 0)
  else if launchRefused s c (immClass imm) budget false || !stopeOpen s n then answerNow s n d t (statusWord sREFUSED 0)
  else
    let dl := now s (n / 256) + budget
    let q := freshOp s
    let s1 := acceptAsync q.1 n d t { op := q.2, ticket := t, deadline := dl, remote := false, reads := [], writes := [] }
    startScript s1 c (newScript ⟨btStope, n⟩ q.2 addr (immClass imm) dl ws)

/-- HOIST (0x70): launch the script at aA on the engine and channel that sB selects. -/
def execHoist (st : Fin 512) (d a b : Byte) (imm : W32) (s : State) : Out :=
  .next (issue s st 0x70 d a b imm (fun s => withTicket s st d false (fun s t =>
    judgeHoist s st d imm (areg s st a.toNat).toNat ((stope s st).sreg b.toNat).toNat t)))

/-- The windows of a holder that launches through the page: the host's rights, a stope's program windows (R198), or, for a foreman or a
headframe, everything (log entry 21). -/
def holderWindows (s : State) (w : Agent) : List Window :=
  if w.ty = btHost then hostWindows s else if w.ty = btStope then stopeWindows s w.inst else allWindows

/-- Descriptors that the judgement of R348 follows. -/
def copyOutFuel : Nat := 65536

/-- A launch through the channel page (R197); its outcome at once is kept in `CH_STATUS`. A drain admits a script of the host or the acting headframe
whose every read lies in a copy-out region (R348). -/
def channelLaunch (s : State) (w : Agent) (c : Nat) : State :=
  let pg := pgChannel c
  let cls := fld (rd s pg CH_LAUNCH) 1 0
  let dl := (rd s pg CH_DL_NS).toNat
  let budget := if dl ≠ 0 then dl else if cls = scavenge then 2 ^ 32 - 1 else promise s (channelDie c) cls
  let addr := (rd64 s pg SCRIPT_LO).toNat
  let ws := holderWindows s w
  let d := channelDie c
  let copyOut := draining s d && !(service s d).drained && (decide (w.ty = btHost) || decide (w = acting s d)) &&
    readsCopyOut copyOutFuel s (newScript w 0 addr cls 0 ws) && (decide (cls = scavenge) || !inDoubt s d)
  if isSafe s (channelDie c) then s
  else if beforeReady s then refuseWrite s w pg CH_CMD
  else if !launchAllowed s c w ws addr then setChannel s c { channel s c with lastStatus := sDENIED, lastReason := 0 }
  else if launchRefused s c cls budget copyOut then setChannel s c { channel s c with lastStatus := sREFUSED, lastReason := 0 }
  else startScript (freshOp s).1 c { newScript w s.nextOp addr cls (now s d + budget) ws with copyOnly := draining s d }

/-- A stop through the channel page (R210): only the holder's has effect. -/
def channelStop (s : State) (w : Agent) (c : Nat) : State :=
  if isSafe s (channelDie c) then s
  else if holder s (pgChannel c) ≠ w then refuseWrite s w (pgChannel c) CH_CMD
  else stopScript s c rDeadline

/-- A write to the engine's `CNT_CLEAR` (Table 10-5); a 1 in a reserved bit is refused. -/
def hoistClear (s : State) (w : Agent) (e : Nat) (v : W32) : State :=
  let pg := pgEngine e
  if isSafe s (e / 32) then s
  else if v.toNat / 2 ≠ 0 then refuseWrite s w pg H_CNT_CLEAR
  else if v = 1 then wr (wr (wr s pg AMAX_TOTAL 0) pg H_SAT_TOTAL 0) pg H_NAN_TOTAL 0
  else s

/-- CHANNEL_LAUNCH: a write of 1 to a channel's CMD. -/
def execChannelLaunch (w : Agent) (c : Fin 256) (s : State) : Out := .next (channelLaunch s w c)

/-- CHANNEL_STOP: a write of 2 to a channel's CMD. -/
def execChannelStop (w : Agent) (c : Fin 256) (s : State) : Out := .next (channelStop s w c)

/-- HOIST_CNT_CLEAR: a write to the engine's CNT_CLEAR. -/
def execHoistCntClear (w : Agent) (e : Fin 64) (value : W32) (s : State) : Out := .next (hoistClear s w e value)

end Sys2Proof.Machine
end

