-- ==== Sys2Proof/Machine/Keys.lean ====
section
/-!
DEFINITION. The security page's commands: tensor keys, version floors and revocation (R356, R358).
-/

namespace Sys2Proof.Machine

/-- Bytes of a register range, low byte first. -/
def regBytes (s : State) (pg off words : Nat) : List Byte := (List.range words).flatMap (fun i => toLE 4 (rd s pg (off + 4 * i)).toNat)

/-- The eighty bytes of `KEY_IN`. -/
def keyIn (s : State) : List Byte := regBytes s pgSecurity KEY_IN 20

/-- `TENSOR_ID` and `KEY_EPOCH` named in `KEY_IN`. -/
def keyTensor (s : State) : W32 := BitVec.ofNat 32 (leAt (keyIn s) 0 4)
def keyEpoch (s : State) : Nat := leAt (keyIn s) 4 1

/-- The host and the acting headframe reach the key registers (R358). -/
def mayKey (s : State) (w : Agent) : Bool := decide (w = ⟨btHost, 0⟩) || decide (w = acting s 0)

/-- A key command by a writer that has access; `act` is the outcome and the new table. -/
def keyCmd (s : State) (w : Agent) (act : Nat × List TensorKey) : State :=
  if isSafe s 0 then s
  else if !mayKey s w then refuseWrite s w pgSecurity KEY_CMD
  else { s with security := { s.security with keyResult := act.1, keys := act.2 } }

/-- The pair named in `KEY_IN` is held. -/
def pairHeld (s : State) : Bool := s.security.keys.any (fun k => decide (k.tensor = keyTensor s) && decide (k.epoch = keyEpoch s))

/-- Generations held of the tensor named in `KEY_IN`. -/
def generations (s : State) : Nat := (s.security.keys.filter (fun k => decide (k.tensor = keyTensor s))).length

/-- Outcome of an install. -/
def installKey (s : State) : Nat × List TensorKey :=
  let ks := s.security.keys
  match s.security.kek with
  | none => (sDENIED, ks)
  | some kek =>
    match Crypto.keyUnwrap kek (sliceB (keyIn s) 8 72) with
    | none => (sPOISONED, ks)
    | some key =>
      if pairHeld s || decide (2 ≤ generations s) || decide (2048 ≤ ks.length) || decide (keyEpoch s = 0) then (sREFUSED, ks)
      else (sOK, ks ++ [⟨keyTensor s, keyEpoch s, key⟩])

/-- Outcome of retiring one generation. -/
def retireOne (s : State) : Nat × List TensorKey :=
  if pairHeld s then
    (sOK, s.security.keys.filter (fun k => !(decide (k.tensor = keyTensor s) && decide (k.epoch = keyEpoch s))))
  else (sREFUSED, s.security.keys)

/-- KEY_INSTALL. -/
def execKeyInstall (w : Agent) (s : State) : Out := .next (keyCmd s w (installKey s))

/-- KEY_RETIRE_ONE. -/
def execKeyRetireOne (w : Agent) (s : State) : Out := .next (keyCmd s w (retireOne s))

/-- KEY_RETIRE_ALL: every generation of the tensor. -/
def execKeyRetireAll (w : Agent) (s : State) : Out :=
  .next (keyCmd s w (sOK, s.security.keys.filter (fun k => decide (k.tensor ≠ keyTensor s))))

-- floors and revocation (R356) --------------------------------------------------------------------------------------------------

/-- Floor of an image type after it rises to the version of the image running now. -/
def raised (old : Nat) (im : Option Image) : Nat := match im with
  | some i => Nat.max old i.svn
  | none => old

/-- A write to `SVN_RAISE`: its only writer is the acting headframe. -/
def svnRaise (s : State) (w : Agent) (v : W32) : State :=
  let n := v.toNat
  let f := s.security.floors
  let want := bitsOf n 15 8
  let stope := bitsOf n 2 2 == 1
  if isSafe s 0 then s
  else if w ≠ acting s 0 ∨ n / 2 ^ 16 ≠ 0 ∨ bitsOf n 7 3 ≠ 0 ∨ (stope = true ∧ (64 < want ∨ want < f.getD 2 0)) then
    refuseWrite s w pgSecurity SVN_RAISE
  else
    { s with security := { s.security with floors :=
      [if bitsOf n 0 0 = 1 then raised (f.getD 0 0) s.security.hf else f.getD 0 0,
       if bitsOf n 1 1 = 1 then raised (f.getD 1 0) s.security.fm else f.getD 1 0,
       if stope then want else f.getD 2 0] } }

/-- A write to `REVOKE`. -/
def revokeWrite (s : State) (w : Agent) (v : W32) : State :=
  let n := v.toNat
  let slot := n % 4
  let next := if s.security.revoked.contains slot then s.security.revoked else slot :: s.security.revoked
  if isSafe s 0 then s
  else if w ≠ acting s 0 ∨ n / 2 ^ 5 ≠ 0 ∨ bitsOf n 3 2 ≠ 0 then refuseWrite s w pgSecurity REVOKE
  else if bitsOf n 4 4 = 0 then s
  else if 4 ≤ next.length ∨ s.security.hf.any (fun i => i.slot == slot) then refuseWrite s w pgSecurity REVOKE
  else { s with security := { s.security with revoked := next } }

/-- SVN_RAISE_HEADFRAME. -/
def execSvnRaiseHeadframe (w : Agent) (s : State) : Out := .next (svnRaise s w 1)

/-- SVN_RAISE_FOREMAN. -/
def execSvnRaiseForeman (w : Agent) (s : State) : Out := .next (svnRaise s w 2)

/-- SVN_RAISE_STOPE: the stope floor rises to the value written. -/
def execSvnRaiseStope (w : Agent) (floor : Byte) (s : State) : Out := .next (svnRaise s w (BitVec.ofNat 32 (4 + 256 * floor.toNat)))

/-- REVOKE. -/
def execRevoke (w : Agent) (slot : Fin 4) (s : State) : Out := .next (revokeWrite s w (BitVec.ofNat 32 (16 + slot.val)))

end Sys2Proof.Machine
end

