-- ==== Sys2Proof/Machine/PinCmds.lean ====
section
/-!
DEFINITION. Tachometers, timestamp captures and the I3C dynamic address (R376, R379).
-/

namespace Sys2Proof.Machine

/-- TACHOMETER_EDGE: a falling edge on GPIO4 to GPIO7. -/
def execTachometerEdge (fan : Fin 4) (s : State) : Out :=
  .next (if s.boot.released && pinHas s (4 + fan) 4 then
      { s with pins := { s.pins with edges := Sparse.upd 0 s.pins.edges fan (fun n => n + 1) } }
    else s)

/-- Payload of a speed notice: 16-bit speeds in rev/min, two edges to a revolution, over the time since the last notice. -/
def speeds (s : State) : List Byte :=
  (List.range 4).flatMap (fun i => toLE 2 (Nat.min 65535 (30000000000 * Sparse.get 0 s.pins.edges i / (elapsed s - s.pins.noticeAt))))

/-- TACHOMETER_NOTICE: once per second; a post that is REFUSED is repeated. -/
def execTachometerNotice (s : State) : Out :=
  .next (if !booting s || decide (s.boot.step < 1) || decide (elapsed s < s.pins.noticeAt + 1000000000) then s
    else
      let r := postNotice s 17 0xF3 (speeds s)
      if r.2 = some sREFUSED then r.1 else { r.1 with pins := { r.1.pins with edges := [], noticeAt := elapsed s } })

/-- A rising edge latches the global time `t`; one that finds all eight places held is lost, and any other within 1 µs of the last latched is not
latched. `u` is the instant in SCLK time. -/
def Capture.edge (x : Capture) (t u : Ns) : Capture :=
  let soon := match x.last with
    | some v => decide (u < v + 1000)
    | none => false
  if 8 ≤ x.held.length then { x with lost := Nat.min 255 (x.lost + 1) }
  else if soon then x
  else { x with held := x.held ++ [t], last := some u }

/-- CAPTURE_EDGE: GPIO8 to GPIO15. -/
def execCaptureEdge (capture : Fin 8) (s : State) : Out :=
  .next (if s.boot.released && pinHas s (8 + capture) 5 then
      { s with pins := { s.pins with captures := Sparse.upd Capture.reset s.pins.captures capture (fun x => x.edge (now s 0) (elapsed s)) } }
    else s)

/-- CAPTURE_NOTICE: the oldest held time is posted; a post that is REFUSED is repeated. -/
def execCaptureNotice (capture : Fin 8) (s : State) : Out :=
  .next (
    let x := Sparse.get Capture.reset s.pins.captures capture
    match x.held with
    | [] => s
    | t :: rest =>
      if !booting s || decide (s.boot.step < 1) then s
      else
        let r := postNotice s 17 0xF2 (toLE 8 t ++ toLE 1 capture ++ toLE 1 x.lost)
        if r.2 = some sREFUSED then r.1
        else { r.1 with pins := { r.1.pins with captures := Sparse.set Capture.reset r.1.pins.captures capture { x with held := rest, lost := 0 } } })

/-- Provisional ID of R379. -/
def provisionalId : Nat := 2 ^ 33 * Config.mipiId.toNat + Config.serial.toNat % 2 ^ 32

/-- ENTDAA: the target sends its provisional ID and takes the dynamic address. -/
def execEntdaa (bus : Fin 2) (address : BitVec 7) (s : State) : Out :=
  .next (if i3cActive s bus ∧ (i3c s bus).dyn = none then
      emit (setI3c s bus { i3c s bus with dyn := some address.toNat }) (.i3cAddress bus provisionalId)
    else s)

end Sys2Proof.Machine
end

