-- ==== Sys2Proof/Machine/PowerHeat.lean ====
section
/-!
DEFINITION. Power domains, operating points, rails, module power and heat (chapter 17, R19, R367, R372).
-/

namespace Sys2Proof.Machine

-- domains (R19, R322 to R325) -------------------------------------------------------------------------------------------------

/-- A write to `DOM_CMD`: its writers are the foreman itself and the acting headframe; a domain that is changing refuses (R325, R334). -/
def domCmd (s : State) (w : Agent) (f : Fin 8) (idx : Nat) (on : Bool) : State :=
  let pg := pgForeman f
  let allowed := decide (w = acting s (f.val / 4)) || (decide (w = ⟨btForeman, f.val⟩) && !foremanFailed s f)
  if isSafe s (f.val / 4) then s
  else if !allowed || decide (12 ≤ idx) then refuseWrite s w pg DOM_CMD
  else
    let n := localDomain f idx
    ranked s w pg DOM_CMD (domainUndo s f) (fun t =>
      if domain t n = 1 ∨ domain t n = 3 then refuseWrite t w pg DOM_CMD else requestDomain t n on)

/-- DOMAIN_ON. -/
def execDomainOn (w : Agent) (f : Fin 8) (idx : Nat) (s : State) : Out := .next (domCmd s w f idx true)

/-- DOMAIN_OFF. -/
def execDomainOff (w : Agent) (f : Fin 8) (idx : Nat) (s : State) : Out := .next (domCmd s w f idx false)

/-- A stack as its domain powers on: at reset, with the kept remaps in force (R344). -/
def stackOn (s : State) (k : Nat) : State :=
  let kept := ((history s (k / 4)).remaps.filter (fun r => r.1 = k)).map (fun r => (r.2.1, r.2.2))
  let pg := pgStack k
  let s1 := setStack (clearBody s pg) k { Stack.reset with remaps := kept }
  wr (wr s1 pg REMAPS (BitVec.ofNat 32 kept.length)) pg SPARES_LEFT (BitVec.ofNat 32 (0xC0000 - kept.length))

/-- A port as its domain powers on; in bring-up it begins full training at once (Table 16-2). -/
def portPowered (s : State) (p : Nat) : State :=
  let s1 := setPort (clearBody s (pgPort p)) p Port.reset
  if (service s (portDie p)).state < 2 then startTraining s1 p else s1

/-- DOMAIN_POWERED_UP: its blocks are at their reset values, and commits they took while off are applied. -/
def execDomainPoweredUp (dom : Fin 96) (s : State) : Out :=
  .next (if domain s dom = 1 then
      let s1 := setDomain s dom 2
      let s2 := if dom.val < 64 then s1 else if dom.val < 72 then stackOn s1 (dom.val - 64) else portPowered s1 (dom.val - 72)
      takeChanges (applyWaiting s2 dom) (domainOwner dom)
    else s)

/-- Requests wait at a stack controller that have not failed by their deadline (R19, R21). -/
def stackBusy (s : State) (k : Nat) : Bool := (stack s k).queue.any (fun x => !accLate s x)

/-- A frame that holds the power of its port on: one of an accepted operation whose deadline has not passed (R19); a FILL's is that of the GET it
serves. A message without a deadline holds none. -/
def holdsPower (t : Ns) (f : LFrame) : Bool := f.p.transit && decide (f.p.rank < 2 ^ 64) && decide (t < f.p.rank)

/-- The blocks of a domain hold no accepted operation (R19 step 2); a frame whose deadline has passed is one that has failed by it. -/
def domainQuiet (s : State) (n : Nat) : Bool :=
  if n < 64 then (halfStopes n).all (fun i =>
    let x := stope s i
    decide (x.out = []) && decide (x.queue = []) &&
    !s.canaries.any (fun c => decide (c.st.val ^^^ 1 = i)))
  else if n < 72 then !stackBusy s (n - 64)
  else ((port s (n - 72)).queue ++ (port s (n - 72)).held).all (fun f => !holdsPower (now s (portDie (n - 72))) f)

/-- The requests left at a stack, all past their deadline, are dropped. -/
def dropRequests (s : State) (k : Nat) : State :=
  (stack s k).queue.foldl (fun t x => accessDone t x ⟨[], false, false, false, 0, true⟩) (setStack s k { stack s k with queue := [] })

/-- What the removal of power leaves of a stack, whose contents are lost (R158), or of a port. -/
def partOff (s : State) (n : Nat) : State :=
  if n < 72 then setDomain (setStack (clearBody (zeroStack (dropRequests s (n - 64)) (n - 64)) (pgStack (n - 64))) (n - 64) Stack.reset) n 0
  else setDomain (setPort (clearBody s (pgPort (n - 72))) (n - 72) { Port.reset with st := 0 }) n 0

/-- DOMAIN_POWER_REMOVED: the wait of R19 has ended. -/
def execDomainPowerRemoved (dom : Fin 96) (s : State) : Out :=
  .next (if domain s dom = 3 ∧ domainQuiet s dom = true then
      takeChanges (if dom.val < 64 then halfOff s dom else partOff s dom) (domainOwner dom)
    else s)

-- operating points (R327, R328) -----------------------------------------------------------------------------------------------------

/-- DVFS_CLOCK_SWITCH: a lowering waits for the operations accepted before it. -/
def execDvfsClockSwitch (die : Die) (s : State) : Out :=
  .next (
    let v := dvfs s die
    if v.target.isSome ∧ v.switched = false ∧ (longOps s die).all (fun o => !v.waitOps.contains o) = true then
      setDvfs s die { v with switched := true, waitOps := [] }
    else s)

/-- DVFS_CHANGE_END: `DVFS_STATE` takes the new point. -/
def execDvfsChangeEnd (die : Die) (s : State) : Out :=
  .next (match (dvfs s die).target with
    | some t => if (dvfs s die).switched then setDvfs s die { point := t, target := none, switched := false, waitOps := [] } else s
    | none => s)

/-- `DETAIL` of a lost PLL lock. -/
def pllDetail : Pll → Nat
  | .cclk => 0
  | .mclk => 1
  | .hclk => 2
  | .bclk => 3

/-- PLL_LOCK_LOSS: a fault of the die, judged by count. -/
def execPllLockLoss (die : Die) (pll : Pll) (s : State) : Out :=
  .next (if s.boot.released then report s ⟨die, ⟨btDie, die⟩, 9, .count, pllDetail pll, none⟩ else s)

-- rails and the input (R330, R331, R367, R372) -------------------------------------------------------------------------------------------

/-- Number of a rail, for the counts of samples. -/
def railNum : Rail → Nat
  | .vcore d => d
  | .vsram => 2
  | .vaon => 3
  | .vlink => 4
  | .vhbm k => 5 + k
  | .vio => 13

/-- Row of Table 17-7. -/
def railRow : Rail → Nat
  | .vcore _ => 0
  | .vsram => 1
  | .vaon => 2
  | .vlink => 3
  | .vhbm _ => 4
  | .vio => 5

/-- The die that records a rail, and the unit it serves; a rail of both dies is recorded against die 0 (log entry 53). -/
def railUnit : Rail → Nat × Agent
  | .vcore d => (d, ⟨btDie, d⟩)
  | .vhbm k => (k / 4, ⟨btStack, k⟩)
  | _ => (0, ⟨btDie, 0⟩)

/-- The dies that a rail, or for `none` the input, feeds. -/
def railDies : Option Rail → List Nat
  | some (.vcore d) => [d]
  | some (.vhbm k) => [k / 4]
  | _ => [0, 1]

/-- A rail out of bounds for ten samples: it is recorded and judged, and the device, or in split mode each die that it feeds, enters the
safe state with reason 0x06; REPLACE_N is asserted where the judgement is permanent (R330, Table 18-10). -/
def railFails (s : State) (ds : List Nat) (d : Nat) (u : Agent) (detail : Nat) : State :=
  let r := recordEvent s ⟨d, u, 0x0A, .count, detail, none⟩
  let t := if r.2 < 2 then r.1 else takeOut r.1 u
  ds.foldl (fun x e => dieFail x e 6 6 (decide (2 ≤ r.2))) t

/-- Ten samples in a row have been out of bounds: the tenth falls now, or fell before the release of a reset that still finds them so. -/
def railDue (s : State) (ds : List Nat) (n : Nat) : Bool :=
  s.boot.released && (decide (n = 10) || (decide (10 < n) && ds.any (fun d => !isSafe s d)))

/-- RAIL_SAMPLE. -/
def execRailSample (r : Rail) (inBounds : Bool) (s : State) : Out :=
  .next (if !s.power.pwrGood then s
    else
      let n := if inBounds then 0 else Sparse.get 0 s.power.railOut (railNum r) + 1
      let p := s.power
      let s1 := { s with power := { p with
        railOut := Sparse.set 0 p.railOut (railNum r) n, railBad := Sparse.set false p.railBad (railNum r) (!inBounds) } }
      if railDue s1 (railDies r) n then railFails s1 (railDies r) (railUnit r).1 (railUnit r).2 (railRow r) else s1)

/-- INPUT_SAMPLE: below 36 V or above 63 V PWR_GOOD deasserts; ten samples outside 40 V to 60 V are a rail out of bounds of die 0.
Below 36 V the hold of a thermal trip ends (R372). -/
def execInputSample (millivolts : Nat) (s : State) : Out :=
  .next (
    let p := s.power
    let n := if 40000 ≤ millivolts ∧ millivolts ≤ 60000 then 0 else p.inputOut + 1
    let s1 := { s with power := { p with inputMv := millivolts, inputOut := n, tripOff := p.tripOff && decide (36000 ≤ millivolts) } }
    if millivolts < 36000 ∨ 63000 < millivolts then powerLost s1
    else if p.pwrGood && railDue s1 (railDies none) n then railFails s1 (railDies none) 0 ⟨btDie, 0⟩ 0xFF
    else s1)

/-- POWER_MONITOR_REPORT: the mean over the last 1 ms. -/
def execPowerMonitorReport (meanWatts : Nat) (s : State) : Out :=
  .next (if !s.power.pwrGood then s
    else
      let cap := if s.power.capped then decide (2300 ≤ meanWatts) else decide (2400 < meanWatts)
      let s1 := { s with power := { s.power with meanW := meanWatts, capped := cap } }
      if cap && !s.power.capped then bump s1 (pgDie 0) CAP_EVENTS 1 else s1)

/-- THERMTRIP: the trip is latched whatever state the device is in, and the carrier removes power, until the input has been below 36 V (R369,
R372). -/
def execThermtrip (s : State) : Out :=
  .next (
    let s1 := powerLost s
    emit { s1 with power := { s1.power with trip := true, tripOff := decide (36000 ≤ s1.power.inputMv) } } .thermtrip)

-- heat (R332) ------------------------------------------------------------------------------------------------------------------------

/-- Step after a sample: thresholds act on the first sample, exits after every sample of 1 ms below. -/
def stepAfter (x : HalfLevel) (c : Nat) (t : Ns) : Nat :=
  let cool (h : Option Ns) : Bool := match h with
    | some t0 => decide (t0 + 1000000 ≤ t)
    | none => false
  if 110 ≤ c then 3
  else if 102 ≤ c then Nat.max 2 x.step
  else if x.step ≤ 1 then (if 95 ≤ c then 1 else if x.step = 1 ∧ cool x.lt92 = true then 0 else x.step)
  else if x.step = 2 then (if cool x.lt92 then 0 else if cool x.lt98 then 1 else 2)
  else 3

/-- JUNCTION_SAMPLE. -/
def execJunctionSample (hl : Fin 64) (celsius : Byte) (s : State) : Out :=
  .next (
    let d := hl.val / 32
    let c := celsius.toNat
    let t := elapsed s
    let x := halfLevel s hl
    let from_ (held : Bool) (old : Option Ns) : Option Ns := if held then some (old.getD t) else none
    let x1 := { x with temp := c, lt92 := from_ (decide (c < 92)) x.lt92, lt98 := from_ (decide (c < 98)) x.lt98 }
    let n := stepAfter x1 c t
    let s1 := setHalfLevel s hl { x1 with step := n }
    if !s.boot.released then s
    else
      let s2 := if x.step = 0 ∧ n ≠ 0 then bump s1 (pgForeman (quadOf (256 * d + 16 * (hl.val % 32 / 2) + 8 * (hl.val % 2)))) THERM_EVENTS 1 else s1
      let s3 := if x.step < 2 ∧ 2 ≤ n then bump s2 (pgDie d) THROTTLES 1 else s2
      if n = 3 ∧ isSafe s d = false then
        dieFail (report s3 ⟨d, ⟨btDie, d⟩, 0x0C, .never, c, none⟩) d 7 5 false
      else s3)

end Sys2Proof.Machine
end

