-- ==== Sys2Proof/Machine/Stacks.lean ====
section
/-!
DEFINITION. Stack controllers: accesses whole per sector, errors and spare regions, refresh, thermal states and the
withdrawal notice (R158 to R169, R272, R380, R381).
-/

namespace Sys2Proof.Machine

-- the withdrawal notice (R272) --------------------------------------------------------------------------------------------

/-- Body of a notice (Table 13-5): `st` 1 withdrawn, 0 restored. -/
def noticeBody (s : State) (k st count : Nat) : List Byte :=
  toLE 8 count ++ toLE 8 (nodeDie s (k / 4) + 2 ^ 16 * k + 2 ^ 19 * st + 2 ^ 24 * rThermal) ++ toLE 8 (now s (k / 4)) ++
  List.replicate 40 0

/-- Send a withdrawal notice: a 64-byte Express MCPUT, if it is enabled and the device is the group's root; otherwise it is
counted as not sent. Its originator's kind is the model's choice (log entry 16). -/
def sendNotice (s : State) (k st : Nat) : State :=
  let d := k / 4
  let ctl := BitVec.ofNat 32 (liveReg s d WD_CTL)
  let g := fld ctl 7 0
  if fld ctl 8 8 = 0 then s
  else
    let s1 := bump s (pgTime d) WD_COUNT 1
    let count := (rd s1 (pgTime d) WD_COUNT).toNat
    let a := g * 2 ^ 50 + (liveReg s d WD_ADDR_LO + 2 ^ 32 * liveReg s d WD_ADDR_HI) % 2 ^ 50
    if !isRoot s d g then s1
    else if inDoubt s d || !remoteOk 5 0 a 64 then bump s1 (pgRmop d) MC_FAIL 1
    else
      let q := freshOp s1
      let m := newMsg s1 d 3 d 5 0 0 a 64 (now s d + promise s d 0) 0 (noticeBody s k st count)
      addOp q.1 d (newOp s1 d q.2 .notice m 0 0) 0

-- accesses (R160, R161) --------------------------------------------------------------------------------------------------------

/-- The 4 KiB region of an access of space 0. -/
def accRegion (x : Access) : Nat := aOff x.addr / 4096

/-- Two accesses share a sector. -/
def shareSector (x y : Access) : Bool :=
  overlaps (x.addr / 32 * 32) (ceilDiv (x.addr % 32 + x.len) 32 * 32) (y.addr / 32 * 32) (ceilDiv (y.addr % 32 + y.len) 32 * 32)

/-- The access to perform first so that each sector's accesses keep their order of arrival. -/
def arrivalFirst : Nat → List Access → Access → Access
  | 0, _, x => x
  | fuel + 1, q, x =>
    match q.find? (fun y => shareSector x y) with
    | some y => if y.id = x.id then x else arrivalFirst fuel (q.takeWhile (fun z => z.id ≠ x.id)) y
    | none => x

/-- The requests of a controller that are not held; an access to a region being copied is (R166). -/
def Stack.free (st : Stack) : List Access := st.queue.filter (fun x => !st.remapping.contains (accRegion x))

/-- The request whose turn it is: earliest deadline first, each sector in order of arrival (R160, R161). -/
def stackNext (st : Stack) : Option Access := (edfHead st.free).map (arrivalFirst st.free.length st.free)

/-- Place of the row buffer that serves an access, and its row (R381). -/
def rowPlace (x : Access) : Nat := pseudoChannel (aOff x.addr) + 64 * dramBank (aOff x.addr)
def rowOpen (st : Stack) (x : Access) : Bool := decide (Sparse.get none st.openRows (rowPlace x) = some (dramRow (aOff x.addr)))

/-- The requests that the strict sequence performs before `x`. -/
def rankedBefore (x : Access) (q : List Access) : List Access :=
  q.filter (fun y => servedBefore y x || (!servedBefore x y && (q.takeWhile (fun z => z.id ≠ x.id)).any (fun z => z.id = y.id)))

/-- The request that a controller may take ahead of its turn (R161): one of an open row, the first of its sector, none before which has
waited since its own turn for 32 HCLK cycles (26 whole ns). -/
def stackAhead (st : Stack) (t : Ns) : Option Access :=
  edfHead (st.free.filter (fun x =>
    rowOpen st x && !((st.free.takeWhile (fun z => z.id ≠ x.id)).any (shareSector x)) &&
    (rankedBefore x st.free).all (fun y => match y.passed with
      | none => true
      | some t0 => decide (t < t0 + 26))))

/-- The request that a controller performs: in turn, or, where it asks for it and one may go, ahead of its turn. -/
def stackTakes (st : Stack) (t : Ns) (ahead : Bool) : Option Access :=
  match if ahead then stackAhead st t else none with
  | some x => some x
  | none => stackNext st

/-- A request leaves the queue to be performed: those before it have been passed over, and its row is open from now on. -/
def stackTake (st : Stack) (t : Ns) (x : Access) : Stack :=
  let earlier := rankedBefore x st.free
  { st with
    queue := (st.queue.filter (fun y => y.id ≠ x.id)).map (fun y =>
      if earlier.any (fun z => z.id = y.id) ∧ y.passed = none then { y with passed := some t } else y)
    openRows := Sparse.set none st.openRows (rowPlace x) (some (dramRow (aOff x.addr))) }

/-- The sectors of an access, by their first byte (low 50 bits). -/
def sectorsOf (x : Access) : List Nat := (List.range (ceilDiv (x.addr % 32 + x.len) 32)).map (fun i => x.addr / 32 * 32 + 32 * i)

/-- The access reads a sector: every read, and a write of part of it. -/
def readsSector (x : Access) (w : Nat) : Bool :=
  decide (x.kind = .read) || decide (w < x.addr) || decide (x.addr + x.len < w + 32)

/-- A corrected read is counted; at the region's third since reset a copy to a spare begins, where one is left, and a copy that runs
is waited for (R165, R166). -/
def correctedAt (s : State) (k w : Nat) : State :=
  let g := aOff w / 4096
  let s1 := bump s (pgStack k) CE_COUNT 1
  let st := stack s1 k
  let n := Sparse.get 0 st.corrected g + 1
  let st1 := { st with corrected := Sparse.set 0 st.corrected g n }
  setStack s1 k (if n = 3 ∧ st.remapping.length < (rd s1 (pgStack k) SPARES_LEFT).toNat then
    { st1 with remapping := st.remapping ++ [g] } else st1)

/-- What the ECC meets in the sectors that an access reads. -/
def meetErrors (s : State) (k : Nat) (x : Access) (errs : List SectorErr) : State :=
  errs.foldl (fun t e =>
    let w := low50 (aDie x.addr * 2 ^ 49 + e.offset / 32 * 32)
    if (sectorsOf x).contains w && readsSector x w then (if e.fatal then markBad t w else correctedAt t k w) else t) s

/-- A listed region of a faulty stack answers POISONED (Table 18-8). -/
def regionListed (s : State) (x : Access) : Bool :=
  s.faulty.contains (memUnit x.addr) && (history s (aDie x.addr)).ue.contains (regionOf s x.addr)

/-- Perform a request in full (R160): its data, and whether it met an uncorrectable error. -/
def stackPerform (s : State) (x : Access) : State × Piece :=
  let bad := (sectorsOf x).filter (fun w => isBad s w && readsSector x w)
  let s1 := bad.foldl metError s
  let poison := decide (bad ≠ []) || regionListed s x
  match x.kind with
  | .read => (s1, ⟨if poison then [] else readMem s x.addr x.len, false, poison, false, 0, false⟩)
  | _ => ((store s1 x.addr x.data).1, ⟨[], false, poison, false, 0, false⟩)

/-- STACK_ACCESS: one request is performed, and only then answered (R162), or dropped at its deadline; whether the controller reaches an open row out of turn is a free
value (R161; log entry 18). -/
def execStackAccess (k : Fin 8) (errs : List SectorErr) (s : State) : Out :=
  .next (match stackTakes (stack s k) (now s (k.val / 4)) (Config.takesAhead s.free) with
    | none => s
    | some x =>
      let d := k.val / 4
      let s1 := setStack (freshValue s).1 k (stackTake (stack s k) (now s d) x)
      if x.deadline ≤ now s d ∧ homeBegun s x = false then accessDone s1 x ⟨[], false, false, false, 0, true⟩
      else
        let s2 := match x.client with
          | .home e id _ => setLayer s1 e { layer s1 e with homes := (layer s1 e).homes.map (fun h => if h.id = id then { h with begun := true } else h) }
          | _ => s1
        let r := stackPerform (meetErrors s2 k x errs) x
        accessDone r.1 x r.2)

/-- REGION_REMAP_DONE: the region is redirected to the next spare, the remap is recorded, and its accesses go on (R166, R344). -/
def execRegionRemapDone (k : Fin 8) (s : State) : Out :=
  .next (match (stack s k).remapping with
    | [] => s
    | g :: rest =>
      let d := k.val / 4
      let pg := pgStack k
      let left := (rd s pg SPARES_LEFT).toNat
      let spare := 0xC0000 - left
      let s1 := setStack s k { stack s k with remapping := rest, remaps := (stack s k).remaps ++ [(g, spare)] }
      let s2 := wr (bump s1 pg REMAPS 1) pg SPARES_LEFT (BitVec.ofNat 32 (left - 1))
      let h := history s2 d
      let kept := decide ((h.remaps.filter (fun r => r.1 = k.val)).length < 24576)
      let s3 := setHistory s2 d (if kept then { h with remaps := h.remaps ++ [(k.val, g, spare)] } else { h with remapLost := h.remapLost + 1 })
      report s3 ⟨d, ⟨btStack, k⟩, 0x06, .never, spare, some (0, g)⟩)

/-- REFRESH: the controller refreshes its stack; a critical one, and each of a safe die, refreshes itself (R161, R168, R350). -/
def execRefresh (k : Fin 8) (s : State) : Out :=
  .next (if stackCritical s k ∨ domain s (domStack k) ≠ 2 ∨ isSafe s (k.val / 4) = true then s else setStack s k { stack s k with refreshAt := elapsed s })

-- heat (R167 to R169) -------------------------------------------------------------------------------------------------------------

/-- Since when a condition on every sample has held. -/
def since (held : Bool) (t : Ns) (old : Option Ns) : Option Ns := if held then some (old.getD t) else none

/-- The condition has held for at least `n` ns. -/
def heldFor (x : Option Ns) (t n : Nat) : Bool := match x with
  | some t0 => decide (t0 + n ≤ t)
  | none => false

/-- Set a stack's bits of `TIME.THROTTLE`, as its foreman does: 0 full, 1 half, 2 zero. -/
def setThrottle (s : State) (k bulk scav : Nat) : State :=
  let pg := pgTime (k / 4)
  let j := k % 4
  wr s pg THROTTLE (putFld (putFld (rd s pg THROTTLE) (4 * j + 1) (4 * j) bulk) (4 * j + 3) (4 * j + 2) scav)

/-- Every operation with a request at a controller completes FAILED with reason thermal at once (R168). -/
def failStackQueue (s : State) (k reason : Nat) : State :=
  ((stack s k).queue).foldl (fun t x => match x.client with
    | .home d id _ => failHome t d id reason
    | _ => accessDone t x ⟨[], false, false, false, reason, false⟩) (setStack s k { stack s k with queue := [] })

/-- Enter the critical state. -/
def stackCriticalEntry (s : State) (k : Nat) : State :=
  let s1 := bump (setStack s k { stack s k with thermal := 2 }) (pgStack k) CRIT_EVENTS 1
  sendNotice (failStackQueue s1 k rThermal) k 1

/-- Enter the hot state: Scavenge 0, Bulk half, or 0 at 95 °C or above (Table 08-4). -/
def stackHotEntry (s : State) (k c : Nat) : State :=
  setThrottle (bump (setStack s k { stack s k with thermal := 1 }) (pgStack k) HOT_EVENTS 1) k (if 95 ≤ c then 2 else 1) 2

/-- STACK_TEMP_SAMPLE: in the safe state the stacks refresh themselves and serve nothing, so a sample is only kept (R350; log entry 144). -/
def execStackTempSample (k : Fin 8) (celsius : Byte) (s : State) : Out :=
  .next (
    let c := celsius.toNat
    let t := elapsed s
    if domain s (domStack k) ≠ 2 then s
    else
      let x := stack s k
      let x1 := { x with lastTemp := c, le80 := since (decide (c ≤ 80)) t x.le80, lt95 := since (decide (c < 95)) t x.lt95,
                         le95 := since (decide (c ≤ 95)) t x.le95 }
      let s1 := setStack s k x1
      if isSafe s (k.val / 4) then s1 else
      match x.thermal with
      | 0 => if c < 85 then s1 else if c < 105 then stackHotEntry s1 k c else stackCriticalEntry (stackHotEntry s1 k c) k
      | 1 =>
        if 105 ≤ c then stackCriticalEntry s1 k
        else if heldFor x1.le80 t 1000000 then setThrottle (setStack s1 k { x1 with thermal := 0 }) k 0 0
        else if 95 ≤ c then setThrottle s1 k 2 2
        else if heldFor x1.lt95 t 1000000 then setThrottle s1 k 1 2
        else s1
      | _ => s1)

/-- A write of 1 to `RESUME` (R169, R170). -/
def stackResume (s : State) (w : Agent) (k : Nat) : State :=
  let pg := pgStack k
  let x := stack s k
  if isSafe s (k / 4) then s
  else if !isParent s w pg || decide (domain s (domStack k) ≠ 2) || !heldFor x.le95 (elapsed s) 10000000 then
    refuseWrite s w pg RESUME
  else ranked s w pg RESUME [] (fun t =>
    if x.thermal ≠ 2 then t
    else
      let t1 := if x.lastTemp ≤ 80 then setThrottle (setStack t k { x with thermal := 0 }) k 0 0
        else setThrottle (bump (setStack t k { x with thermal := 1 }) pg HOT_EVENTS 1) k 1 2
      sendNotice t1 k 0)

/-- STACK_RESUME. -/
def execStackResume (w : Agent) (k : Fin 8) (s : State) : Out := .next (stackResume s w k)

/-- STACK_ZEROING_DONE: the stack holds 0 throughout and opens (R158, R380). -/
def execStackZeroingDone (k : Fin 8) (s : State) : Out :=
  .next (if domain s (domStack k) = 2 ∧ (stack s k).open_ = false then
      bootProgress (setStack (zeroStack s k) k { stack s k with open_ := true })
    else s)

end Sys2Proof.Machine
end

