-- ==== Sys2Proof/Machine/TimeOps.lean ====
section
/-!
DEFINITION. Global time: exchanges with peers and over the bridge, sources, agreement, time-doubt, the time pulse, and the registers of
the time page that act (R259, R264, R267 to R271, R377).
-/

namespace Sys2Proof.Machine

/-- `ROOT_EN` and `PPS_EN` of die 0, live. Only die 0 can be a root (R269). -/
def isTimeRoot (s : State) (d : Nat) : Bool := decide (d = 0) && decide (liveReg s 0 TIME_CTL % 2 = 1)
def ppsOn (s : State) : Bool := decide (liveReg s 0 TIME_CTL / 2 % 2 = 1)

-- sources (R268) ---------------------------------------------------------------------------------------------------------

/-- A candidate: number (port of the device, or 24), `DIST` and peer node-die (0 for the bridge, which wins ties). -/
structure Candidate where
  num : Nat
  dist : Nat
  peer : Nat
deriving DecidableEq, Repr

/-- Ports of die `d` that are up, in time wait or quarantined and whose peer is not in doubt, and the bridge. -/
def candidates (s : State) (d : Nat) : List Candidate :=
  let ps := ((List.range 12).map (fun i => 12 * d + i)).filter (fun p =>
    let x := port s p
    portOn s p && !isSafe s d && decide (3 ≤ x.st ∧ x.st ≤ 5) && !x.peerDoubt && decide (x.peerDist < 15))
  let t := timeBlk s d
  let br : List Candidate := if !s.split && decide (s.bridge.st = 2) && !t.bridgeDoubt && decide (t.bridgeDist < 15) then
    [⟨24, t.bridgeDist, 0⟩] else []
  br ++ ps.map (fun p => ⟨p, (port s p).peerDist, 1 + fld (rd s (pgPort p) PEER) 14 0⟩)

/-- The better of two candidates: the smaller `DIST`, then the bridge, then the lowest peer node-die, then the lowest port. -/
def Candidate.before (a b : Candidate) : Bool :=
  decide (a.dist < b.dist) || (decide (a.dist = b.dist) && (decide (a.peer < b.peer) || (decide (a.peer = b.peer) && decide (a.num < b.num))))

def bestOf : List Candidate → Option Candidate
  | [] => none
  | c :: rest => match bestOf rest with
    | none => some c
    | some d => if d.before c then some d else some c

/-- Choose the die's source afresh. A change of source starts the count of agreeing exchanges again. -/
def chooseSource (s : State) (d : Nat) : State :=
  let t := timeBlk s d
  if isTimeRoot s d then setTime s d { t with src := 31, dist := 0 }
  else match bestOf (candidates s d) with
    | none => setTime s d { t with src := 31, dist := 15 }
    | some c => setTime s d { t with
        src := c.num, dist := Nat.min 15 (c.dist + 1), good := if c.num = t.src then t.good else 0, bad := if c.num = t.src then t.bad else 0 }

-- time-doubt (R270, R271) -------------------------------------------------------------------------------------------------------

/-- A promised operation: Express, Rollout or Bulk. -/
def promised (o : ROp) : Bool := decide (o.msg.cls.toNat < 3)

/-- A port goes from up to time wait until two exchanges in a row agree again. -/
def timeWait (s : State) (p : Nat) : State :=
  let x := port s p
  if x.st = 5 then event (setPort s p { x with st := 4, good := 0 }) (pgPort p)
  else if x.st = 4 then setPort s p { x with good := 0 } else s

/-- Die `d` enters time-doubt. -/
def enterDoubt (s : State) (d : Nat) : State :=
  let t := timeBlk s d
  let s1 := bump (setTime s d { t with st := 2, doubtAt := some (elapsed s), good := 0, bad := 0, ppsRow := 0 }) (pgTime d) DOUBT_COUNT 1
  let s2 := (List.range 12).foldl (fun u i => timeWait u (12 * d + i)) s1
  let s3 := failOps s2 d rTimeDoubt promised
  flush (setLayer s3 d { layer s3 d with cache := [] }) d

/-- Die `d` is agreed, from unset or out of doubt. -/
def agreeTime (s : State) (d : Nat) : State := setTime s d { timeBlk s d with st := 1, doubtAt := none, bad := 0 }

-- exchanges (R267) -----------------------------------------------------------------------------------------------------------------

/-- Offset of the peer and path delay, from the four instants. -/
def offsetOf (t1 t2 t3 t4 : Nat) : Int := (((t2 : Int) - t1) - ((t4 : Int) - t3)) / 2
def delayOf (t1 t2 t3 t4 : Nat) : Int := (((t4 : Int) - t1) - ((t3 : Int) - t2)) / 2

/-- A valid exchange with the die's source: it sets, agrees, keeps or loses the die's time (R268, R270). -/
def sourceExchange (s : State) (d : Nat) (theta delay : Int) : State :=
  let t := timeBlk s d
  let s1 := wr (wr s (pgTime d) OFFSET_NS (BitVec.ofInt 32 theta)) (pgTime d) DELAY_NS (BitVec.ofInt 32 delay)
  if !t.isSet then setTime s1 d { t with
    now := (t.now + theta).toNat, isSet := true, good := 0, bad := 0, theta := theta, delay := delay.toNat }
  else
    let t1 := { t with
      good := if theta.natAbs ≤ 25 then t.good + 1 else 0, bad := if 1000 < theta.natAbs then t.bad + 1 else 0
      theta := theta, delay := delay.toNat, slew := -theta }
    let s2 := setTime s1 d t1
    if t.st ≠ 1 ∧ 2 ≤ t1.good then agreeTime s2 d
    else if t.st = 1 ∧ 2 ≤ t1.bad then enterDoubt s2 d
    else s2

/-- A valid exchange with a peer: where it could be the die's source, it renews the 10 ms of R270; the source is chosen, and acts if it is this
one. -/
def validExchange (s : State) (d num : Nat) (theta delay : Int) : State :=
  let could := (candidates s d).any (fun c => c.num = num)
  let s1 := chooseSource (if could then setTime s d { timeBlk s d with lastValid := elapsed s } else s) d
  if (timeBlk s1 d).src = num then sourceExchange s1 d theta delay else s1

/-- A time frame joins the port's queue. -/
def queueTime (s : State) (p : Nat) : State := queueOwn s p (.time (stampTime s p))

/-- TIME_FRAME: kept, answered unless it is an answer, and used where the exchange is valid. -/
def execTimeFrame (port : Fin 24) (bytes : List Byte) (s : State) : Out :=
  let p := port.val
  let d := portDie p
  let r := receive s p bytes 3
  .next (match r.2 with
    | none => r.1
    | some f =>
      let s1 := consume r.1 p f
      let x := Machine.port s1 p
      let tx := leAt f.body 0 8
      let e := leAt f.body 8 8
      let rx := leAt f.body 16 8
      let t4 := now s1 d
      let theta := offsetOf e rx tx t4
      let answer := decide (e ≠ 0) && decide (e = x.lastTx)
      let good := if e = 0 then x.good else if 25 < theta.natAbs then 0 else if x.st = 5 then 2 else x.good + 1
      let s2 := setPort s1 p { x with
        peerTx := tx, peerRx := t4, peerDist := bitsOf (leAt f.body 24 4) 3 0, peerDoubt := bitsOf (leAt f.body 24 4) 4 4 == 1, good := good
        theta := if e = 0 then x.theta else theta }
      let s3 := if e = 0 then chooseSource s2 d else validExchange s2 d p theta (delayOf e rx tx t4)
      let s4 := if (Machine.port s3 p).st = 5 then s3 else applyAgree s3 p false
      if answer then s4 else queueTime s4 p)

/-- TIME_FRAME_TIMER: every 1 ms on a port that is up, in time wait or quarantined; an answer does not put it off. -/
def execTimeFrameTimer (port : Fin 24) (s : State) : Out :=
  let x := Machine.port s port
  let t := elapsed s
  .next (if linkRuns s port && decide (3 ≤ x.st) && decide (x.timeSent + 1000000 ≤ t) then
    queueTime (setPort s port { x with timeSent := t }) port else s)

/-- One frame of the bridge exchange, from die `d`, which stamps it `tx`, to die `1 − d`, which receives it at `rx`; `own` where it is the die's
own of each 1 ms, no answer. -/
def bridgeFrame (s : State) (d tx rx : Nat) (own : Bool) : State :=
  let e := 1 - d
  let a := timeBlk s d
  let b := timeBlk s e
  let s1 := setTime s d { a with bridgeTx := tx, bridgeSent := if own then elapsed s else a.bridgeSent }
  let s2 := setTime s1 e { b with bridgePeerTx := tx, bridgePeerRx := rx, bridgeDist := a.dist, bridgeDoubt := decide (a.st ≠ 1) }
  if a.bridgePeerTx = 0 then chooseSource s2 e
  else validExchange s2 e 24 (offsetOf a.bridgePeerTx a.bridgePeerRx tx rx) (delayOf a.bridgePeerTx a.bridgePeerRx tx rx)

/-- BRIDGE_TIME_EXCHANGE: every 1 ms a die's time block sends over the bridge, and the other answers (R269). -/
def execBridgeTimeExchange (die : Die) (s : State) : Out :=
  let d := die.val
  let t := timeBlk s d
  let u := timeBlk s (1 - d)
  let k := Config.bridgeDelay
  .next (if decide (s.bridge.st = 2) && !s.split && !isSafe s d && decide (t.bridgeSent + 1000000 ≤ elapsed s) then
    bridgeFrame (bridgeFrame s d t.now (u.now + k) true) (1 - d) (u.now + k) (t.now + 2 * k) false
  else s)

-- timeouts -----------------------------------------------------------------------------------------------------------------------------

/-- The source of a die is chosen from its candidates as they stand; a candidate that has gone is none (R268). -/
def tendSource (s : State) (d : Nat) : State := if isSafe s d then s else chooseSource s d

/-- TIME_SOURCE_TIMEOUT: an agreed die that is no root, without a valid exchange with any peer that could be its source for 10 ms: which is also
the loss of its source port where no other takes its place. -/
def execTimeSourceTimeout (die : Die) (s : State) : Out :=
  let d := die.val
  let t := timeBlk s d
  .next (if decide (t.st = 1) && !isTimeRoot s d && !isSafe s d && decide (t.lastValid + 10000000 ≤ elapsed s) then enterDoubt (chooseSource s d) d else s)

/-- Die `d` has been in doubt without a break for 60 s. -/
def longDoubt (s : State) (d : Nat) : Bool := match (timeBlk s d).doubtAt with
  | some t => decide ((timeBlk s d).st = 2) && decide (t + 60000000000 ≤ elapsed s)
  | none => false

/-- TIME_DOUBT_SAFE_TIMEOUT: 60 s of time-doubt lead to the safe state with reason 0x02. -/
def execTimeDoubtSafeTimeout (s : State) : Out :=
  .next ([0, 1].foldl (fun t d => if longDoubt s d then enterSafe t d 2 false else t) s)

/-- How far a count is ahead of the nearest whole second, in ns (R377). -/
def aheadOfSecond (t : Ns) : Int :=
  let r := t % nsPerSecond
  if r ≤ 500000000 then r else (r : Int) - nsPerSecond

/-- PPS_EDGE: a rising edge of TIME_PPS that stays high for `highNs`; at one that is taken a root finds how far it is from the whole second
(R377). -/
def execPpsEdge (highNs : Nat) (s : State) : Out :=
  let t := timeBlk s 0
  let fresh : State := setTime s 0 { t with ppsRef := some t.now, ppsRow := 0 }
  .next (if !ppsOn s || decide (highNs < 100) then s
  else match t.ppsRef with
    | none => fresh
    | some r =>
      if 1001000000 < t.now - r then fresh
      else if t.now - r < 999000000 then s
      else
        let s1 := setTime s 0 { t with
          ppsRef := some t.now, ppsAt := t.now, ppsRow := t.ppsRow + 1, slew := if isTimeRoot s 0 then aheadOfSecond t.now else t.slew }
        if t.st = 2 ∧ isTimeRoot s 0 = true ∧ 2 ≤ t.ppsRow + 1 then agreeTime s1 0 else s1)

/-- PPS_ABSENCE_TIMEOUT: a root with `PPS_EN` and no TIME_PPS edge taken for 2 s (R270). -/
def execPpsAbsenceTimeout (s : State) : Out :=
  let t := timeBlk s 0
  .next (if isTimeRoot s 0 && ppsOn s && decide (t.st = 1) && decide (t.ppsAt + 2000000000 ≤ t.now) && !isSafe s 0 then enterDoubt s 0 else s)

-- registers of the time page that act ------------------------------------------------------------------------------------------------------

/-- A write to `FLOOR_TARGET` (R259): `FLOOR_NS` reads the floor of that target from then on. Space 3 and reserved bits are refused. -/
def floorTarget (s : State) (w : Agent) (d : Nat) (v : W32) : State :=
  let pg := pgTime d
  if isSafe s d then s
  else if 2 ^ 17 ≤ v.toNat ∨ fld v 16 15 = 3 then refuseWrite s w pg FLOOR_TARGET
  else
    let floor := (routeFloor s d (fld v 14 0) (fld v 16 15)).getD 0xFFFFFFFF
    wr (wr s pg FLOOR_TARGET v) pg FLOOR_NS (BitVec.ofNat 32 floor)

/-- A write to `THROTTLE` (R264, R273): the headframe writes all of it, a foreman of the die its own stack's bits. -/
def throttleWrite (s : State) (w : Agent) (d : Nat) (v : W32) : State :=
  let pg := pgTime d
  let old := (rd s pg THROTTLE).toNat
  let own := decide (w.ty = btForeman) && decide (w.inst / 4 = d)
  let sh := 4 * (w.inst % 4)
  let new := if own then old - bitsOf old (sh + 3) sh * 2 ^ sh + bitsOf v.toNat (sh + 3) sh * 2 ^ sh else v.toNat
  if isSafe s d then s
  else if !(decide (w = acting s d) || own) then refuseWrite s w pg THROTTLE
  else if 2 ^ 16 ≤ new ∨ (List.range 8).any (fun i => bitsOf new (2 * i + 1) (2 * i) == 3) = true then refuseWrite s w pg THROTTLE
  else ranked s w pg THROTTLE [] (fun t => wr t pg THROTTLE (BitVec.ofNat 32 new))

/-- FLOOR_TARGET_WRITE. -/
def execFloorTargetWrite (w : Agent) (die : Die) (value : W32) (s : State) : Out := .next (floorTarget s w die.val value)

/-- THROTTLE_WRITE. -/
def execThrottleWrite (w : Agent) (die : Die) (value : W32) (s : State) : Out := .next (throttleWrite s w die.val value)

/-- TIME_LO_READ: the read latches bits [63:32] into `TIME_HI`; its data is returned. -/
def execTimeLoRead (die : Die) (s : State) : Out :=
  let t := timeBlk s die.val
  .next (emit (setTime s die.val { t with hiLatch := BitVec.ofNat 32 (t.now / 2 ^ 32) }) (.readData (toLE 4 t.now)))

end Sys2Proof.Machine
end

