-- ==== Sys2Proof/Machine/Pages.lean ====
section
/-!
DEFINITION. Control accesses: what a write to a page does, what a read does, and how an access reaches its page (R8, R9, R17, R276, R289 to
R299, R318, R379); the profile's commit and copies.
-/

namespace Sys2Proof.Machine

-- the profile (R297 to R299) ---------------------------------------------------------------------------------------------------

/-- Half of a table entry written. -/
def putHalf (t : Sparse W64) (o : Nat) (v : W32) : Sparse W64 :=
  let sh := 32 * (o / 4 % 2)
  Sparse.upd 0 t (o / 8) (fun e => putFld e (sh + 31) sh v.toNat)

/-- The writable bits of a half of a route entry (Table 12-6) and of a multicast entry (Table 12-7): the others are RO and ignore a write
(R9). -/
def routeHalf (o : Nat) (v : W32) : W32 := if o / 4 % 2 = 0 then v &&& 0x1FFF1FFF else v &&& 0xF7FF
def mcHalf (o : Nat) (v : W32) : W32 := if o / 4 % 2 = 0 then v else v &&& 0xF

/-- `UP` of a half of a multicast entry is not reserved. -/
def mcHalfOk (o : Nat) (v : W32) : Bool := decide (o / 4 % 2 ≠ 0) || decide (fld v 28 24 < 24) || decide (fld v 28 24 = 31)

/-- A write to a staged table: only by the holder of the route-table write lock, while the old generation has drained (R250, R297). -/
def tableWrite (s : State) (w : Agent) (pg off : Nat) (v : W32) : State :=
  let d := pg / 8192
  let kj := pageKind d (pg % 8192)
  let r := router s d
  let o := 4096 * kj.2 + off
  if holder s (pgRouter d) ≠ w ∨ oldDrained s d = false then refuseWrite s w pg off
  else match kj.1 with
    | .stagedRoutes => setRouter s d { r with other := { r.other with routes := putHalf r.other.routes o (routeHalf o v) } }
    | .stagedMc =>
      if 2048 ≤ off then s
      else if mcHalfOk o v then setRouter s d { r with other := { r.other with mc := putHalf r.other.mc o (mcHalf o v) } } else refuseWrite s w pg off
    | _ => s

/-- The staged value of a profile register of the time page. -/
def stagedTime (s : State) (d off : Nat) : W32 := profReg (router s d).other d off

/-- Limits of a staged profile register (R256, R261, Table 13-6). -/
def profileOk (s : State) (d off : Nat) (v : W32) : Bool :=
  let n := v.toNat
  let st (o : Nat) : Nat := if o = off then n else (stagedTime s d o).toNat
  if off = PROM_EXP ∨ off = PROM_ROL ∨ off = PROM_BULK then
    decide (2000 ≤ n) && decide (n ≤ (if off = PROM_EXP then 1000000 else if off = PROM_ROL then 10000000 else 1000000000)) &&
    decide (st PROM_EXP ≤ st PROM_ROL) && decide (st PROM_ROL ≤ st PROM_BULK)
  else if off = SHARES then
    let sum := fld v 5 0 + fld v 13 8 + fld v 21 16
    decide (sum ≤ 56) && decide (fld v 29 24 + sum ≤ 64)
  else if off = WINDOW_NS then decide (1000 ≤ n) && decide (n ≤ 100000)
  else true

/-- The writer has authority over the profile's time fields: the ranks 1 and 2 of R17, and, as the holder of what the profile's writers lease, the
holder of the route-table write lock (R297; log entry 127). -/
def mayProfile (s : State) (w : Agent) (pg : Nat) : Bool := isParent s w pg || decide (holder s (pgRouter (pg / 8192)) = w)

/-- A write to a profile register changes the staged copy. -/
def profileWrite (s : State) (w : Agent) (pg off : Nat) (v : W32) : State :=
  let d := pg / 8192
  if !mayProfile s w pg || !oldDrained s d || !profileOk s d off v then refuseWrite s w pg off
  else ranked s w pg off [] (fun t =>
    let r := router t d
    setRouter t d { r with other := { r.other with tregs := Sparse.set none r.other.tregs off (some v) } })

/-- The time block of die 0 after a commit: a new root is agreed at once, and `PPS_EN` that has become 1 has no reference edge (R268, R377). -/
def rootCommitted (old s : State) : State :=
  let t := timeBlk s 0
  let s1 := if ppsOn s && !ppsOn old then setTime s 0 { t with ppsRef := none, ppsAt := t.now, ppsRow := 0 } else s
  let s2 := if isTimeRoot s 0 && !isTimeRoot old 0 then agreeTime (setTime s1 0 { timeBlk s1 0 with isSet := true }) 0 else s1
  if isTimeRoot s 0 = isTimeRoot old 0 then s2 else chooseSource s2 0

/-- A write of `g` to `DEVICE.BLK_COMMIT` on the page that serves die `d`: the staged copies become live as one change. -/
def profileCommit (s : State) (w : Agent) (d : Nat) (g : W32) : State :=
  let pg := devPage s d 0
  let ds := deviceDies s d
  if isSafe s d then s
  else if g.toNat ≠ (genLive s d + 1) % 65536 ∨ oldDrained s d = false then refuseWrite s w pg BLK_COMMIT
  else
    let newFill (e : Nat) : Bool := decide (stagedTime s e SHARES ≠ profReg (router s e).live e SHARES) ||
      decide (stagedTime s e WINDOW_NS ≠ profReg (router s e).live e WINDOW_NS)
    let flip (t : State) (e : Nat) : State :=
      let r := router t e
      setRouter (if newFill e then settleBuckets t e else t) e { r with live := { r.other with gen := g.toNat }, other := r.live }
    let s1 := ds.foldl flip s
    let s2 := { s1 with undrained := ds ++ s1.undrained }
    setIrq (wr (if ds.contains 0 then rootCommitted s s2 else s2) pg BLK_COMMIT g) pg 4

/-- A queued frame carries a generation. -/
def QFrame.carries (q : QFrame) (g : Nat) : Bool := match q.p with
  | .op m => decide (m.gen.toNat = g)
  | .notice m => decide (m.gen.toNat = g)
  | _ => false

/-- No frame queued in the routers of these dies carries their old generation, and no multicast copy that they have still to forward. -/
def oldGone (s : State) (ds : List Nat) : Bool := ds.all (fun d =>
  !(router s d).queue.any (fun q => q.carries (genOld s d)) &&
  !(layer s d).inbox.any (fun i => decide (i.m.opc = 5) && decide (i.m.gen.toNat = genOld s d)))

/-- PROFILE_COMMIT. -/
def execProfileCommit (w : Agent) (die : Die) (g : W32) (s : State) : Out := .next (profileCommit s w die g)

/-- PROFILE_COPY_START: the old generation has drained, and each live copy is copied into the old one. -/
def execProfileCopyStart (die : Die) (s : State) : Out :=
  .next (let ds := deviceDies s die
    if s.undrained.contains die.val && !s.copying.contains die.val && oldGone s ds then { s with copying := ds ++ s.copying } else s)

/-- PROFILE_COPY_DONE: that copy becomes the staged copy, and `OLD_DRAINED` reads 1. -/
def execProfileCopyDone (die : Die) (s : State) : Out :=
  .next (if s.copying.contains die.val then
      let ds := deviceDies s die
      let s1 := ds.foldl (fun t d => let r := router t d
        setRouter t d { r with other := { r.live with gen := r.other.gen } }) s
      { s1 with undrained := s1.undrained.filter (fun d => !ds.contains d), copying := s1.copying.filter (fun d => !ds.contains d) }
    else s)

-- what a field's own rule asks of a value (R8, R294) ----------------------------------------------------------------------------

/-- A global address lies on die `d` of this device, in space 0 or 1, by its high half. -/
def highHere (s : State) (d : Nat) (v : W32) : Bool := decide (fld v 31 17 = nodeDie s d) && decide (fld v 16 15 < 2)

/-- A read-mostly region with one of its fields written (R227): where its size is not 0 it lies in the die's own space 0 or
1, and in one range of R26. -/
def regionOk (s : State) (d off : Nat) (v : W32) : Bool :=
  let pg := pgRmop d
  let b := off / 16 * 16
  let st (o : Nat) : Nat := (if o = off then v else rdStaged s pg o).toNat
  let base := st b + 2 ^ 32 * st (b + 4)
  (decide (off % 16 ≠ 4) || highHere s d v) &&
  (decide (st (b + 8) = 0) || (highHere s d (BitVec.ofNat 32 (st (b + 4))) && inRange base (4096 * st (b + 8))))

/-- Values outside a register's range, by page kind. -/
def valueOk (s : State) (k : PageKind) (d j off : Nat) (v : W32) : Bool :=
  let n := v.toNat
  let between (a b : Nat) : Bool := decide (a ≤ n) && decide (n ≤ b)
  match k with
  | .die => decide (off ≠ DVFS_POINT) || decide (n ≤ 4)
  | .rmop =>
    if off = RETRY_NS then between 1000 100000
    else if off = RC_LIFE then between 1 1000
    else if off = RC_BANKS then decide (popcount 16 n ≤ 4) && !(decide (d = 0) && decide (n % 2 = 1))
    else if RM_REGION ≤ off then regionOk s d off v else true
  | .assay =>
    let pg := pgAssay (4 * d + j)
    if off = ASSAY_CTL then
      decide (fld v 2 0 ≤ 4) && decide (fld v 5 3 ≤ 5) && (decide (fld v 5 3 = 0) || decide (17 ≤ fld (rdStaged s pg CANARY_SIZE) 8 0))
    else if off = CANARY_SIZE then decide (17 ≤ n) || decide (fld (rdStaged s pg ASSAY_CTL) 5 3 = 0)
    else true
  | .history => if off = DRAIN_WIN then between 10 60000 else if COPY_BASE ≤ off ∧ off % 16 = 4 then highHere s d v else true
  | .host => if off = RQ_SIZE ∨ off = CQ_SIZE then between 6 16 else true
  | _ => true

/-- Management-only fields that are plain RWS registers (R130, R235, R278, R333, R361, R362). -/
def isManaged (k : PageKind) (off : Nat) : Bool :=
  match k with
  | .stope | .host => decide (0x100 ≤ off)
  | .security => true
  | .rmop => decide (off = SYS_EPOCH) || decide (off = RC_BANKS) || decide (RM_REGION ≤ off)
  | .die => true
  | _ => false

/-- The writer has authority over such a field; the foremen of a die are delegated writers of `DVFS_POINT` (R17). -/
def mayManage (s : State) (w : Agent) (pg : Nat) (k : PageKind) : Bool :=
  isParent s w pg ||
  (match k with
   | .die => decide (w.ty = btForeman) && decide (w.inst / 4 = pg / 8192) && !foremanFailed s w.inst
   | _ => false)

/-- RW registers that their own rule exempts from the refusal of a busy block (R294, R313, Table 14-5). -/
def busyExempt (k : PageKind) (off : Nat) : Bool :=
  match k with
  | .headframe => decide (PROFILE_IN ≤ off)
  | .host => decide (AP_BASE ≤ off)
  | _ => false

-- writes to one register ------------------------------------------------------------------------------------------------------------

/-- `EXCL`: the holder, the control parent and the acting headframe write it (R148). -/
def exclWrite (s : State) (w : Agent) (pg : Nat) (v : W32) : State :=
  if holds (holder s pg) w = true ∨ isParent s w pg = true then wr s pg EXCL v else refuseWrite s w pg EXCL

/-- Mailbox `CTL`: its `MODE` is management-only, and is not changed while the mailbox holds a notice (R284). -/
def mailboxCtl (s : State) (w : Agent) (m : Nat) (v : W32) : State :=
  let pg := pgMailbox m
  if fld v 0 0 ≠ fld (rd s pg M_CTL) 0 0 ∧ (isParent s w pg = false ∨ mailbox s m ≠ []) then refuseWrite s w pg M_CTL
  else wr s pg M_CTL v

/-- A write to a port's `CMD` (Table 12-9). -/
def portCommand (s : State) (w : Agent) (p : Nat) (v : W32) : State :=
  match v.toNat with
  | 0 => portCmd s w p (fun t => t)
  | 1 => portCmd s w p (fun t => startFast t p)
  | 2 => portCmd s w p (fun t => startTraining t p)
  | _ => portCmd s w p (fun t => requestDomain t (domPort p) false)

/-- A write to `PROG_CMD` (R133). -/
def progCommand (s : State) (w : Agent) (n : Nat) (v : W32) : State :=
  match v.toNat with
  | 0 => s
  | 1 => progLoad s w n
  | 2 => progLaunch s w n
  | _ => progStop s n

/-- A write to a channel's `CMD`: 3 is reserved. -/
def channelCommand (s : State) (w : Agent) (c : Nat) (v : W32) : State :=
  match v.toNat with
  | 0 => s
  | 1 => channelLaunch s w c
  | 2 => channelStop s w c
  | _ => refuseWrite s w (pgChannel c) CH_CMD

/-- A write to `KEY_CMD`: 0 is reserved. -/
def keyCommand (s : State) (w : Agent) (v : W32) : State :=
  match v.toNat with
  | 1 => keyCmd s w (installKey s)
  | 2 => keyCmd s w (retireOne s)
  | 3 => keyCmd s w (sOK, s.security.keys.filter (fun k => decide (k.tensor ≠ keyTensor s)))
  | _ => refuseWrite s w pgSecurity KEY_CMD

/-- A write to `DOM_CMD` (Table 17-10). -/
def domainCommand (s : State) (w : Agent) (f : Nat) (v : W32) : State :=
  if fld v 5 4 = 1 ∨ fld v 5 4 = 2 then domCmd s w (Fin.ofNat 8 f) (fld v 3 0) (decide (fld v 5 4 = 1))
  else refuseWrite s w (pgForeman f) DOM_CMD

/-- Fields that act on writing, or are judged by a rule of their own: `none` where the field is a plain register. -/
def ownWrite (s : State) (w : Agent) (k : PageKind) (d j off : Nat) (v : W32) : Option State :=
  match k with
  | .headframe =>
    if off = ASSIGN then some (assignNode s w v) else if d = 0 ∧ PROFILE_IN ≤ off then some (profileInWrite s off v)
    else if off = PIN_FUNC_LO ∨ off = PIN_FUNC_HI then some (pinFuncWrite s w (decide (off = PIN_FUNC_HI)) v) else none
  | .security =>
    if off = SVN_RAISE then some (svnRaise s w v) else if off = REVOKE then some (revokeWrite s w v)
    else if off = KEY_CMD then some (keyCommand s w v)
    else if KEY_IN ≤ off ∧ off < 0x0B0 then some (if mayKey s w then wr s pgSecurity off v else refuseWrite s w pgSecurity off)
    else none
  | .time =>
    if off = FLOOR_TARGET then some (floorTarget s w d v) else if off = THROTTLE then some (throttleWrite s w d v)
    else if isProfile off then some (profileWrite s w (pgTime d) off v) else none
  | .foreman => if off = DOM_CMD then some (domainCommand s w (4 * d + j) v) else none
  | .stack => if off = RESUME then some (if v = 1 then stackResume s w (4 * d + j) else if isParent s w (pgStack (4 * d + j)) then s else refuseWrite s w (pgStack (4 * d + j)) RESUME) else none
  | .port => if off = P_CMD then some (portCommand s w (12 * d + j) v) else none
  | .host =>
    if off = Q_CMD then some (queueCmd s w v) else if off = RQ_TAIL then some (rqTail s w v) else if off = CQ_HEAD then some (cqHead s w v)
    else if off = DOORBELL then some (doorbellClear s v) else if off = DB_MASK_HOST then some (dbMaskHost s w v)
    else if off = DB_MASK_HF then some (dbMaskHf s w v) else none
  | .mailbox =>
    if off = M_CTL then some (mailboxCtl s w j v) else if off = M_POP then some (if v = 1 then pop s j else s)
    else if M_POST ≤ off then some (post s j (toLE 4 v.toNat)) else none
  | .pillar =>
    if off = MODE then some (modeWrite s w (Fin.ofNat 544 (256 * d + j)) v.toNat)
    else if off = EXCL then some (exclWrite s w (pgBank (256 * d + j)) v) else none
  | .gallery =>
    if off = MODE then some (modeWrite s w (Fin.ofNat 544 (512 + 16 * d + j)) v.toNat)
    else if off = EXCL then some (exclWrite s w (pgBank (512 + 16 * d + j)) v) else none
  | .engine => if off = H_CNT_CLEAR then some (hoistClear s w (32 * d + j) v) else none
  | .channel => if off = CH_CMD then some (channelCommand s w (128 * d + j) v) else none
  | .stope => if off = PROG_CMD then some (progCommand s w (256 * d + j) v) else none
  | .outlier => if off = F_CNT_CLEAR then some (faceClear s w (256 * d + j) v) else none
  | _ => none

/-- A write to the common header (Table 15-2). A bit of `BLK_IRQ_STATUS` that stands interrupts when its mask bit goes from 0 to 1 (log entry
128). -/
def headerWrite (s : State) (w : Agent) (pg off : Nat) (r : Reg) (v : W32) : State :=
  if off = BLK_OWNER then
    match resOf pg with
    | some res => ownerWrite s w res ⟨v.toNat / 65536, v.toNat % 65536⟩
    | none => s
  else if off = BLK_LEASE_END then
    match resOf pg with
    | some res => leaseWrite s w res v
    | none => s
  else if off = BLK_COMMIT then
    if pg % 8192 = 0 then profileCommit s w (pg / 8192) v else takeSnapshot s (pg / 8192) (pg % 8192) v
  else if r.acc = .w1c then wr s pg off (rd s pg off &&& ~~~v)
  else if off = BLK_IRQ_MASK then
    parentIrq (wr s pg off v) pg (v &&& ~~~(rd s pg off)).toNat (rd s pg BLK_IRQ_STATUS).toNat
  else wr s pg off v

/-- A write to a plain register past the header: staged, cleared bit by bit, or at once. -/
def plainWrite (s : State) (w : Agent) (pg off : Nat) (k : PageKind) (r : Reg) (v : W32) : State :=
  let d := pg / 8192
  let j := (pageKind d (pg % 8192)).2
  if !valueOk s k d j off v then refuseWrite s w pg off
  else match r.acc with
    | .rws =>
      if !isManaged k off then wrStaged s pg off v
      else if !mayManage s w pg k then refuseWrite s w pg off
      else ranked s w pg off [] (fun t => wrStaged t pg off v)
    | .w1c => wr s pg off (rd s pg off &&& ~~~v)
    | .rw => if pageBusy s pg && !busyExempt k off then refuseWrite s w pg off else wr s pg off v
    | _ => s

/-- `CMD` fields that are never refused, even where the block has no power: a port's, and a stope's 0 and 3 (R133, R255, R292). -/
def neverRefused (k : PageKind) (off : Nat) (v : W32) : Bool :=
  match k with
  | .port => decide (off = P_CMD)
  | .stope => decide (off = PROG_CMD) && (decide (v = 0) || decide (v = 3))
  | _ => false

/-- The registers that software writes and whose other bits their table lists as RO: a write ignores those (R9; Tables 04-6, 15-5 to 15-7). -/
def roRest (k : PageKind) (off : Nat) : Bool :=
  decide (off = BLK_CTL) || decide (off = BLK_ERR) || decide (off = BLK_IRQ_STATUS) || decide (off = BLK_IRQ_MASK) ||
  (decide (k = .outlier) && decide (off = FB_CTL))

/-- What a write leaves in the safe state: nothing, but for the record of a refusal that the field's own rule makes (R292, R313, R321). -/
def safeWrite (s : State) (w : Agent) (pg off : Nat) (v : W32) : State :=
  if pg ≠ pgHeadframe 0 then s
  else if off = ASSIGN then assignNode s w v
  else if off = PIN_FUNC_LO ∨ off = PIN_FUNC_HI then pinFuncWrite s w (decide (off = PIN_FUNC_HI)) v
  else s

/-- A 32-bit write that reaches a page (R8, R9, R292, R294). -/
def writeWord (s : State) (w : Agent) (pg0 off : Nat) (v0 : W32) : State :=
  let pg := servePage s pg0
  let d := pg / 8192
  let kj := pageKind d (pg % 8192)
  let v := if roRest kj.1 off then v0 &&& BitVec.ofNat 32 (((regOf pg off).map (fun r => r.mask)).getD 0) else v0
  if isSafe s d then safeWrite s w pg off v
  else match regOf pg off with
    | none => s
    | some r =>
      if (kj.1 = .liveRoutes ∨ (kj.1 = .liveMc ∧ off < 2048)) then refuseWrite s w pg off
      else if 0x40 ≤ off ∧ pageOn s pg = false ∧ neverRefused kj.1 off v = false then refuseWrite s w pg off
      else if r.acc = .ro ∨ r.acc = .rc then s
      else if isTable kj.1 then tableWrite s w pg off v
      else if v.toNat &&& (2 ^ 32 - 1 - r.mask) ≠ 0 then refuseWrite s w pg off
      else if off < 0x40 then headerWrite s w pg off r v
      else match ownWrite s w kj.1 d kj.2 off v with
        | some t => t
        | none => plainWrite s w pg off kj.1 r v

/-- The same write, with whether it was refused: the count of refused writes moves by more than the writes of others that it made give way
(R17). -/
def writeJudged (s : State) (w : Agent) (pg off : Nat) (v : W32) : State × Bool :=
  let dp := devPage s (pg / 8192) 0
  let t := writeWord (wr s dp REFUSED_COUNT 0) w pg off v
  let n := (rd t dp REFUSED_COUNT).toNat
  let lost := (s.ranked.filter (fun e => e.by_ ≠ w ∧ !t.ranked.contains e)).length
  (bump (wr t dp REFUSED_COUNT (rd s dp REFUSED_COUNT)) dp REFUSED_COUNT n, decide (n ≤ lost))

/-- A write of 4 or 8 aligned bytes: where either half would be refused, neither takes effect (R290). -/
def writeSpan (s : State) (w : Agent) (pg off : Nat) (bytes : List Byte) : State × Bool :=
  let lo := writeJudged s w pg off (BitVec.ofNat 32 (leAt bytes 0 4))
  if bytes.length = 4 then lo
  else
    let hi := writeJudged lo.1 w pg (off + 4) (BitVec.ofNat 32 (leAt bytes 4 4))
    if lo.2 && hi.2 then (hi.1, true) else (refuseWrite s w (servePage s pg) (if lo.2 then off + 4 else off), false)

-- reads -------------------------------------------------------------------------------------------------------------------------------

/-- A 32-bit read that reaches a page: an RC register is cleared, `TIME_LO` latches `TIME_HI`, and offset 0x07C of the history page advances
`READ_IDX` (R9, R273, R345). -/
def readWord (s : State) (pg0 off : Nat) : State × W32 :=
  let pg := servePage s pg0
  let d := pg / 8192
  let kj := pageKind d (pg % 8192)
  let v := regValue s pg off
  match regOf pg off with
  | none => (s, v)
  | some r =>
    if kj.1 = .level ∧ off = MESH_STALLS then ((freshValue s).1, v)
    else if r.acc = .rc ∧ pageOn s pg = true then (wr s pg off 0, v)
    else if kj.1 = .time ∧ off = TIME_LO then
      (setTime s d { timeBlk s d with hiLatch := BitVec.ofNat 32 (now s d / 2 ^ 32) }, v)
    else if kj.1 = .history ∧ off = 0x07C then (wr s pg READ_IDX (BitVec.ofNat 32 (((rd s pg READ_IDX).toNat + 1) % 65536)), v)
    else (s, v)

/-- A read of 4 or 8 aligned bytes. -/
def readSpan (s : State) (pg off n : Nat) : State × List Byte :=
  let lo := readWord s pg off
  if n = 4 then (lo.1, toLE 4 lo.2.toNat)
  else
    let hi := readWord lo.1 pg (off + 4)
    (hi.1, toLE 4 lo.2.toNat ++ toLE 4 hi.2.toNat)

/-- A control access is 4 or 8 bytes, naturally aligned (R290). -/
def wellSized (off n : Nat) : Bool := (decide (n = 4) || decide (n = 8)) && decide (off % n = 0)

/-- A write that begins in `POST`: a post, though only a whole one of 64 bytes is kept (R285). -/
def isPost (pg off : Nat) : Bool := decide ((pageKind (pg / 8192) (pg % 8192)).1 = .mailbox) && decide (M_POST ≤ off) && decide (off < 0x140)

/-- Any write of allowed size. -/
def writePage (s : State) (w : Agent) (pg off : Nat) (bytes : List Byte) : State × Bool :=
  if isPost pg off then (post s (pageKind (pg / 8192) (pg % 8192)).2 (if off = M_POST then bytes else []), true) else writeSpan s w pg off bytes

-- how an access reaches its page (R276, R290, R318, R379) ----------------------------------------------------------------------------------

/-- The block type and instance that `REFUSED_INFO` names for a peer's operation. -/
def peerAgent (m : Msg) : Agent :=
  ⟨match m.kind.toNat with
   | 0 => btStope
   | 1 => btHoist
   | 2 => btHost
   | 3 => btHeadframe
   | _ => btRouter, m.agent.toNat⟩

/-- A remote operation of wrong size or alignment: `BLK_ERR.BAD_ACCESS` in the page, if it exists. -/
def badAccess (s : State) (pg0 : Nat) : State :=
  let pg := servePage s pg0
  let k := (pageKind (pg / 8192) (pg % 8192)).1
  if k = .reserved ∨ isTable k = true then s else blkErr s pg 1

/-- Global page of a space-2 offset on die `d`; pages past 8,191 are reserved. -/
def pageOf (d a : Nat) : Nat := if aOff a / 4096 < 8192 then gpage d (aOff a / 4096) else gpage d 0x1FFF

/-- A remote operation writes a control page: its status (R290). -/
def remoteWrite (s : State) (m : Msg) (d : Nat) (data : List Byte) : State × Nat :=
  let a := m.addr.toNat
  let pg := pageOf d a
  let off := a % 4096
  if !wellSized off data.length && !isPost pg off then (badAccess s pg, sDENIED)
  else
    let r := writePage s (originator s m) pg off data
    if r.2 then (r.1, sOK)
    else if fromPeer s m = false then (r.1, sDENIED)
    else (wr r.1 (devPage s d 0) REFUSED_INFO (BitVec.ofNat 32 ((peerAgent m).ty + 65536 * (peerAgent m).inst)), sDENIED)

/-- What a read returns to an agent that `KEY_RESULT` is not for: 0 there (R358; log entry 135). -/
def hideKey (s : State) (w : Agent) (pg off : Nat) (bs : List Byte) : List Byte :=
  if pg = pgSecurity ∧ off = KEY_RESULT ∧ mayKey s w = false then toLE 4 0 ++ bs.drop 4 else bs

/-- A remote operation reads a control page: its status and data. -/
def remoteRead (s : State) (m : Msg) (d len : Nat) : State × Nat × List Byte :=
  let a := m.addr.toNat
  let pg := pageOf d a
  let off := a % 4096
  if !wellSized off len then (badAccess s pg, sDENIED, [])
  else
    let r := readSpan s pg off len
    (r.1, sOK, hideKey s (originator s m) pg off r.2)

/-- The MSI-X table and its pending bits, at offset `o` from BAR2 0x3_0000 (R275; log entry 131): 16 bytes for a vector, of which bit 96 masks it. -/
def msixWord (s : State) (o : Nat) : W32 :=
  let v := o / 16
  if 0x8000 ≤ o then BitVec.ofNat 32 (s.host.msixPending / 2 ^ (8 * (o - 0x8000)))
  else if 66 ≤ v then 0
  else if o / 4 % 4 = 3 then BitVec.ofNat 32 (bitsOf s.host.msixMask v v)
  else Sparse.get 0 s.host.msixTable (o / 4)

/-- A write there: a vector that is unmasked while it pends is sent. -/
def msixPut (s : State) (o : Nat) (x : W32) : State :=
  let v := o / 16
  let h := s.host
  if 66 ≤ v then s
  else if o / 4 % 4 ≠ 3 then { s with host := { h with msixTable := Sparse.set 0 h.msixTable (o / 4) x } }
  else
    let rest := h.msixMask - bitsOf h.msixMask v v * 2 ^ v
    if x.toNat % 2 = 1 then { s with host := { h with msixMask := rest + 2 ^ v } }
    else
      let t := { s with host := { h with msixMask := rest, msixPending := h.msixPending - bitsOf h.msixPending v v * 2 ^ v } }
      if bitsOf h.msixPending v v = 1 then msix t v else t

/-- A write over a path. -/
def writeBy (s : State) (w : Agent) (path : Path) (pg off : Nat) (bytes : List Byte) : State :=
  let ok := wellSized off bytes.length || isPost pg off
  match path with
  | .bar =>
    if !s.boot.released || !s.host.linkUp then s
    else if aborted s pg true then emit s .completerAbort
    else if ok then (writePage s w pg off bytes).1 else emit s .unsupported
  | .msix =>
    let o := 4096 * (pg % 8192) + off
    if !s.boot.released || !s.host.linkUp then s
    else if isSafe s 0 || decide (s.boot.step < 1) then emit s .completerAbort
    else if !wellSized off bytes.length then emit s .unsupported
    else
      let t := msixPut s o (BitVec.ofNat 32 (leAt bytes 0 4))
      if bytes.length = 8 then msixPut t (o + 4) (BitVec.ofNat 32 (leAt bytes 4 4)) else t
  | .i3c => if !s.boot.released || aborted s pg true || !ok then s else (writePage s w pg off bytes).1
  | .mgmt => if s.boot.released && ok then (writePage s w pg off bytes).1 else s
  | .remote => if !s.boot.released then s else if ok then (writePage s w pg off bytes).1 else badAccess s pg

/-- A read over a path: what it returns, if it is answered. -/
def readBy (s : State) (path : Path) (pg off n : Nat) : State :=
  let answer : State := let r := readSpan s pg off n
    emit r.1 (.readData r.2)
  match path with
  | .bar =>
    if !s.boot.released || !s.host.linkUp then s
    else if aborted s pg false then emit s .completerAbort
    else if wellSized off n then answer else emit s .unsupported
  | .msix =>
    let o := 4096 * (pg % 8192) + off
    if !s.boot.released || !s.host.linkUp then s
    else if isSafe s 0 || decide (s.boot.step < 1) then emit s .completerAbort
    else if !wellSized off n then emit s .unsupported
    else emit s (.readData (toLE 4 (msixWord s o).toNat ++ (if n = 8 then toLE 4 (msixWord s (o + 4)).toNat else [])))
  | .i3c =>
    if (if s.boot.released then aborted s pg false else decide (pg % 8192 ≠ 1)) then emit s (.readData (List.replicate n 0xFF))
    else if wellSized off n then answer else s
  | .mgmt => if s.boot.released && wellSized off n then answer else s
  | .remote =>
    if !s.boot.released then s
    else if wellSized off n then
      (let r := readSpan s pg off n
       emit r.1 (.readData (hideKey s ⟨0, 0⟩ pg off r.2)))
    else badAccess s pg

/-- REGISTER_WRITE: a control write to a register without its own row. -/
def execRegisterWrite (w : Agent) (path : Path) (die : Die) (page : BitVec 13) (offset : BitVec 12) (bytes : List Byte) (s : State) : Out :=
  .next (writeBy s w path (gpage die page.toNat) offset.toNat bytes)

/-- READ_AND_CLEAR: a control read. -/
def execReadAndClear (path : Path) (die : Die) (page : BitVec 13) (offset : BitVec 12) (size : Nat) (s : State) : Out :=
  .next (readBy s path (gpage die page.toNat) offset.toNat size)

/-- RECORD_READ: a read of offset 0x07C of the history page. -/
def execRecordRead (die : Die) (s : State) : Out :=
  .next (let r := readWord s (pgHistory die) 0x07C
    emit r.1 (.readData (toLE 4 r.2.toNat)))

/-- BLK_COMMIT: a write to a page with RWS fields of its own; on any other the field is RO. -/
def execBlkCommit (w : Agent) (die : Die) (page : BitVec 13) (g : W32) (s : State) : Out :=
  .next (writeWord s w (gpage die page.toNat) BLK_COMMIT g)

-- I3C transfers (R379) ------------------------------------------------------------------------------------------------------------------

/-- I3C_PRIVATE_WRITE: four address bytes, and four data bytes or none; the access has the rights of the host. -/
def execI3cPrivateWrite (bus : Fin 2) (bytes : List Byte) (s : State) : Out :=
  .next (
    let a := leAt bytes 0 4
    let pg := gpage (a / 2 ^ 13 % 2) (a % 2 ^ 13)
    let off := a / 2 ^ 14 % 2 ^ 12
    if !i3cActive s bus || (i3c s bus).dyn.isNone || decide (bytes.length ≠ 4 ∧ bytes.length ≠ 8) || decide (a / 2 ^ 26 ≠ 0) ||
        decide (off % 4 ≠ 0) then s
    else
      let s1 := setI3c s bus { i3c s bus with page := a % 2 ^ 13, die := a / 2 ^ 13 % 2, off := off }
      if bytes.length = 8 then writeBy s1 ⟨btHost, 0⟩ .i3c pg off (bytes.drop 4) else s1)

/-- I3C_PRIVATE_READ: four bytes at the last address, which then advances by 4. -/
def execI3cPrivateRead (bus : Fin 2) (s : State) : Out :=
  .next (
    let x := i3c s bus
    let pg := gpage x.die x.page
    if !i3cActive s bus || x.dyn.isNone then s
    else
      let closed := if s.boot.released then aborted s pg false else decide (x.page ≠ 1)
      let r := if closed then (s, List.replicate 4 (0xFF : Byte)) else readSpan s pg x.off 4
      emit (setI3c r.1 bus { x with off := (x.off + 4) % 4096 }) (.i3cRead bus r.2))

end Sys2Proof.Machine
end

