-- ==== Sys2Proof/Machine/HoistAccess.lean ====
section
/-!
DEFINITION. Inner operations of a hoist script (R198, R207, R208): accesses on the hoist's own device, and PUTs, GETs and FLAGs that
travel to a peer; and how descriptors end (R207, R209).
-/

namespace Sys2Proof.Machine

-- the script of a channel ----------------------------------------------------------------------------------------------

/-- The inner access of the running step at a place. -/
def Script.find (r : Script) (unit : Nat) (isRead : Bool) : Option Inner := r.inner.find? (fun i => decide (i.unit = unit) && (i.isRead == isRead))

/-- Keep what an inner access has come to. -/
def putInner (s : State) (c : Nat) (i : Inner) : State :=
  updScript s c (fun (r : Script) => { r with inner := r.inner.filter (fun j => !(decide (j.unit = i.unit) && (j.isRead == i.isRead))) ++ [i] })

/-- Mark re-reads and writes that met the bank-busy indication (R208). -/
def countMeets (s : State) (c reReads busy : Nat) : State :=
  let pg := pgEngine (engineOf c)
  let s1 := if reReads = 0 then s else updScript (bump s pg RETRIES reReads) c (fun (r : Script) => { r with retried := true })
  if busy = 0 then s1 else updScript (bump s1 pg COLLS busy) c (fun (r : Script) => { r with coll := true })

-- accesses on the hoist's own device ---------------------------------------------------------------------------------------

/-- The message of an access that a hoist makes on its own device: it carries the script's deadline and class into every queue (R263). -/
def ownMsg (s : State) (c : Nat) (r : Script) (opc a len : Nat) (data : List Byte) : Msg :=
  newMsg s (channelDie c) 1 c opc 0 r.cls a len r.deadline 0 data

/-- What the ingress says of an access on the own device. -/
inductive OwnJudge where
  /-- it cannot be: status and reason -/
  | no (status reason : Nat)
  /-- refused for now, while the bridge is down (R27) or for want of credit (`short`): it is retried (R207) -/
  | later (short : Bool)
  | go (s : State)

/-- Judge an access on the own device: rights and range (R26, R198), the drain (R348), the deadline, the bridge (R27, R163), and for spaces 0
and 1 the stacks that it touches (R168, R264, R380; log entry 116). -/
def judgeOwn (s : State) (c : Nat) (r : Script) (isRead : Bool) (a len : Nat) : OwnJudge :=
  let setting := strictest s r.cls (touchedStacks s a len)
  if !grants r.windows a len (if isRead then rtREAD else rtWRITE) || !inRange a len then .no sDENIED 0
  else if isRead && r.copyOnly && !inCopyOut s a len then .no sFAILED rDrained
  else if r.deadline ≤ now s (channelDie c) then .no sFAILED rDeadline
  else if aDie a ≠ channelDie c ∧ s.bridge.st = 3 then .no sFAILED rSplit
  else if aDie a ≠ channelDie c ∧ s.bridge.st ≠ 2 then .later false
  else if aSpace a = 0 ∧ rangeReason s a len ≠ 0 then .no sFAILED (rangeReason s a len)
  else if setting = 0 then .go s
  else match takeCredit s (channelDie c) (.hoist (engineOf c)) r.cls len setting with
    | some s1 => .go s1
    | none => .later true

/-- Start an access on the own device at a place of the running step: at a control page it is made at once, and in spaces 0 and 1 it goes
to its bank's port B or its stack controllers, like any other home operation (R138, R160, R161, R229, R263). -/
def startOwn (s : State) (c : Nat) (r : Script) (unit : Nat) (isRead : Bool) (a len : Nat) (data : List Byte) : State :=
  match judgeOwn s c r isRead a len with
  | .no st rs => putInner s c ⟨unit, isRead, none, some (st, rs), []⟩
  | .later short => putInner (if short then countRefused s (channelDie c) else s) c ⟨unit, isRead, none, none, []⟩
  | .go s1 =>
    let m := ownMsg s c r (if isRead then 2 else 1) a len data
    if aSpace a = 2 then
      if isRead then
        let v := remoteRead s1 m (aDie a) len
        putInner v.1 c ⟨unit, true, none, some (v.2.1, 0), v.2.2⟩
      else
        let v := remoteWrite s1 m (aDie a) data
        putInner v.1 c ⟨unit, false, none, some (v.2, 0), []⟩
    else
      let id := s1.nextOp
      let s2 := putInner (freshOp s1).1 c ⟨unit, isRead, some id, none, []⟩
      if isRead then performAt s2 (aDie a) m (.hoist c id) else writeAt s2 (aDie a) m (.hoist c id)

-- inner operations that travel (R198, R207, R257) ------------------------------------------------------------------------------

/-- Start an inner operation at a place of the running step, or keep why it does not start. -/
def startInner (s : State) (c : Nat) (r : Script) (unit opc sub a len bell : Nat) (data : List Byte) : State :=
  let d := channelDie c
  let isRead := decide (opc = 2)
  match judgeInner s c r opc sub a len with
  | .no st rs => putInner s c ⟨unit, isRead, none, some (st, rs), []⟩
  | .later short => putInner (if short then countRefused s d else s) c ⟨unit, isRead, none, none, []⟩
  | .go s1 =>
    let id := s1.nextOp
    let s2 := putInner (freshOp s1).1 c ⟨unit, isRead, some id, none, []⟩
    startOp s2 d (newOp s2 d id (.hoist (Fin.ofNat 256 c) unit) (innerMsg s c r opc sub a len bell data) 0 0) 0

-- one access of a step, here or travelling ----------------------------------------------------------------------------------------

/-- Start an access at a place: here, or as a GET or PUT. -/
def startAccess (s : State) (c : Nat) (r : Script) (unit : Nat) (isRead : Bool) (a len : Nat) (data : List Byte) : State :=
  if onDevice s a then startOwn s c r unit isRead a len data
  else startInner s c r unit (if isRead then 2 else 1) 0 a len 0 data

/-- What an access of a step gives: its data, or that it has not ended, or its failure. -/
inductive Got where
  | ok (s : State) (data : List Byte)
  | wait (s : State)
  | bad (s : State) (status reason : Nat)

/-- Go on with the data of an access. -/
def Got.bind (g : Got) (f : State → List Byte → Got) : Got :=
  match g with
  | .ok s bs => f s bs
  | g => g

/-- The state that an access leaves. -/
def Got.st (g : Got) : State :=
  match g with
  | .ok s _ => s
  | .wait s => s
  | .bad s _ _ => s

/-- An access that has ended. A write that collided has taken effect (R208). -/
def innerResult (s : State) (c : Nat) (i : Inner) : Got :=
  match i.res with
  | none => .wait s
  | some (st, rs) =>
    if st = sCOLLIDED then .ok (if i.isRead then s else putInner (countMeets s c 0 1) c { i with res := some (sOK, 0) }) i.data
    else if st = sOK then .ok s i.data else .bad s st rs

/-- An access of bytes that lie in one range: started where it has not been, unless the script has ended; a read that collided is made
again (R208). -/
def accessPart (s : State) (c unit : Nat) (isRead : Bool) (a len : Nat) (data : List Byte) : Got :=
  match (channel s c).run with
  | none => .wait s
  | some r =>
    match r.find unit isRead with
    | some i =>
      if isRead = true ∧ i.res = some (sCOLLIDED, 0) then .wait (startAccess (countMeets s c 1 0) c r unit true a len data)
      else innerResult s c i
    | none =>
      if r.ended.isSome then .wait s
      else
        let s1 := startAccess s c r unit isRead a len data
        match ((channel s1 c).run.bind (fun (q : Script) => q.find unit isRead)) with
        | some i => innerResult s1 c i
        | none => .wait s1

/-- Keep the outcome of a unit that has ended. -/
def keepOk (s : State) (c unit : Nat) (isRead : Bool) (data : List Byte) : Got :=
  .ok (putInner s c ⟨unit, isRead, none, some (sOK, 0), data⟩) data

/-- Bytes of [a, a + len) that lie in the range of R26 in which it starts, where it goes on into another; else 0 (R200). -/
def splitAt (a len : Nat) : Nat := if aOff a < rangeEnd a ∧ rangeEnd a < aOff a + len then rangeEnd a - aOff a else 0

/-- Places of the two inner operations of a unit that is split. -/
def partOne (unit : Nat) : Nat := 2 ^ 40 + unit
def partTwo (unit : Nat) : Nat := 2 ^ 41 + unit

/-- Read a unit: where it crosses a range of R26, by two inner operations. -/
def readUnit (s : State) (c unit a len : Nat) : Got :=
  let n := splitAt a len
  if n = 0 then accessPart s c unit true a len []
  else match (channel s c).run.bind (fun (r : Script) => r.find unit true) with
    | some i => innerResult s c i
    | none =>
      (accessPart s c (partOne unit) true a n []).bind (fun t x =>
        (accessPart t c (partTwo unit) true (a + n) (len - n) []).bind (fun u y => keepOk u c unit true (x ++ y)))

/-- Write a unit, likewise. -/
def writeUnit (s : State) (c unit a : Nat) (bs : List Byte) : Got :=
  let n := splitAt a bs.length
  if n = 0 then accessPart s c unit false a bs.length bs
  else match (channel s c).run.bind (fun (r : Script) => r.find unit false) with
    | some i => innerResult s c i
    | none =>
      (accessPart s c (partOne unit) false a n (bs.take n)).bind (fun t _ =>
        (accessPart t c (partTwo unit) false (a + n) (bs.length - n) (bs.drop n)).bind (fun u _ => keepOk u c unit false []))

-- how descriptors and scripts end (R207, R209) ------------------------------------------------------------------------------------------

/-- A record of the running descriptor. -/
def recordDesc (s : State) (c : Nat) (r : Script) (status reason check : Nat) (flags : Bool) : State :=
  addRecord s c (recordBytes r.idx status reason (flags && r.retried) (flags && r.coll) r.step check)

/-- A descriptor ends the script with a status: the running one, or a side stream at another index. -/
def endDescAt (s : State) (c idx status reason : Nat) : State :=
  match (channel s c).run with
  | none => s
  | some r =>
    updScript (recordDesc s c { r with idx := idx } status reason 0 true) c (fun (q : Script) =>
      { q with executed := q.executed + 1, ended := some (q.ended.getD (status, reason)) })

/-- The running descriptor ends the script with a status. -/
def endDesc (s : State) (c status reason : Nat) : State := endDescAt s c (((channel s c).run.map (fun r => r.idx)).getD 0) status reason

/-- A malformed descriptor completes POISONED and ends the script. -/
def malformed (s : State) (c : Nat) : State := endDesc s c sPOISONED 0

/-- The running descriptor completes OK with its `n` side streams; it has a record where `RETRIED` or `COLL` is set. -/
def doneDesc (s : State) (c n : Nat) : State :=
  match (channel s c).run with
  | none => s
  | some r =>
    updScript (if r.retried || r.coll then recordDesc s c r sOK 0 0 true else s) c (nextDesc n)

/-- The running descriptor completes POISONED: it does not end the script (R207). -/
def poisonDesc (s : State) (c n : Nat) : State :=
  match (channel s c).run with
  | none => s
  | some r => updScript (recordDesc s c r sPOISONED 0 0 true) c (fun (q : Script) => nextDesc n { q with poison := true })

end Sys2Proof.Machine
end

