-- ==== Sys2Proof/Machine/HoistSteps.lean ====
section
/-!
DEFINITION. The steps of MOVE, EXPAND, COMPRESS and KVGATHER (R181 to R190, R201 to R205, R208, R209).
-/

namespace Sys2Proof.Machine

-- units of a step: places of its accesses -------------------------------------------------------------------------------------

/-- Places: pieces of the lead's row, rows of side streams, the layout record, page-table entries, and descriptors. -/
def uLead (k : Nat) : Nat := 8 * k + 4
def uSide (role k : Nat) : Nat := 8 * k + role
abbrev uLayout : Nat := 5
abbrev uEntry : Nat := 6
def uDesc (i : Nat) : Nat := 8 * i + 7

/-- One unit that a step moves: where from and where to, where it has either, and its place. -/
structure Move where
  unit : Nat
  src : Nat
  dst : Nat
  len : Nat
deriving DecidableEq, Repr

/-- The units of the side stream with a role in step `i`. -/
def sideMoves (r : Script) (lead : HDesc) (sides : List HDesc) (role i : Nat) : List Move :=
  match sides.find? (fun x => x.role = role) with
  | none => []
  | some x => (sideRows lead x i).mapIdx (fun k w => ⟨uSide role k, r.srcRow x w, r.dstRow x w, x.len⟩)

/-- The side streams' units that are copied in a step, in the order of their writes: roles 0, 1 and 3, then the lead's row, then a map entry.
`lead` gives the lead's own. -/
def stepMoves (r : Script) (lead : HDesc) (sides : List HDesc) (i : Nat) (row : List Move) : List Move :=
  let side (role : Nat) : List Move := if produced lead role || (consumed lead role && (sides.any (fun x => decide (x.role = role ∧ x.dst = 0 ∧ x.db = 0)))) then []
    else sideMoves r lead sides role i
  side 0 ++ side 1 ++ side 3 ++ row ++ side 2

/-- Start the reads that a list of units needs. -/
def startReads (s : State) (c : Nat) (ms : List Move) : State := ms.foldl (fun t m => (readUnit t c m.unit m.src m.len).st) s

/-- Read every unit of a list; the reads overlap. -/
def readMoves (s : State) (c : Nat) (ms : List Move) : Got :=
  ms.foldl (fun g m => g.bind (fun t _ => readUnit t c m.unit m.src m.len)) (.ok (startReads s c ms) [])

/-- Write every unit of a list in order, with the data that was read for it. -/
def writeMoves (s : State) (c : Nat) : List Move → Got
  | [] => .ok s []
  | m :: rest =>
    match ((channel s c).run.bind (fun (r : Script) => r.find m.unit true)) with
    | none => .wait s
    | some i => (writeUnit s c m.unit m.dst i.data).bind (fun t _ => writeMoves t c rest)

/-- One of source and destination lies on the own device (R198). -/
def Move.ownSide (s : State) (m : Move) : Bool := onDevice s m.src || onDevice s m.dst

/-- The unit is a map entry, which is read before the slot and written last (R202). -/
def Move.isMap (m : Move) : Bool := decide (m.unit % 8 = 2)

/-- Copy units: read the map entry and then the rest, and write in order. -/
def copyMoves (s : State) (c : Nat) (ms : List Move) : Got :=
  if ms.any (fun m => !m.ownSide s) then .bad s sDENIED 0
  else (readMoves s c (ms.filter Move.isMap)).bind (fun t _ =>
    (readMoves t c (ms.filter (fun m => !m.isMap))).bind (fun t _ => writeMoves t c ms))

-- the end of a step -----------------------------------------------------------------------------------------------------------------

/-- A step has ended; `done`: every write completed OK. The next one begins with nothing done. -/
def afterStep (r : Script) (done : Bool) : Script :=
  { r with step := r.step + 1, stepsDone := r.stepsDone + (if done then 1 else 0), phase := .run, inner := [], tables := none }

/-- Steps of a descriptor. -/
def stepCount (r : Script) (d : HDesc) : Nat :=
  if d.op = hKVGATHER ∧ d.role = 3 then
    match (r.find uLayout true).bind (fun i => KvLayout.parse i.data) with
    | some k => d.count / k.unit 3
    | none => d.count
  else d.count

/-- The layout record stays known from step to step. -/
def keepLayout (old : Script) (r : Script) : Script := { r with inner := (old.find uLayout true).toList ++ r.inner }

/-- The running step ends, and with the last one its descriptor. -/
def endStep (s : State) (c : Nat) (lead : HDesc) (sides : List HDesc) (done : Bool) : State :=
  match (channel s c).run with
  | none => s
  | some r =>
    let s1 := updScript s c (fun (q : Script) => keepLayout r (afterStep q done))
    if stepCount r lead ≤ r.step + 1 then doneDesc s1 c sides.length else s1

/-- The step is POISONED: a record with the block check word, and the script goes on (R189, R203, R209). -/
def poisonStep (s : State) (c : Nat) (lead : HDesc) (sides : List HDesc) (check : Nat) : State :=
  match (channel s c).run with
  | none => s
  | some r =>
    let pg := pgEngine (engineOf c)
    let s1 := recordDesc (wr (bump s pg H_POISONED 1) pg LAST_CAUSE (BitVec.ofNat 32 check)) c r sPOISONED 0 check false
    endStep (updScript s1 c (fun (q : Script) => { q with poison := true })) c lead sides false

/-- A step's accesses have come to this: `go` is what follows when all have ended OK. -/
def settle (c : Nat) (lead : HDesc) (sides : List HDesc) (g : Got) (go : State → State) : State :=
  match g with
  | .wait s => s
  | .ok s _ => go s
  | .bad s st rs => if st = sPOISONED then poisonStep s c lead sides 0 else endDesc s c st rs

-- MOVE ----------------------------------------------------------------------------------------------------------------------------------

/-- The units of a MOVE's step. -/
def moveUnits (r : Script) (lead : HDesc) (sides : List HDesc) : List Move :=
  stepMoves r lead sides r.step [⟨uLead 0, r.srcRow lead r.step, r.dstRow lead r.step, lead.len⟩]

/-- A MOVE's step: reads and writes go as far as their accesses have come; with the event it is done once every write is. -/
def moveStep (s : State) (c : Nat) (r : Script) (lead : HDesc) (sides : List HDesc) (event : Bool) : State :=
  settle c lead sides (copyMoves s c (moveUnits r lead sides)) (fun t => if event then endStep t c lead sides true else t)

-- EXPAND (R188 to R190, R203) --------------------------------------------------------------------------------------------------------------

/-- The units that an EXPAND copies beside its row, in the order of their writes; the row stands between. -/
def expandSides (r : Script) (lead : HDesc) (sides : List HDesc) (last : Bool) : List Move :=
  (stepMoves r lead sides r.step []).filter (fun m => m.isMap == last)

/-- The map entry's unit. -/
def mapUnit (r : Script) (lead : HDesc) (sides : List HDesc) : Option Move := (sideMoves r lead sides 2 r.step).head?

/-- The slot of the running step. -/
def slotAddr (r : Script) (lead : HDesc) : Nat := r.srcRow lead r.step

/-- The block's entry, and then its stored bytes, are read. -/
def readBlock (s : State) (c : Nat) (r : Script) (lead : HDesc) (sides : List HDesc) : Got :=
  match mapUnit r lead sides with
  | none => .wait s
  | some m => (readUnit s c m.unit m.src 8).bind (fun t e => readUnit t c (uLead 0) (slotAddr r lead) (slotReadLen e))

/-- A key of the tensor. -/
def tensorKey (s : State) (tensor epoch : Nat) : Option (List Byte) :=
  (s.security.keys.find? (fun k => decide (k.tensor.toNat = tensor) && decide (k.epoch = epoch))).map (fun k => k.key)

/-- The tables that the running block uses: those resident when it started (R181, R192). -/
def blockTables (s : State) (c : Nat) : Sparse (Option CodeTable) :=
  (((channel s c).run.bind (fun (r : Script) => r.tables))).getD (engine s (engineOf c)).tables

/-- The table with an identifier, among those of the running block. -/
def residentTable (s : State) (c id : Nat) : Option (List Byte) :=
  (blockTables s c).findSome? (fun p => p.2.bind (fun t => if t.id = id then some t.rec_ else none))

/-- A block starts: it keeps the tables resident now. -/
def startBlock (s : State) (c : Nat) : State := updScript s c (fun (r : Script) => { r with tables := some (blockTables s c) })

/-- The entry read in this step had `RAW` = 1. -/
def entryRaw (s : State) (c : Nat) (r : Script) (lead : HDesc) (sides : List HDesc) : Bool :=
  match mapUnit r lead sides, (channel s c).run with
  | some m, some q => ((q.find m.unit true).map (fun i => entRaw i.data)).getD false
  | _, _ => false

/-- The verdict on the block of the running step (Table 09-4). -/
def blockVerdict (s : State) (c : Nat) (r : Script) (lead : HDesc) (sides : List HDesc) (stored : List Byte) : BlockVerdict :=
  match mapUnit r lead sides, (channel s c).run with
  | some m, some q =>
    let e := ((q.find m.unit true).map (fun i => i.data)).getD []
    judgeBlock (tensorKey s lead.tensor) (residentTable s c) lead.fmt (slotNumber (slotAddr r lead)) e stored
  | _, _ => .fail 0

/-- A slot is whole and in space 0 (Table 10-2). -/
def slotPlaceOk (a : Nat) : Bool := decide (aSpace a = 0) && decide (a % 4096 = 0)

/-- The slot and destination of an EXPAND's row keep Table 10-2 and R198. -/
def expandPlaceOk (s : State) (r : Script) (lead : HDesc) : Bool :=
  let a := slotAddr r lead
  slotPlaceOk a && (onDevice s a || onDevice s (r.dstRow lead r.step))

/-- BLOCK_RELEASE in the running step: the block passes its checks, or completes POISONED, or FAILED where it passes after the deadline
(R190). -/
def releaseBlock (s : State) (c : Nat) (r : Script) (lead : HDesc) (sides : List HDesc) : State :=
  match readBlock s c r lead sides with
  | .wait t => t
  | .bad t st rs =>
    if st = sPOISONED then poisonStep t c lead sides (checkWord 1 (entryRaw t c r lead sides) 0) else endDesc t c st rs
  | .ok t stored =>
    match blockVerdict t c r lead sides stored with
    | .fail w => poisonStep t c lead sides w
    | .pass data =>
      if r.deadline ≤ now t (channelDie c) then endDesc t c sFAILED rDeadline
      else updScript t c (fun (q : Script) => { q with phase := .released data })

/-- The writes of an EXPAND's step: scales, then the row, then a map entry that is copied. -/
def expandStep (s : State) (c : Nat) (r : Script) (lead : HDesc) (sides : List HDesc) (data : List Byte) (event : Bool) : State :=
  let first := expandSides r lead sides false
  let last := expandSides r lead sides true
  let g := (if (first ++ last).any (fun m => !m.ownSide s) then Got.bad s sDENIED 0 else readMoves s c (first ++ last)).bind (fun t _ =>
    (writeMoves t c first).bind (fun t _ => (writeUnit t c (uLead 0) (r.dstRow lead r.step) data).bind (fun t _ => writeMoves t c last)))
  settle c lead sides g (fun t => if event then endStep t c lead sides true else t)

-- COMPRESS (R185 to R187, R203, R204) ------------------------------------------------------------------------------------------------------------

/-- The pieces of at most 4 KiB of a COMPRESS's source row. -/
def sourcePieces (r : Script) (lead : HDesc) : List Move :=
  let a := r.srcRow lead r.step
  let n := compressLen lead
  (List.range (ceilDiv n 4096)).map (fun k => ⟨uLead (k + 1), a + 4096 * k, 0, Nat.min 4096 (n - 4096 * k)⟩)

/-- What quantising a step's source gives: codes, scales and counts (R204). -/
structure StepQuant where
  codes : List Byte
  scales : List Byte
  amax : Nat
  sats : Nat
  nans : Nat

/-- Quantise a step's source. -/
def quantStep (r : Script) (lead : HDesc) (src : List Byte) : StepQuant :=
  let xs := (List.range (stepElems lead.fmt)).map (fun i => if lead.fp32 then leAt src (4 * i) 4 else bf16ToFp32 (leAt src (2 * i) 2))
  let cfg : QCfg := { fmt := lead.fmt, rnd := lead.rnd, book := [], zp := 0, seed := r.seed.toNat, step := r.hstep.toNat,
                      tensorId := lead.tensor, nug := false, thresh := 0 }
  let g := groupSize lead.group
  let qs := (chunks g (xs.length + 1) xs).mapIdx (fun k ys => quantGroupE8m0 cfg (lead.value + r.step * xs.length + k * g) none ys)
  { codes := packGroups lead.fmt (qs.map (fun q => q.codes)), scales := qs.map (fun q => BitVec.ofNat 8 q.scale), amax := amaxOf xs
    sats := (qs.map (fun q => q.sats)).foldl (· + ·) 0, nans := (qs.map (fun q => q.nans)).foldl (· + ·) 0 }

/-- Count a step's quantising in the engine's page (R88, R89, R204). -/
def countStepQuant (s : State) (c : Nat) (q : StepQuant) : State :=
  let pg := pgEngine (engineOf c)
  let s1 := wr s pg AMAX_TOTAL (BitVec.ofNat 32 (Nat.max (rd s pg AMAX_TOTAL).toNat q.amax))
  bump (bump s1 pg H_SAT_TOTAL q.sats) pg H_NAN_TOTAL q.nans

/-- The block of codes and scales of a step, from its source. -/
def stepBlock (s : State) (c : Nat) (r : Script) (lead : HDesc) (src : List Byte) : State × List Byte × List Byte :=
  if lead.quant then
    let q := quantStep r lead src
    (countStepQuant s c q, q.codes, q.scales)
  else (s, src, [])

/-- The source bytes of a step that has been read. -/
def sourceBytes (s : State) (c : Nat) (ps : List Move) : List Byte :=
  match (channel s c).run with
  | none => []
  | some q => ps.flatMap (fun m => ((q.find m.unit true).map (fun i => i.data)).getD [])

/-- A COMPRESS's row keeps its place: the slot is whole, in space 0, and source or slot lies here. -/
def compressPlaceOk (s : State) (r : Script) (lead : HDesc) : Bool :=
  let a := r.dstRow lead r.step
  slotPlaceOk a && (onDevice s a || onDevice s (r.srcRow lead r.step))

/-- Write the scales that a step has produced. -/
def writeScales (s : State) (c : Nat) (r : Script) (lead : HDesc) (sides : List HDesc) (scales : List Byte) : Got :=
  if lead.quant then
    match (sideMoves r lead sides 0 r.step).head? with
    | some m => writeUnit s c m.unit m.dst scales
    | none => .ok s []
  else .ok s []

/-- The slot of a step with its key and table: `none` where the key is not held (log entry 67). -/
def slotOf (s : State) (r : Script) (lead : HDesc) (rec_ block : List Byte) : Option SlotOut :=
  let slot := slotNumber (r.dstRow lead r.step)
  if lead.param = 0 then some (compressBlock rec_ lead.fmt 0 [] slot block)
  else (tensorKey s lead.tensor lead.param).map (fun k => compressBlock rec_ lead.fmt lead.param k slot block)

/-- The table in a slot, among those of the running block. -/
def slotTable (s : State) (c k : Nat) : Option CodeTable := Sparse.get none (blockTables s c) k

/-- A COMPRESS's step reads its source, and what it copies beside its slot, and makes its scales, slot and map entry, once. -/
def compressStep (s : State) (c : Nat) (r : Script) (lead : HDesc) (sides : List HDesc) : State :=
  let ps := sourcePieces r lead
  let others := expandSides r lead sides false
  match slotTable s c lead.tslot with
  | none => poisonDesc s c sides.length
  | some t =>
    settle c lead sides (if (others.any (fun m => !m.ownSide s)) then Got.bad s sDENIED 0 else readMoves s c (ps ++ others)) (fun u =>
      let b := stepBlock u c r lead (sourceBytes u c ps)
      match slotOf b.1 r lead t.rec_ b.2.1 with
      | none => poisonStep b.1 c lead sides (checkWord 5 false 0)
      | some o => updScript b.1 c (fun (q : Script) => { q with phase := .coded b.2.2 o.bytes o.entry }))

/-- The scales and the other units are written, then the slot; the map entry waits for its event (R185, R202). -/
def slotStep (s : State) (c : Nat) (r : Script) (lead : HDesc) (sides : List HDesc) (scales slot entry : List Byte) : State :=
  settle c lead sides ((writeScales s c r lead sides scales).bind (fun t _ =>
    (writeMoves t c (expandSides r lead sides false)).bind (fun t _ => writeUnit t c (uLead 0) (r.dstRow lead r.step) slot)))
    (fun t => updScript t c (fun (q : Script) => { q with phase := .slotted entry }))

/-- The map entry of a COMPRESS is written; with the event of the step's end it is done. -/
def mapStep (s : State) (c : Nat) (r : Script) (lead : HDesc) (sides : List HDesc) (entry : List Byte) (event : Bool) : State :=
  match (sideMoves r lead sides 2 r.step).head? with
  | none => s
  | some m => settle c lead sides (writeUnit s c m.unit m.dst entry) (fun t => if event then endStep t c lead sides true else t)

-- KVGATHER (R173 to R175, R205) --------------------------------------------------------------------------------------------------------------------

/-- Address of a KVGATHER's unit in its page, from the page-table entry; `none` where the position or page is denied. -/
def kvPlace (k : KvLayout) (part pos e : Nat) : Option Nat :=
  let base := e / 4096 * 4096
  if e % 2 = 1 ∧ aSpace base < 2 ∧ inRange base k.size = true then some (base + k.place part (pos % 256)) else none

/-- A KVGATHER's step, under its layout record: a position, or a V group of scales. -/
def kvUnit (s : State) (c : Nat) (r : Script) (d : HDesc) (k : KvLayout) (event : Bool) : State :=
  let pos := d.value + r.step * k.unit d.role
  let dst := r.dstRow d 0 + r.step * k.bytes d.role
  if k.pages ≤ pos / 256 then endDesc s c sDENIED 0
  else
    let g := (readUnit s c uEntry (k.pt + 8 * (pos / 256)) 8).bind (fun t e =>
      match kvPlace k d.role pos (leNat e) with
      | none => .bad t sDENIED 0
      | some a =>
        if !onDevice t a && !onDevice t dst then .bad t sDENIED 0
        else
          let n := k.bytes d.role
          let ms := (List.range (ceilDiv n 4096)).map (fun i => (⟨uLead i, a + 4096 * i, dst + 4096 * i, Nat.min 4096 (n - 4096 * i)⟩ : Move))
          copyMoves t c ms)
    settle c d [] g (fun t => if event then endStep t c d [] true else t)

/-- A KVGATHER goes on: its layout record first, which may be malformed (R173), then a step. -/
def kvStep (s : State) (c : Nat) (r : Script) (d : HDesc) (event : Bool) : State :=
  match readUnit s c uLayout (r.srcRow d 0) 32 with
  | .wait t => t
  | .bad t st rs => if st = sPOISONED then poisonDesc t c 0 else endDesc t c st rs
  | .ok t bs =>
    match KvLayout.parse bs with
    | none => poisonDesc t c 0
    | some k => if k.rangeOk d.role d.value d.count then kvUnit t c r d k event else malformed t c

-- TABLE (R181) ---------------------------------------------------------------------------------------------------------------------

/-- Put a table in an engine: in the place of the one with its `TABLE_ID`, or in the slot named. -/
def loadTable (s : State) (c slot : Nat) (rec_ : List Byte) : State :=
  let e := engineOf c
  let t := (engine s e).tables
  let k := ((t.find? (fun p => (p.2.map (fun x => x.id)) == some (tblId rec_))).map (fun p => p.1)).getD slot
  setEngine s e { engine s e with tables := Sparse.set none t k (some ⟨tblId rec_, rec_⟩) }

/-- A TABLE goes on: its record is read, judged and loaded. -/
def tableStep (s : State) (c : Nat) (r : Script) (d : HDesc) : State :=
  match readUnit s c (uLead 0) (r.srcRow d 0) 144 with
  | .wait t => t
  | .bad t st rs => if st = sPOISONED then poisonDesc t c 0 else endDesc t c st rs
  | .ok t bs => if tableValid bs then doneDesc (loadTable t c d.tslot bs) c 0 else poisonDesc t c 0

-- FLAG (R206) ------------------------------------------------------------------------------------------------------------------------

/-- A FLAG goes on: it ends with its completion. -/
def flagStep (s : State) (c : Nat) (r : Script) : State :=
  match r.find (uLead 0) false with
  | none => s
  | some i =>
    match innerResult s c i with
    | .wait t => t
    | .bad t st rs => if st = sPOISONED then poisonDesc t c 0 else endDesc t c st rs
    | .ok t _ => doneDesc t c 0

-- WAIT (R206) ------------------------------------------------------------------------------------------------------------------------

/-- The place of a WAIT's reads of its flag. -/
abbrev uPoll : Nat := 3

/-- A WAIT's read of its flag goes on: the WAIT completes, or goes on waiting for the next poll, or fails. -/
def pollWait (s : State) (c : Nat) (d : HDesc) : State :=
  match readUnit s c uPoll d.addr 8 with
  | .wait t => t
  | .bad t st rs => if st = sPOISONED then poisonDesc t c 0 else endDesc t c st rs
  | .ok t bs =>
    if flagTest d.role (leNat bs) d.value then doneDesc t c 0 else t

-- advancing the running descriptor ---------------------------------------------------------------------------------------------------------------------

/-- A row with its slot out of place is malformed (Table 10-2, R200); one with no end on the own device is DENIED (R198). -/
def misplaced (s : State) (c slot : Nat) : State := if slotPlaceOk slot then endDesc s c sDENIED 0 else malformed s c

/-- The running descriptor goes on: `event` is its step's end. -/
def runStep (s0 : State) (c : Nat) (event : Bool) : State :=
  match (channel s0 c).run with
  | none => s0
  | some r0 =>
    match r0.desc r0.idx with
    | none => s0
    | some d =>
      let block := decide (r0.phase = .run) && (decide (d.op = hEXPAND) || decide (d.op = hCOMPRESS)) && r0.tables.isNone
      let s := if block then startBlock s0 c else s0
      let r := ((channel s c).run).getD r0
      let sides := r.sides r.idx
      match r.phase with
      | .run =>
        if d.op = hMOVE then moveStep s c r d sides event
        else if d.op = hEXPAND then
          if expandPlaceOk s r d then (if event then s else (readBlock s c r d sides).st) else misplaced s c (slotAddr r d)
        else if d.op = hCOMPRESS then
          if compressPlaceOk s r d then (if event then s else compressStep s c r d sides) else misplaced s c (r.dstRow d r.step)
        else if d.op = hKVGATHER then kvStep s c r d event
        else if d.op = hTABLE then (if event then s else tableStep s c r d) else s
      | .released data => expandStep s c r d sides data event
      | .coded scales slot entry => if event then s else slotStep s c r d sides scales slot entry
      | .mapping e => mapStep s c r d sides e event
      | .waitFlag _ => if event then s else pollWait s c d
      | .flag => if event then s else flagStep s c r
      | _ => s

/-- The script waits for nothing but its engine: it has not ended, waits for no access, and is in neither a WAIT nor a FLAG. -/
def Script.atEngine (r : Script) : Bool :=
  r.ended.isNone && r.inner.all (fun i => i.res.isSome) && (match r.phase with
    | .waitFlag _ => false
    | .flag => false
    | _ => true)

/-- An engine serves one script before another: the earlier deadline, then the class, then the one launched first (R194, R263). -/
def Script.before (q r : Script) : Bool :=
  decide (q.deadline < r.deadline) || (decide (q.deadline = r.deadline) &&
    (decide (q.cls < r.cls) || (decide (q.cls = r.cls) && decide (q.op < r.op))))

/-- It is the channel's turn at its engine: no other channel of the engine that waits for it comes first. -/
def engineTurn (s : State) (c : Nat) : Bool :=
  match (channel s c).run with
  | none => true
  | some r => (List.range 4).all (fun i =>
      let k := 4 * engineOf c + i
      decide (k = c) || (match (channel s k).run with
        | some q => !(q.atEngine && q.before r)
        | none => true))

/-- The script runs and nothing has ended it. -/
def scriptRuns (s : State) (c : Nat) : Bool := ((channel s c).run.map (fun r => r.ended.isNone)).getD false

/-- A step's event, in the channel's turn at its engine; after it the next step begins. -/
def stepEvent (s : State) (c : Nat) (f : State → State) : State :=
  if scriptRuns s c && engineTurn s c then runStep (f s) c false else s

/-- BLOCK_RELEASE (R188): the block of an EXPAND's step passes the ten checks, or completes POISONED. -/
def execBlockRelease (c : Fin 256) (row : Nat) (s : State) : Out :=
  .next (match (channel s c).run with
    | some r =>
      match r.phase, r.desc r.idx with
      | .run, some d =>
        if r.step = row ∧ d.op = hEXPAND ∧ expandPlaceOk s r d = true then stepEvent s c (fun t => releaseBlock t c r d (r.sides r.idx)) else s
      | _, _ => s
    | none => s)

/-- MAP_ENTRY_WRITE (R185): every sector write of the slot of a step has completed OK. -/
def execMapEntryWrite (c : Fin 256) (row : Nat) (s : State) : Out :=
  .next (match (channel s c).run with
    | some r =>
      match r.phase with
      | .slotted e => if r.step = row then stepEvent s c (fun t => updScript t c (fun (q : Script) => { q with phase := .mapping e })) else s
      | _ => s
    | none => s)

/-- The descriptor's step is one that HOIST_STEP_DONE ends. -/
def stepEnds (r : Script) : Bool :=
  match r.phase, r.desc r.idx with
  | .run, some d => decide (d.op = hMOVE) || decide (d.op = hKVGATHER)
  | .released _, _ => true
  | .mapping _, _ => true
  | _, _ => false

/-- HOIST_STEP_DONE (R202): the step of this row has made its accesses. -/
def execHoistStepDone (c : Fin 256) (row : Nat) (s : State) : Out :=
  .next (match (channel s c).run with
    | some r => if stepEnds r && decide (r.step = row) then stepEvent s c (fun t => runStep t c true) else s
    | none => s)

end Sys2Proof.Machine
end

