-- ==== Sys2Proof/Machine/HoistCmds.lean ====
section
/-!
DEFINITION. The descriptors of a hoist script as commands (Table 10-2, R199, R200, R206), and the script's own events (R206, R207, R210).
-/

namespace Sys2Proof.Machine

-- reading descriptors (R199) ---------------------------------------------------------------------------------------------

/-- Most descriptors of a script. -/
def maxDescs : Nat := 4096

/-- Read descriptor `i`, once in a run. -/
def fetchDesc (s : State) (c i : Nat) : Got :=
  match (channel s c).run with
  | none => .wait s
  | some r =>
    if (r.desc i).isSome then .ok s []
    else if maxDescs ≤ i then .bad s sPOISONED 0
    else (readUnit s c (uDesc i) (r.addr + 64 * i) 64).bind (fun t bs =>
      .ok (updScript t c (fun (q : Script) => { q with descs := q.descs ++ [(i, bs)], inner := q.inner.filter (fun x => x.unit ≠ uDesc i) })) [])

/-- Read the descriptors from `i` on that are linked to the one before; `fuel` bounds them. -/
def fetchSides : Nat → State → Nat → Nat → Got
  | 0, s, _, _ => .ok s []
  | fuel + 1, s, c, i =>
    if maxDescs ≤ i then .ok s []
    else (fetchDesc s c i).bind (fun t _ =>
      match ((channel t c).run.bind (fun (r : Script) => r.desc i)) with
      | some d => if d.link then fetchSides fuel t c (i + 1) else .ok t []
      | none => .ok t [])

/-- A script whose descriptor has completed reads the next one, and with it those that may be its side streams. -/
def prefetch (s : State) (c : Nat) : State :=
  match (channel s c).run with
  | none => s
  | some r =>
    match fetchDesc s c r.idx with
    | .wait t => t
    | .bad t st rs => endDesc t c st rs
    | .ok t _ => match ((channel t c).run.bind (fun (q : Script) => q.desc q.idx)) with
      | some d => if !d.link && (decide (d.op = hMOVE) || decide (d.op = hEXPAND) || decide (d.op = hCOMPRESS)) then
          (fetchSides 4 t c (r.idx + 1)).st else t
      | none => t

/-- Issue the next descriptor of a script where it is the operation that the command names, in the channel's turn at its engine. A reserved
operation is malformed under any of the commands. -/
def issueDesc (s : State) (c op : Nat) (f : State → Script → HDesc → State) : State :=
  match (channel s c).run with
  | none => s
  | some r =>
    if r.ended.isSome ∨ r.phase ≠ .ready ∨ isSafe s (channelDie c) = true ∨ engineTurn s c = false then s
    else match fetchDesc s c r.idx with
      | .wait t => t
      | .bad t st rs => endDesc t c st rs
      | .ok t _ =>
        match (channel t c).run with
        | none => s
        | some q =>
          match q.desc q.idx with
          | none => s
          | some d =>
            if hFENCE < d.op then malformed t c
            else if d.op ≠ op then s
            else if !d.ok || d.link || (decide (op = hHEAD) != decide (q.idx = 0)) then malformed t c
            else f t q d

/-- A descriptor that moves rows begins its first step, once its side streams are known. A side stream that breaks R201 is the malformed descriptor
(R200). -/
def beginRows (s : State) (c : Nat) (r : Script) (d : HDesc) : State :=
  match fetchSides 4 s c (r.idx + 1) with
  | .wait t => t
  | .bad t st rs => endDesc t c st rs
  | .ok t _ =>
    match (channel t c).run with
    | none => s
    | some q =>
      if leadOk d (q.sides q.idx) then
        runStep (updScript t c (fun (x : Script) => { x with phase := .run, step := 0, stepsDone := 0, inner := [] })) c false
      else match brokenLink d (q.sides q.idx) with
        | some k => endDescAt t c (q.idx + 1 + k) sPOISONED 0
        | none => malformed t c

/-- A descriptor without side streams begins. -/
def beginOne (s : State) (c : Nat) : State :=
  runStep (updScript s c (fun (x : Script) => { x with phase := .run, step := 0, stepsDone := 0, inner := [] })) c false

-- descriptors -----------------------------------------------------------------------------------------------------------------

/-- HEAD: record area, capacity, `SEED` and `STEP`. -/
def execHead (c : Fin 256) (s : State) : Out :=
  .next (issueDesc s c hHEAD (fun t r d =>
    doneDesc (updScript t c (fun (q : Script) => { q with
      recAddr := r.dstRow d 0, recCap := d.count, seed := BitVec.ofNat 64 d.value, hstep := BitVec.ofNat 64 d.addr, stepsDone := 0 })) c 0))

/-- MOVE. -/
def execMove (c : Fin 256) (s : State) : Out := .next (issueDesc s c hMOVE (fun t r d => beginRows t c r d))

/-- EXPAND. -/
def execExpand (c : Fin 256) (s : State) : Out := .next (issueDesc s c hEXPAND (fun t r d => beginRows t c r d))

/-- COMPRESS. -/
def execCompress (c : Fin 256) (s : State) : Out := .next (issueDesc s c hCOMPRESS (fun t r d => beginRows t c r d))

/-- TABLE. -/
def execTable (c : Fin 256) (s : State) : Out := .next (issueDesc s c hTABLE (fun t _ _ => beginOne t c))

/-- KVGATHER. -/
def execKvgather (c : Fin 256) (s : State) : Out := .next (issueDesc s c hKVGATHER (fun t _ _ => beginOne t c))

/-- SETB: base register b1, b2 or b3. -/
def execSetb (c : Fin 256) (s : State) : Out :=
  .next (issueDesc s c hSETB (fun t _ d =>
    let v := BitVec.ofNat 64 d.value
    doneDesc (updScript t c (fun (q : Script) =>
      if d.param = 1 then { q with b1 := v } else if d.param = 2 then { q with b2 := v } else { q with b3 := v })) c 0))

/-- A loop's body is nested in the enclosing one, and no more than four are active. -/
def loopOk (r : Script) (d : HDesc) : Bool :=
  decide (r.idx < d.target) && decide (r.loops.length < 4) && (r.loops.head?.map (fun l => decide (d.target ≤ l.last))).getD true

/-- DESC_LOOP: the body from the next descriptor to `TARGET`, `PARAM` times. -/
def execDescLoop (c : Fin 256) (s : State) : Out :=
  .next (issueDesc s c hLOOP (fun t r d =>
    if !loopOk r d then malformed t c
    else if d.param = 0 then updScript t c (fun (q : Script) => nextDesc 0 { q with idx := d.target })
    else
      let l : ScriptLoop := { first := r.idx + 1, last := d.target, left := d.param, inc1 := BitVec.ofNat 64 d.src
                              inc2 := BitVec.ofNat 64 d.dst, inc3 := BitVec.ofNat 64 d.value }
      updScript t c (fun (q : Script) => nextDesc 0 { q with loops := l :: q.loops })))

/-- A WAIT's flag word lies in a bank of the hoist's die. -/
def waitPlaceOk (s : State) (c a : Nat) : Bool :=
  onDevice s a && decide (aDie a = channelDie c) && decide (aSpace a = 1) && decide (a % 8 = 0)

/-- DESC_WAIT. -/
def execDescWait (c : Fin 256) (s : State) : Out :=
  .next (issueDesc s c hWAIT (fun t r d =>
    if !waitPlaceOk t c d.addr then malformed t c
    else
      let due := Nat.min r.deadline (now t (channelDie c) + d.param)
      pollWait (updScript t c (fun (q : Script) => { q with phase := .waitFlag due, step := 0, stepsDone := 0, inner := [] })) c d))

/-- The WAIT that a channel's script is in, with the time it ends. -/
def waiting (s : State) (c : Nat) : Option (Script × HDesc × Nat) :=
  match (channel s c).run with
  | none => none
  | some r =>
    match r.phase, r.desc r.idx with
    | .waitFlag due, some d => if r.ended.isSome then none else some (r, d, due)
    | _, _ => none

/-- HOIST_WAIT_POLL: a write to the flag word, or the 64-cycle timer, makes the WAIT read its flag again, unless a read of it is under way. -/
def execHoistWaitPoll (c : Fin 256) (s : State) : Out :=
  .next (match waiting s c with
    | some (_, d, _) => pollWait (updScript s c (fun (q : Script) => { q with inner := q.inner.filter (fun i => i.res.isNone) })) c d
    | none => s)

/-- HOIST_WAIT_TIMEOUT: `PARAM` ns or the script's deadline have passed. -/
def execHoistWaitTimeout (c : Fin 256) (s : State) : Out :=
  .next (match waiting s c with
    | some (_, _, due) => if due ≤ now s (channelDie c) then endDesc s c sFAILED rDeadline else s
    | none => s)

/-- Send a FLAG's message. -/
def sendFlag (s : State) (c : Nat) (r : Script) (d : HDesc) : State := startInner s c r (uLead 0) 4 d.role d.addr 8 d.param (toLE 8 d.value)

/-- DESC_FLAG: a FLAG operation, once every earlier descriptor has completed. -/
def execDescFlag (c : Fin 256) (s : State) : Out :=
  .next (issueDesc s c hFLAG (fun t r d =>
    runStep (sendFlag (updScript t c (fun (q : Script) => { q with phase := .flag, step := 0, stepsDone := 0, inner := [] })) c r d) c false))

/-- DESC_FENCE: descriptors complete in order here, so that every earlier one has completed. -/
def execDescFence (c : Fin 256) (s : State) : Out := .next (issueDesc s c hFENCE (fun t _ _ => doneDesc t c 0))

/-- END: the script ends, POISONED if any block was (R207). -/
def execHoistEnd (c : Fin 256) (s : State) : Out :=
  .next (issueDesc s c hEND (fun t r _ => updScript t c (fun (q : Script) =>
    { q with executed := q.executed + 1, ended := some (if r.poison then sPOISONED else sOK, 0) })))

-- events of the script (R207) ---------------------------------------------------------------------------------------------------------

/-- An inner operation that was refused and waits. -/
def Inner.refused (i : Inner) : Bool := i.op.isNone && i.res.isNone

/-- The running descriptor tries again what was refused. -/
def retryInner (s : State) (c : Nat) : State :=
  let s1 := updScript s c (fun (r : Script) => { r with inner := r.inner.filter (fun i => !i.refused) })
  match (channel s1 c).run with
  | none => s1
  | some r =>
    match r.phase, r.desc r.idx with
    | .flag, some d => if (r.find (uLead 0) false).isNone then runStep (sendFlag s1 c r d) c false else s1
    | _, _ => runStep s1 c false

/-- INNER_OP_RETRY: a refused inner operation is judged again; a cause that cannot clear ends its descriptor. -/
def execInnerOpRetry (c : Fin 256) (s : State) : Out :=
  .next (if scriptRuns s c && (((channel s c).run.map (fun (r : Script) => r.inner.any Inner.refused)).getD false) then retryInner s c else s)

/-- Every inner operation that has been sent has completed. -/
def Script.quiet (r : Script) : Bool := r.inner.all (fun i => i.op.isNone || i.res.isSome)

/-- A script's deadline timer, which fires 100 ns before its deadline, has fired before now (R265). -/
def scriptLate (s : State) (c : Nat) (r : Script) : Bool := decide (r.deadline < now s (channelDie c) + 100)

/-- SCRIPT_COMPLETE: a script that has been ended completes once its inner operations have, and its records and summary have been written
(R207, R209); after its timer has fired it has failed. -/
def execScriptComplete (c : Fin 256) (s : State) : Out :=
  .next (match (channel s c).run with
    | some r =>
      match r.ended with
      | some (st, rs) =>
        if r.quiet && r.summed && decide (r.recs = []) then (if scriptLate s c r then endScript s c sFAILED rDeadline else endScript s c st rs) else s
      | none => s
    | none => s)

-- scripts go on as their operations complete ----------------------------------------------------------------------------------------------

/-- A script goes on: its records are written; one that runs reads its next descriptor or goes on with the running one; one that has been ended
writes its summary once its other records have been written. -/
def tend (s0 : State) (c : Nat) : State :=
  let s := pump s0 c
  match (channel s c).run with
  | none => s
  | some r =>
    match r.ended with
    | some (st, rs) => if r.quiet ∧ r.recs = [] ∧ r.summed = false then pump (updScript s c (fun (q : Script) => q.sumUp st rs)) c else s
    | none => if r.phase = .ready then (if isSafe s (channelDie c) then s else prefetch s c) else runStep s c false

/-- Put a channel in its place among those that an engine serves before or after it. -/
def insertChannel (c : Nat) (r : Script) : List (Nat × Script) → List (Nat × Script)
  | [] => [(c, r)]
  | (k, q) :: rest => if r.before q then (c, r) :: (k, q) :: rest else (k, q) :: insertChannel c r rest

/-- The running channels, earliest deadline first (R194, R263). -/
def runningChannels (s : State) : List Nat :=
  ((s.channels.filterMap (fun p => p.2.run.map (fun r => (p.1, r)))).foldl (fun l p => insertChannel p.1 p.2 l) []).map (fun p => p.1)

/-- Every script goes on as far as its completed operations let it, loads of programs read on, and aperture reads that wait for nothing more are
performed. -/
def resume (s : State) : State := releaseReads (tendLoads ((runningChannels s).foldl tend s))

end Sys2Proof.Machine
end

