-- ==== Sys2Proof/Machine/Routing.lean ====
section
/-!
DEFINITION. The routers: operation frames, route tables, forwarding, drops and route notices (R244, R246 to R252).
-/

namespace Sys2Proof.Machine

-- route notices (R217, R248) ---------------------------------------------------------------------------------------------

/-- A route notice has reached the device that issued the operation: it completes FAILED with the notice's reason, if it is still
waited for; or with reason deadline where its timer fires before now (R2, R265). -/
def noticeArrives (s : State) (m : Msg) : State :=
  let d := m.src.toNat % 2
  match (layer s d).ops.find? (fun o => decide (o.phase = .sent) && decide (o.msg.opc = m.opc) && decide (o.msg.seq = m.seq) &&
      decide (o.msg.kind = m.kind) && decide (o.msg.agent = m.agent) && decide (o.msg.cls = m.cls) && decide (o.msg.addr = m.addr)) with
  | some o => finishOp s d o sFAILED (if timerPast s d o then rDeadline else m.reason.toNat) [] (timerPast s d o)
  | none => s

/-- Send a route notice for a message toward the node that its `SRC` names. -/
def sendNoticeFor (s : State) (d reason : Nat) (m : Msg) : State :=
  let n := { m with reason := BitVec.ofNat 8 reason, data := [] }
  if m.src.toNat / 2 = s.boot.node then noticeArrives s n
  else queueFrame s d { p := .notice n, dest := m.src.toNat, lane := 4, hopsLeft := 15, fromBridge := false, inPort := none }

-- forwarding ---------------------------------------------------------------------------------------------------------------------

/-- Deadline and class of a queued frame, for its rank (R263). -/
def QFrame.before (a b : QFrame) : Bool :=
  let da := a.p.rank
  let db := b.p.rank
  if a.lane = 4 then decide (b.lane ≠ 4)
  else decide (b.lane ≠ 4) && (decide (da < db) || (decide (da = db) && decide (a.lane < b.lane)))

/-- The queue without its frame `i`, whose receive buffer is given back. -/
def leaveQueue (s : State) (d i : Nat) (q : QFrame) : State :=
  let s1 := setRouter s d { router s d with queue := (router s d).queue.eraseIdx i }
  match q.inPort with
  | some p => freed s1 p q.lane (frameLen (port s1 p) q.p)
  | .none => s1

/-- A message comes to its home or originator in this device. -/
def arriveHere (s : State) (d : Nat) (via : Option Nat) (m : Msg) (hops : Nat) : State :=
  if m.opc = 3 ∨ m.opc = 4 then arriveAtomic s d m
  else setLayer s d { layer s d with inbox := (layer s d).inbox ++ [⟨m, via, hops⟩] }

/-- A payload comes to die `d`. -/
def payloadHere (s : State) (d : Nat) (via : Option Nat) (p : Payload) : State := match p with
  | .op m => arriveHere s d via m 15
  | .notice m => noticeArrives s m
  | _ => s

/-- Put a frame in a port's queue. -/
def toPort (s : State) (p : Nat) (q : QFrame) : State :=
  let x := port s p
  setPort s p { x with queue := x.queue ++ [⟨0, q.lane, q.hopsLeft - 1, q.p, frameLen x q.p, false, q.inPort⟩] }

/-- Act on frame `i` of die `d`'s router. -/
def forwardFrame (s : State) (d i : Nat) (q : QFrame) : State :=
  let s1 := leaveQueue s d i q
  match wayOf s d q with
  | .wait => s
  | .here => payloadHere s1 d q.inPort q.p
  | .across => payloadHere s1 (1 - d) q.inPort q.p
  | .out p => toPort s1 p q
  | .bridge => queueFrame s1 (1 - d) { q with fromBridge := true }
  | .lost => s1
  | .hops => match q.inPort with
    | some p => bump s1 (pgPort p) HOP_DROP 1
    | .none => s1
  | .none reason => match q.p with
    | .op m => sendNoticeFor s1 d reason m
    | _ => s1

/-- Of two frames of a queue, at their places: the one served first, on a tie the earlier arrival (R263). -/
def servedFirst (a b : QFrame) (i j : Nat) : Bool := a.before b || (!b.before a && decide (i < j))

/-- FRAME_FORWARD: the router takes the frame of its queue that the row names, unless another that need not wait is served before
it (R263). -/
def execFrameForward (die : Die) (index : Nat) (s : State) : Out :=
  let d := die.val
  .next (if isSafe s d then s
  else match (router s d).queue[index]? with
    | .none => s
    | some q =>
      if (router s d).queue.zipIdx.any (fun r => servedFirst r.1 q r.2 index && decide (wayOf s d r.1 ≠ .wait)) then s
      else forwardFrame s d index q)

/-- Frame `index` of the port queues of die `d`, its ports ascending from `i` on, leaves if its deadline has passed. -/
def dropAtPort (s : State) (d : Nat) : Nat → Nat → State
  | 0, _ => s
  | n + 1, index =>
    let p := 12 * d + (11 - n)
    let x := port s p
    match x.queue[index]? with
    | some f => if f.late (now s d) then countLate (setPort s p { x with queue := x.queue.eraseIdx index }) f.inPort else s
    | .none => dropAtPort s d n (index - x.queue.length)

/-- FRAME_DEADLINE_DROP: a queued frame whose deadline has passed (R248): `index` counts the frames of the die's router, then those that wait
at its ports. -/
def execFrameDeadlineDrop (die : Die) (index : Nat) (s : State) : Out :=
  let d := die.val
  .next (match (router s d).queue[index]? with
    | .none => dropAtPort s d 12 (index - (router s d).queue.length)
    | some q => match q.p.deadline with
      | some dl => if dl ≤ now s d then countLate (leaveQueue s d index q) q.inPort else s
      | .none => s)

-- arrival from a link -------------------------------------------------------------------------------------------------------------------

/-- A combined completion for a copy that this device passed down port `p` (R253), of which it keeps the combining state until its deadline: its
`ADDR` holds a member and a count. -/
def combinedFor (s : State) (p : Nat) (m : Msg) : Option (Nat × Combine) :=
  if m.opc ≠ 8 ∨ bitsOf m.addr.toNat 63 47 ≠ 0 ∨ bitsOf m.addr.toNat 31 15 ≠ 0 then .none
  else
    let hit (c : Combine) : Bool := decide (c.msg.src = m.src) && decide (c.msg.kind = m.kind) && decide (c.msg.agent = m.agent) &&
      decide (c.msg.cls = m.cls) && decide (c.msg.seq = m.seq) && c.down.contains p
    (((layer s 0).combines.find? hit).map (fun c => (0, c))).orElse (fun _ => ((layer s 1).combines.find? hit).map (fun c => (1, c)))

/-- An operation frame's message, in a state of the port that carries its lane. -/
def opArrives (s : State) (p : Nat) (f : RxFrame) (m : Msg) : State :=
  let d := portDie p
  let q : QFrame := { p := .op m, dest := msgDest m, lane := f.lane, hopsLeft := f.hopsLeft, fromBridge := false, inPort := some p }
  if m.opc = 5 then arriveHere (consume s p f) d (some p) m f.hopsLeft
  else match combinedFor s p m with
    | some (e, _) => arriveHere (consume s p f) e (some p) m f.hopsLeft
    | .none => queueFrame s d q

/-- What the body of an operation frame or a route notice spells to a router that forwards it once its `HCRC` has checked: before the CRC, and on an
encrypted port before the tag (R240, R360). -/
def earlyFrame (x : Port) (p : Nat) (f : RxFrame) : Option QFrame :=
  let q (pl : Payload) (dest : Nat) : QFrame :=
    { p := pl, dest := dest, lane := f.lane, hopsLeft := f.hopsLeft, fromBridge := false, inPort := some p }
  match f.ftype with
  | 0 => (parseMsg (match x.keys with
      | some k => plainBody k f.body
      | none => f.body)).map (fun m => q (.op m) (msgDest m))
  | 4 => (parseNotice f.body).map (fun m => q (.notice m) m.src.toNat)
  | _ => none

/-- The port by which a router's frame leaves now, here or at the other die. -/
def egressOf (s : State) (d : Nat) (q : QFrame) : List Nat := match wayOf s d q with
  | .out e => [e]
  | .bridge => (match wayOf s (1 - d) { q with fromBridge := true } with
    | .out e => [e]
    | _ => [])
  | _ => []

/-- The ports on which copies of a frame that comes by port `p` begin: the way of a unicast frame, and each `DOWN` port of a multicast copy that
is taken (R252). A completion that is combined here is not forwarded (R253). -/
def begunOn (s : State) (p : Nat) (q : QFrame) : List Nat :=
  let d := portDie p
  match q.p with
  | .op m =>
    if m.opc = 5 then
      let e := Sparse.get 0 (copyOf s d m.gen.toNat).mc (groupOf m.addr.toNat)
      if bitsOf m.addr.toNat 63 58 ≠ 0 ∨ fld e 31 31 = 0 ∨ fld e 28 24 ≠ p ∨ q.hopsLeft = 0 ∨ combineRoom s d m = false then []
      else (bitList 24 (fld e 23 0)).filter (fun r => (decide (r / 12 = d) || decide (s.bridge.st = 2)) && portHolds s r q)
    else if (combinedFor s p m).isSome then [] else egressOf s d q
  | _ => egressOf s d q

/-- A copy that has begun on an egress which stood idle ends stomped: it takes no `LSEQ` and is not held (R240; log entry 126). -/
def stompOn (f : RxFrame) (q : QFrame) (s : State) (e : Nat) : State :=
  let y := port s e
  if y.queue ≠ [] ∨ y.held.any (fun g => !g.sent) = true then s
  else emit (setPort s e { y with sentAt := elapsed s, cryptCount := if y.seals f.ftype then y.cryptCount + 1 else y.cryptCount })
    (.frame e (stompFrame (y.sealFrame { f with
      lseq := y.txNext, lack := (y.rxNext + 4095) % 4096, nak := false, hopsLeft := f.hopsLeft - 1, crUnits := 0, crLane := 0
      bytes := frameLen y q.p, body := q.p.body })))

/-- A router begins to forward a frame once its `HCRC` has checked; where its CRC or its tag then fails, the copies that have begun end stomped
(R240, R360). -/
def stompCopy (s : State) (p : Nat) (f : RxFrame) : State :=
  let x := port s p
  match earlyFrame x p f with
  | .none => s
  | some q =>
    if f.lseq ≠ x.rxNext ∨ carriesP x.st f.lane q.p = false then s else (begunOn s p q).foldl (stompOn f q) s

/-- The frame's CRC is right and its tag is not. -/
def tagFails (x : Port) (f : RxFrame) : Bool := match x.keys with
  | some k => decide (f.ftype = 0) && (openBody k f).isNone
  | none => false

/-- What is left of a frame that port `p` did not accept as one of type `ty`: copies that end stomped. -/
def stompRest (s t : State) (p : Nat) (bs : List Byte) (ty : Nat) : State :=
  if linkRuns s p then
    match checkFrame bs with
    | .broken f => stompCopy t p f
    | .good f => if decide (f.ftype = ty) && tagFails (port s p) f then stompCopy t p f else t
    | _ => t
  else t

/-- OPERATION_FRAME: accepted in sequence, and queued in the router; what the port's state does not carry is acknowledged and discarded
(R244), and a malformed message is counted (R213, log entry 42). -/
def execOperationFrame (port : Fin 24) (bytes : List Byte) (s : State) : Out :=
  let r := receive s port bytes 0
  .next (match r.2 with
    | .none => stompRest s r.1 port bytes 0
    | some f =>
      let x := Machine.port r.1 port
      if carries x.st f.lane = false ∨ f.lane = 4 then
        let s1 := consume r.1 port f
        if x.st = 3 then bump s1 (pgPort port) Q_DISCARD 1 else s1
      else match parseMsg f.body with
        | .none => bump (consume r.1 port f) (pgRmop (portDie port)) MALFORMED 1
        | some m => opArrives r.1 port f m)

/-- ROUTE_NOTICE: a notice for this device completes its operation; any other is forwarded. -/
def execRouteNotice (port : Fin 24) (bytes : List Byte) (s : State) : Out :=
  let r := receive s port bytes 4
  .next (match r.2 with
    | .none => stompRest s r.1 port bytes 4
    | some f =>
      let x := Machine.port r.1 port
      if x.st < 4 then bump (consume r.1 port f) (pgPort port) Q_DISCARD (if x.st = 3 then 1 else 0)
      else match parseNotice f.body with
        | .none => bump (consume r.1 port f) (pgRmop (portDie port)) MALFORMED 1
        | some m =>
          if m.src.toNat / 2 = s.boot.node then noticeArrives (consume r.1 port f) m
          else queueFrame r.1 (portDie port)
            { p := .notice m, dest := m.src.toNat, lane := 4, hopsLeft := f.hopsLeft, fromBridge := false, inPort := some port.val })

end Sys2Proof.Machine
end

