-- ==== Sys2Proof/Machine/Messages.lean ====
section
/-!
DEFINITION. Messages at a die's remote-op layer: PUT, GET and multicast copies at their home, completions and acknowledgements at the
originator, and the layer's timers (R215 to R224, R252, R253, R265).
-/

namespace Sys2Proof.Machine

-- order of PUTs (R220) --------------------------------------------------------------------------------------------------

/-- An operation of the stream before a PUT that the PUT still waits for: one not yet received, or a PUT being performed (log entry 64). -/
def seqPending (x : InStream) (q : W32) : Bool :=
  match x.recs.find? (fun r => r.seq = q) with
  | none => true
  | some ⟨_, .performing put⟩ => put
  | some _ => false

/-- Some earlier operation of its stream holds a PUT back: those the originator has acknowledged, or that lie below the base, do not. -/
def putWaits (x : InStream) (q : W32) : Bool :=
  let lo := if seqLt x.ackTo x.base then x.base else x.ackTo
  seqLt lo q && (List.range (Nat.min 8192 (q - lo).toNat)).any (fun i => seqPending x (lo + BitVec.ofNat 32 i))

/-- A PUT of unicast or multicast is held. An MCPUT's copies are not ordered (R220). -/
def isHeld (s : State) (d : Nat) (m : Msg) : Bool :=
  decide (m.opc = 1) && (match inStream s d m with
    | some x => putWaits x m.seq
    | none => false)

-- at the home (R218 to R224) ----------------------------------------------------------------------------------------------

/-- Perform a write of spaces 0 to 2 at its home, after the directory's invalidations. -/
def performWrite (s : State) (d : Nat) (m : Msg) : State :=
  if aSpace m.addr.toNat = 2 then
    let r := remoteWrite s m d m.data
    homeComp r.1 d m r.2 0 []
  else
    writeAt (recordSeq s d m (.performing true)) d m .remote

/-- A PUT, or the own copy of an MCPUT, is judged at its home and performed, held, dropped or rejected. -/
def putArrives (s : State) (d : Nat) (m : Msg) : State :=
  let r := judgeStream s d m
  if !r.2 then r.1
  else
    let q := judgeOp r.1 d m
    if !q.2 then q.1
    else if isHeld q.1 d m then
      recordSeq (setLayer q.1 d { layer q.1 d with heldPuts := (layer q.1 d).heldPuts ++ [m] }) d m (.performing true)
    else performWrite q.1 d m

/-- PUT_MESSAGE: a PUT, or an own copy that has come from within the device, at its home. -/
def execPutMessage (die : Die) (m : Msg) (s : State) : Out :=
  let d := die.val
  .next (if isSafe s d then s
  else match takeMsg s d m with
    | some (s1, i) => if m.opc = 1 ∨ (m.opc = 5 ∧ i.via = none) then putArrives s1 d m else s
    | none => s)

/-- A held PUT leaves the list. -/
def unhold (s : State) (d : Nat) (m : Msg) : State :=
  setLayer s d { layer s d with heldPuts := (layer s d).heldPuts.eraseP (fun x => x == m) }

/-- HELD_PUT_RELEASE: every earlier PUT of its stream is performed or dropped, and the held one is judged again and performed. -/
def execHeldPutRelease (die : Die) (m : Msg) (s : State) : Out :=
  let d := die.val
  .next (if (layer s d).heldPuts.contains m && !isHeld s d m then
      let q := judgeOp (unhold s d m) d m
      if q.2 then performWrite q.1 d m else q.1
    else s)

/-- HELD_PUT_DEADLINE: a held PUT is dropped unperformed at its own deadline. -/
def execHeldPutDeadline (die : Die) (m : Msg) (s : State) : Out :=
  let d := die.val
  .next (if (layer s d).heldPuts.contains m && decide (m.deadline.toNat ≤ now s d) then recordSeq (unhold s d m) d m .dropped else s)

/-- A GET is judged at its home and served, dropped or rejected. -/
def getArrives (s : State) (d : Nat) (m : Msg) : State :=
  let r := judgeStream s d m
  if !r.2 then r.1
  else
    let q := judgeOp r.1 d m
    if !q.2 then q.1
    else if aSpace m.addr.toNat = 2 then
      let v := remoteRead q.1 m d (msgLen m)
      homeComp v.1 d m v.2.1 0 v.2.2
    else performAt q.1 d m .remote

/-- GET_MESSAGE: a GET at its home. -/
def execGetMessage (die : Die) (m : Msg) (s : State) : Out :=
  let d := die.val
  .next (if isSafe s d then s
  else match takeMsg s d m with
    | some (s1, _) => if m.opc = 2 then getArrives s1 d m else s
    | none => s)

-- multicast (R252, R253) ----------------------------------------------------------------------------------------------------

/-- A copy on its group's `UP` port goes on every `DOWN` port, and to the own member at the die that `ADDR` names. -/
def copyArrives (s : State) (d : Nat) (m : Msg) (up hops : Nat) : State :=
  let r := multicast s d m up hops
  combineIfDone (if r.2 then sendMsg putArrives r.1 d (2 * s.boot.node + aDie m.addr.toNat) m else r.1) d m

/-- MCPUT: a copy that has come by a port. One on another port than `UP` is stray; one without hops for its `DOWN` ports is dropped (log
entry 61); one that finds no combining state waits until its deadline. -/
def execMcput (port : Fin 24) (m : Msg) (s : State) : Out :=
  let p := port.val
  let d := portDie p
  .next (if isSafe s d then s
  else match takeMsg s d m with
    | none => s
    | some (s1, i) =>
      let e := Sparse.get 0 (copyOf s d m.gen.toNat).mc (groupOf m.addr.toNat)
      if m.opc ≠ 5 ∨ i.via ≠ some p then s
      else if bitsOf m.addr.toNat 63 58 ≠ 0 then bump s1 (pgRmop d) MALFORMED 1
      else if fld e 31 31 = 0 ∨ fld e 28 24 ≠ p then bump s1 (pgPort p) MC_STRAY 1
      else if i.hops = 0 ∧ fld e 23 0 ≠ 0 then bump s1 (pgPort p) HOP_DROP 1
      else if !combineRoom s d m then
        if m.deadline.toNat ≤ now s d then bump s1 (pgPort p) LATE_DROP 1 else s
      else copyArrives s1 d m p i.hops)

/-- A combined completion has come up from a `DOWN` port: the first of its port counts, and any later one is discarded (R253). -/
def combinePart (s : State) (d p : Nat) (m : Msg) (c : Combine) : State :=
  let c1 := { c with wait := c.wait.filter (fun q => q ≠ p) }
  let count := bitsOf m.addr.toNat 46 32
  if c.sent ∨ c.wait.contains p = false then s
  else updCombine s d (if m.sub = 0 ∧ count = 0 then c1
    else c1.fail m.sub.toNat m.reason.toNat (bitsOf m.addr.toNat 14 0) (Nat.max 1 count))

/-- MC_COMBINE_TIMEOUT: at `DEADLINE` − 1,000 k − 500 ns each missing part is one failing member: a port's by the node-die last agreed on
it, the own copy by its own. -/
def execMcCombineTimeout (die : Die) (copy : Nat) (s : State) : Out :=
  let d := die.val
  .next (match (layer s d).combines.find? (fun c => decide (c.id = copy) && !c.sent) with
    | none => s
    | some c =>
      if now s d + 1000 * c.depth + 500 < c.msg.deadline.toNat then s
      else
        let c1 := c.wait.foldl (fun (x : Combine) p => x.fail sFAILED rDeadline (fld (rd s (pgPort p) PEER) 14 0) 1) c
        let c2 := if c.own then c1.fail sFAILED rDeadline (2 * s.boot.node + aDie c.msg.addr.toNat) 1 else c1
        combineDone s d { c2 with wait := [], own := false })

-- at the originator (R217, R222, R265) -----------------------------------------------------------------------------------------

/-- `ADDR` of a combined completion: a member and a count. -/
def combinedAddr (a : Nat) : Bool := decide (bitsOf a 63 47 = 0) && decide (bitsOf a 31 15 = 0)

/-- A completion is that of an operation: same stream, same `SEQ` and `ADDR`; the combined one of an MCPUT has an `ADDR` of its own, and comes
from the root's own router (`inside`), for what comes by a port is one device's part (R253). -/
def answers (m : Msg) (inside : Bool) (o : ROp) : Bool :=
  decide (o.msg.seq = m.seq) && decide (o.msg.kind = m.kind) && decide (o.msg.agent = m.agent) && decide (o.msg.cls = m.cls) &&
  (if o.msg.opc = 5 then inside && combinedAddr m.addr.toNat else decide (o.msg.addr = m.addr))

/-- The completion of a sent operation has been received by its layer (R222). -/
def received (s : State) (d : Nat) (o : ROp) : State :=
  let x := (outStream s d o).receive o.msg.seq
  putOutStream s d o { x with ackDue := some (x.ackDue.getD (now s d)) }

/-- A stream in which the operation of this completion had its timer fire. -/
def firedIn (m : Msg) (inside : Bool) (x : OutStream) : Bool :=
  decide (x.kind = m.kind.toNat) && decide (x.agent = m.agent.toNat) && decide (x.cls = m.cls.toNat) && x.fired.contains m.seq &&
  (if 0x8000 ≤ x.dest then inside && combinedAddr m.addr.toNat else decide (x.dest = aNodeDie m.addr.toNat))

/-- A completion that nothing waits for is discarded, and counted where the timer has fired (R265). -/
def lateComp (s : State) (d : Nat) (m : Msg) (inside : Bool) : State :=
  if (layer s d).outStreams.any (firedIn m inside) then bump s (pgTime d) LATE_COMP 1 else s

/-- A completion has come to the layer of the die that issued the operation: it is late where the operation's timer fires before now (R2,
R265), and its `REASON` counts under FAILED alone (R11). -/
def compArrives (s : State) (d : Nat) (m : Msg) (inside : Bool) : State :=
  match (layer s d).ops.find? (fun o => decide (o.phase = .sent) && answers m inside o) with
  | none => lateComp s d m inside
  | some o =>
    if timerPast s d o then lateComp (finishOp s d o sFAILED rDeadline [] true) d m inside
    else
      let st := m.sub.toNat
      let rs := if st = sFAILED then m.reason.toNat else 0
      let s1 := if o.msg.opc = 5 then bump s (pgRmop d) MC_FAIL (bitsOf m.addr.toNat 46 32) else s
      let o1 := { o with phase := .back st rs }
      arriveData (putOp (received s1 d o) d o1) d o1 st rs (if o.msg.opc = 2 ∨ o.msg.opc = 3 then m.data else [])

/-- COMP: it completes its operation, or is one part of a combined completion. -/
def execComp (die : Die) (m : Msg) (s : State) : Out :=
  let d := die.val
  .next (if isSafe s d then s
  else match takeMsg s d m with
    | none => s
    | some (s1, i) =>
      if m.opc ≠ 8 then s
      else match i.via.bind (fun p => (combinedFor s p m).map (fun c => (p, c))) with
        | some (p, (e, c)) => combinePart s1 e p m c
        | none => resume (compArrives s1 d m i.via.isNone))

/-- ACK: the completions below it are freed at the destination. -/
def execAck (die : Die) (m : Msg) (s : State) : Out :=
  let d := die.val
  .next (if isSafe s d then s
  else match takeMsg s d m with
    | none => s
    | some (s1, _) =>
      if m.opc ≠ 9 then s
      else match inStream s1 d m with
        | some x => if x.incarn = m.incarn then putInStream s1 d m (x.acknowledge m.ack) else s1
        | none => s1)

/-- The ACK message of a stream: its `ADDR` names the destination node-die alone (log entry 62). -/
def ackMsg (s : State) (d : Nat) (x : OutStream) : Msg :=
  { opc := 9, sub := 0, cls := BitVec.ofNat 2 x.cls, lenM1 := 0, seq := 0, addr := BitVec.ofNat 64 (x.dest * 2 ^ 49), deadline := 0
    src := BitVec.ofNat 15 (nodeDie s d), agent := BitVec.ofNat 12 x.agent, kind := BitVec.ofNat 4 x.kind, epoch := sysEpoch s d
    gen := BitVec.ofNat 16 (router s d).live.gen, tag := 0, reason := 0, bell := 0, ack := x.base, incarn := (layer s d).incarn, data := [] }

/-- ACK_TIMER: 2 µs after a completion no message has carried the stream's `ACK`, and an ACK message does. -/
def execAckTimer (die : Die) (dest : BitVec 15) (kind : BitVec 4) (agent : BitVec 12) (cls : BitVec 2) (s : State) : Out :=
  let d := die.val
  let is (x : OutStream) : Bool := decide (x.dest = dest.toNat) && decide (x.kind = kind.toNat) && decide (x.agent = agent.toNat) &&
    decide (x.cls = cls.toNat)
  let L := layer s d
  .next (match L.outStreams.find? is with
    | none => s
    | some x =>
      match x.ackDue with
      | none => s
      | some t =>
        if isSafe s d ∨ now s d < t + 2000 then s
        else sendMsg toInbox (setLayer s d { L with outStreams := L.outStreams.map (fun y => if is y then { y with ackDue := none } else y) })
          d dest.toNat (ackMsg s d x))

/-- The operation with this number, at the layer of either die. -/
def anyOp (s : State) (op : Nat) : Option (Nat × ROp) :=
  ((findOp s 0 op).map (fun o => (0, o))).orElse (fun _ => (findOp s 1 op).map (fun o => (1, o)))

/-- `RMOP.RETRY_NS`, times height + 1 for an MCPUT (R217, R252). -/
def retryNs (s : State) (d : Nat) (o : ROp) : Nat := (rd s (pgRmop d) RETRY_NS).toNat * o.retryMul

/-- Send an operation again with the same `SEQ` and the stream's `ACK` as it stands. -/
def resend (s : State) (d : Nat) (o : ROp) : State :=
  let x := outStream s d o
  let m := { o.msg with ack := x.base }
  let o1 := { o with msg := m, sentAt := now s d }
  transmit (bump (putOutStream (putOp s d o1) d o1 { x with ackDue := none }) (pgRmop d) RETRANSMIT 1) d o1 m

/-- RETRANSMIT_TIMER: an operation still without completion is sent again. -/
def execRetransmitTimer (op : Nat) (s : State) : Out :=
  .next (match anyOp s op with
    | some (d, o) =>
      if o.phase = .sent ∧ o.sentAt + retryNs s d o ≤ now s d ∧ isSafe s d = false ∧ now s d < o.msg.deadline.toNat then resend s d o else s
    | none => s)

-- deadline timers (R265) -----------------------------------------------------------------------------------------------------------

/-- The stope whose queue holds a long operation. -/
def findLong (s : State) (op : Nat) : Option (Nat × LongOp) :=
  s.stopes.findSome? (fun p => (p.2.queue.find? (fun o => o.op = op)).map (fun o => (p.1, o)))

/-- The running face tile of a stope waits for nothing but its canary: it completes on its own result (R338). -/
def onlyCanary (s : State) (n : Nat) (o : LongOp) : Option FaceRun :=
  if ((stope s n).queue.head?.map (fun h => h.op)) = some o.op ∧ canaryOut s o.op = true then
    match o.run with
    | some r => if r.fallback then none else some r
    | none => none
  else none

/-- The timer of a stope's long operation. -/
def longTimer (s : State) (n : Nat) (o : LongOp) : State :=
  if now s (n / 256) + 100 < o.deadline then s
  else match onlyCanary s n o with
    | some r => endTile (bump s (pgAssay (quadOf n)) CANARY_SKIPPED 1) n o r
    | none => failLong s n rDeadline o

/-- The channel that runs the script of an operation. -/
def findScript (s : State) (op : Nat) : Option (Nat × Script) :=
  s.channels.findSome? (fun p => match p.2.run with
    | some r => if r.op = op then some (p.1, r) else none
    | none => none)

/-- When the timer of a remote operation fires: at `DEADLINE` − g, or, where its completion has come and its data is being written to the
local buffer, at `DEADLINE`, after which that write does not begin (R144, R265). -/
def timerAt (o : ROp) : Nat := match o.phase with
  | .back _ _ => o.msg.deadline.toNat
  | _ => o.msg.deadline.toNat - guardNs o.origin

/-- DEADLINE_TIMER: at `DEADLINE` − g an operation of any layer without a completion completes FAILED with reason deadline. -/
def execDeadlineTimer (op : Nat) (s : State) : Out :=
  .next (match anyOp s op with
    | some (d, o) => if now s d < timerAt o then s else resume (finishOp s d o sFAILED rDeadline [] true)
    | none =>
      match findLong s op with
      | some (n, o) => longTimer s n o
      | none =>
        match findScript s op with
        | some (c, r) => if now s (c / 128) + 100 < r.deadline then s else endScript s c sFAILED rDeadline
        | none => s)

end Sys2Proof.Machine
end

