-- ==== Sys2Proof/Machine/Dispatch.lean ====
section
/-!
DEFINITION. One arm per command: what exec does with each is its own meaning.
-/

namespace Sys2Proof.Machine

/-- The effect of a command on everything but the queue. -/
def exec (i : Instr) (s : State) : Host.Outcome State Fault Refusal :=
  match i with
  | .nop st d a b imm => Sys2Proof.Machine.execNop st d a b imm s
  | .add st d a b imm => Sys2Proof.Machine.execAdd st d a b imm s
  | .sub st d a b imm => Sys2Proof.Machine.execSub st d a b imm s
  | .and st d a b imm => Sys2Proof.Machine.execAnd st d a b imm s
  | .or st d a b imm => Sys2Proof.Machine.execOr st d a b imm s
  | .xor st d a b imm => Sys2Proof.Machine.execXor st d a b imm s
  | .shl st d a b imm => Sys2Proof.Machine.execShl st d a b imm s
  | .shr st d a b imm => Sys2Proof.Machine.execShr st d a b imm s
  | .mul st d a b imm => Sys2Proof.Machine.execMul st d a b imm s
  | .min st d a b imm => Sys2Proof.Machine.execMin st d a b imm s
  | .max st d a b imm => Sys2Proof.Machine.execMax st d a b imm s
  | .addi st d a b imm => Sys2Proof.Machine.execAddi st d a b imm s
  | .andi st d a b imm => Sys2Proof.Machine.execAndi st d a b imm s
  | .xori st d a b imm => Sys2Proof.Machine.execXori st d a b imm s
  | .shli st d a b imm => Sys2Proof.Machine.execShli st d a b imm s
  | .shri st d a b imm => Sys2Proof.Machine.execShri st d a b imm s
  | .movhi st d a b imm => Sys2Proof.Machine.execMovhi st d a b imm s
  | .lds st d a b imm => Sys2Proof.Machine.execLds st d a b imm s
  | .sts st d a b imm => Sys2Proof.Machine.execSts st d a b imm s
  | .time st d a b imm => Sys2Proof.Machine.execTime st d a b imm s
  | .amov st d a b imm => Sys2Proof.Machine.execAmov st d a b imm s
  | .smov st d a b imm => Sys2Proof.Machine.execSmov st d a b imm s
  | .aadd st d a b imm => Sys2Proof.Machine.execAadd st d a b imm s
  | .loop st d a b imm => Sys2Proof.Machine.execLoop st d a b imm s
  | .beq st d a b imm => Sys2Proof.Machine.execBeq st d a b imm s
  | .bne st d a b imm => Sys2Proof.Machine.execBne st d a b imm s
  | .blt st d a b imm => Sys2Proof.Machine.execBlt st d a b imm s
  | .bge st d a b imm => Sys2Proof.Machine.execBge st d a b imm s
  | .bltu st d a b imm => Sys2Proof.Machine.execBltu st d a b imm s
  | .jmp st d a b imm => Sys2Proof.Machine.execJmp st d a b imm s
  | .halt st d a b imm => Sys2Proof.Machine.execHalt st d a b imm s
  | .reservedOpcode st word => Sys2Proof.Machine.execReservedOpcode st word s
  | .face st d a b imm => Sys2Proof.Machine.execFace st d a b imm s
  | .upd st d a b imm => Sys2Proof.Machine.execUpd st d a b imm s
  | .quant st d a b imm => Sys2Proof.Machine.execQuant st d a b imm s
  | .vadd st d a b imm => Sys2Proof.Machine.execVadd st d a b imm s
  | .vsub st d a b imm => Sys2Proof.Machine.execVsub st d a b imm s
  | .vmul st d a b imm => Sys2Proof.Machine.execVmul st d a b imm s
  | .vfma st d a b imm => Sys2Proof.Machine.execVfma st d a b imm s
  | .vmax st d a b imm => Sys2Proof.Machine.execVmax st d a b imm s
  | .vmin st d a b imm => Sys2Proof.Machine.execVmin st d a b imm s
  | .vdiv st d a b imm => Sys2Proof.Machine.execVdiv st d a b imm s
  | .vsqrt st d a b imm => Sys2Proof.Machine.execVsqrt st d a b imm s
  | .vexp2 st d a b imm => Sys2Proof.Machine.execVexp2 st d a b imm s
  | .vcvt st d a b imm => Sys2Proof.Machine.execVcvt st d a b imm s
  | .vsum st d a b imm => Sys2Proof.Machine.execVsum st d a b imm s
  | .vamax st d a b imm => Sys2Proof.Machine.execVamax st d a b imm s
  | .vbcast st d a b imm => Sys2Proof.Machine.execVbcast st d a b imm s
  | .vld st d a b imm => Sys2Proof.Machine.execVld st d a b imm s
  | .vst st d a b imm => Sys2Proof.Machine.execVst st d a b imm s
  | .put st d a b imm => Sys2Proof.Machine.execPut st d a b imm s
  | .get st d a b imm => Sys2Proof.Machine.execGet st d a b imm s
  | .atom st d a b imm => Sys2Proof.Machine.execAtom st d a b imm s
  | .flag st d a b imm => Sys2Proof.Machine.execFlag st d a b imm s
  | .mcast st d a b imm => Sys2Proof.Machine.execMcast st d a b imm s
  | .fence st d a b imm => Sys2Proof.Machine.execFence st d a b imm s
  | .wait st d a b imm => Sys2Proof.Machine.execWait st d a b imm s
  | .waitf st d a b imm => Sys2Proof.Machine.execWaitf st d a b imm s
  | .waitfPoll st => Sys2Proof.Machine.execWaitfPoll st s
  | .waitfTimeout st => Sys2Proof.Machine.execWaitfTimeout st s
  | .waitt st d a b imm => Sys2Proof.Machine.execWaitt st d a b imm s
  | .waittExpiry st => Sys2Proof.Machine.execWaittExpiry st s
  | .waitall st d a b imm => Sys2Proof.Machine.execWaitall st d a b imm s
  | .hoist st d a b imm => Sys2Proof.Machine.execHoist st d a b imm s
  | .progCmdNone w st => Sys2Proof.Machine.execProgCmdNone w st s
  | .progLoad w st => Sys2Proof.Machine.execProgLoad w st s
  | .progLoadDone st => Sys2Proof.Machine.execProgLoadDone st s
  | .progLaunch w st => Sys2Proof.Machine.execProgLaunch w st s
  | .progStop w st => Sys2Proof.Machine.execProgStop w st s
  | .stopeReadyReturn st => Sys2Proof.Machine.execStopeReadyReturn st s
  | .facePassComplete st errs replayErrs => Sys2Proof.Machine.execFacePassComplete st errs replayErrs s
  | .faceTileComplete st => Sys2Proof.Machine.execFaceTileComplete st s
  | .canaryCopyDone st => Sys2Proof.Machine.execCanaryCopyDone st s
  | .canaryResultReturn st errs replayErrs partnerErrs => Sys2Proof.Machine.execCanaryResultReturn st errs replayErrs partnerErrs s
  | .updComplete st => Sys2Proof.Machine.execUpdComplete st s
  | .quantComplete st => Sys2Proof.Machine.execQuantComplete st s
  | .amaxSlotClear w st value => Sys2Proof.Machine.execAmaxSlotClear w st value s
  | .totalsClear w st value => Sys2Proof.Machine.execTotalsClear w st value s
  | .bankPortBAccess b cyc => Sys2Proof.Machine.execBankPortBAccess b cyc s
  | .modeNormal w b => Sys2Proof.Machine.execModeNormal w b s
  | .modeStartup w b => Sys2Proof.Machine.execModeStartup w b s
  | .modeTest w b => Sys2Proof.Machine.execModeTest w b s
  | .modeRecovery w b => Sys2Proof.Machine.execModeRecovery w b s
  | .modeChangeApplied b => Sys2Proof.Machine.execModeChangeApplied b s
  | .handover w r next => Sys2Proof.Machine.execHandover w r next s
  | .forcedRecall w r next => Sys2Proof.Machine.execForcedRecall w r next s
  | .leaseEndWrite w r l => Sys2Proof.Machine.execLeaseEndWrite w r l s
  | .leaseEnd r => Sys2Proof.Machine.execLeaseEnd r s
  | .iadd32 b cyc => Sys2Proof.Machine.execIadd32 b cyc s
  | .iadd64 b cyc => Sys2Proof.Machine.execIadd64 b cyc s
  | .fadd32 b cyc => Sys2Proof.Machine.execFadd32 b cyc s
  | .fadd16 b cyc => Sys2Proof.Machine.execFadd16 b cyc s
  | .swap b cyc => Sys2Proof.Machine.execSwap b cyc s
  | .cas b cyc => Sys2Proof.Machine.execCas b cyc s
  | .flagSet b cyc => Sys2Proof.Machine.execFlagSet b cyc s
  | .flagAdd b cyc => Sys2Proof.Machine.execFlagAdd b cyc s
  | .stackAccess k errs => Sys2Proof.Machine.execStackAccess k errs s
  | .regionRemapDone k => Sys2Proof.Machine.execRegionRemapDone k s
  | .refresh k => Sys2Proof.Machine.execRefresh k s
  | .stackTempSample k celsius => Sys2Proof.Machine.execStackTempSample k celsius s
  | .stackResume w k => Sys2Proof.Machine.execStackResume w k s
  | .stackZeroingDone k => Sys2Proof.Machine.execStackZeroingDone k s
  | .head c => Sys2Proof.Machine.execHead c s
  | .move c => Sys2Proof.Machine.execMove c s
  | .expand c => Sys2Proof.Machine.execExpand c s
  | .compress c => Sys2Proof.Machine.execCompress c s
  | .table c => Sys2Proof.Machine.execTable c s
  | .kvgather c => Sys2Proof.Machine.execKvgather c s
  | .setb c => Sys2Proof.Machine.execSetb c s
  | .descLoop c => Sys2Proof.Machine.execDescLoop c s
  | .descWait c => Sys2Proof.Machine.execDescWait c s
  | .hoistWaitPoll c => Sys2Proof.Machine.execHoistWaitPoll c s
  | .hoistWaitTimeout c => Sys2Proof.Machine.execHoistWaitTimeout c s
  | .descFlag c => Sys2Proof.Machine.execDescFlag c s
  | .descFence c => Sys2Proof.Machine.execDescFence c s
  | .hoistEnd c => Sys2Proof.Machine.execHoistEnd c s
  | .blockRelease c row => Sys2Proof.Machine.execBlockRelease c row s
  | .mapEntryWrite c row => Sys2Proof.Machine.execMapEntryWrite c row s
  | .hoistStepDone c row => Sys2Proof.Machine.execHoistStepDone c row s
  | .innerOpRetry c => Sys2Proof.Machine.execInnerOpRetry c s
  | .scriptComplete c => Sys2Proof.Machine.execScriptComplete c s
  | .channelLaunch w c => Sys2Proof.Machine.execChannelLaunch w c s
  | .channelStop w c => Sys2Proof.Machine.execChannelStop w c s
  | .hoistCntClear w e value => Sys2Proof.Machine.execHoistCntClear w e value s
  | .putMessage die m => Sys2Proof.Machine.execPutMessage die m s
  | .heldPutRelease die m => Sys2Proof.Machine.execHeldPutRelease die m s
  | .getMessage die m => Sys2Proof.Machine.execGetMessage die m s
  | .mcput port m => Sys2Proof.Machine.execMcput port m s
  | .comp die m => Sys2Proof.Machine.execComp die m s
  | .ack die m => Sys2Proof.Machine.execAck die m s
  | .ackTimer die dest kind agent cls => Sys2Proof.Machine.execAckTimer die dest kind agent cls s
  | .retransmitTimer op => Sys2Proof.Machine.execRetransmitTimer op s
  | .deadlineTimer op => Sys2Proof.Machine.execDeadlineTimer op s
  | .gets die m => Sys2Proof.Machine.execGets die m s
  | .fill die m => Sys2Proof.Machine.execFill die m s
  | .inv die m => Sys2Proof.Machine.execInv die m s
  | .iack die m => Sys2Proof.Machine.execIack die m s
  | .absent die m => Sys2Proof.Machine.execAbsent die m s
  | .evict die m => Sys2Proof.Machine.execEvict die m s
  | .directoryWriteRelease die line => Sys2Proof.Machine.execDirectoryWriteRelease die line s
  | .sharerLeaseEnd die line sharer => Sys2Proof.Machine.execSharerLeaseEnd die line sharer s
  | .operationFrame port bytes => Sys2Proof.Machine.execOperationFrame port bytes s
  | .idleFrame port bytes => Sys2Proof.Machine.execIdleFrame port bytes s
  | .idleFrameTimer port => Sys2Proof.Machine.execIdleFrameTimer port s
  | .frameTransmit port => Sys2Proof.Machine.execFrameTransmit port s
  | .frameForward die index => Sys2Proof.Machine.execFrameForward die index s
  | .frameDeadlineDrop die index => Sys2Proof.Machine.execFrameDeadlineDrop die index s
  | .routeNotice port bytes => Sys2Proof.Machine.execRouteNotice port bytes s
  | .replayTimeout port => Sys2Proof.Machine.execReplayTimeout port s
  | .fastRetrain w port => Sys2Proof.Machine.execFastRetrain w port s
  | .fullTraining w port => Sys2Proof.Machine.execFullTraining w port s
  | .portOff w port => Sys2Proof.Machine.execPortOff w port s
  | .fastRetrainDone port ok => Sys2Proof.Machine.execFastRetrainDone port ok s
  | .electricalTrainingDone port flight => Sys2Proof.Machine.execElectricalTrainingDone port flight s
  | .trainingRetryTimer port => Sys2Proof.Machine.execTrainingRetryTimer port s
  | .agreeFrame port bytes => Sys2Proof.Machine.execAgreeFrame port bytes s
  | .agreeRepeatTimer port => Sys2Proof.Machine.execAgreeRepeatTimer port s
  | .agreeWaitTimeout port => Sys2Proof.Machine.execAgreeWaitTimeout port s
  | .safeIdleFrame port bytes => Sys2Proof.Machine.execSafeIdleFrame port bytes s
  | .safeIdleTimer port => Sys2Proof.Machine.execSafeIdleTimer port s
  | .timeFrame port bytes => Sys2Proof.Machine.execTimeFrame port bytes s
  | .timeFrameTimer port => Sys2Proof.Machine.execTimeFrameTimer port s
  | .bridgeTimeExchange die => Sys2Proof.Machine.execBridgeTimeExchange die s
  | .timeSourceTimeout die => Sys2Proof.Machine.execTimeSourceTimeout die s
  | .timeDoubtSafeTimeout => Sys2Proof.Machine.execTimeDoubtSafeTimeout s
  | .ppsEdge highNs => Sys2Proof.Machine.execPpsEdge highNs s
  | .ppsAbsenceTimeout => Sys2Proof.Machine.execPpsAbsenceTimeout s
  | .attestationFrame port bytes => Sys2Proof.Machine.execAttestationFrame port bytes s
  | .attestationTimeout port => Sys2Proof.Machine.execAttestationTimeout port s
  | .mcCombineTimeout die copy => Sys2Proof.Machine.execMcCombineTimeout die copy s
  | .floorTargetWrite w die value => Sys2Proof.Machine.execFloorTargetWrite w die value s
  | .throttleWrite w die value => Sys2Proof.Machine.execThrottleWrite w die value s
  | .rqTailWrite value => Sys2Proof.Machine.execRqTailWrite value s
  | .requestFetch bytes => Sys2Proof.Machine.execRequestFetch bytes s
  | .hostDataReadDone op result => Sys2Proof.Machine.execHostDataReadDone op result s
  | .cqHeadWrite value => Sys2Proof.Machine.execCqHeadWrite value s
  | .queueEnable w => Sys2Proof.Machine.execQueueEnable w s
  | .queueDisable w => Sys2Proof.Machine.execQueueDisable w s
  | .functionLevelReset => Sys2Proof.Machine.execFunctionLevelReset s
  | .apertureRead offset len => Sys2Proof.Machine.execApertureRead offset len s
  | .apertureWrite offset data => Sys2Proof.Machine.execApertureWrite offset data s
  | .apertureWriteRelease => Sys2Proof.Machine.execApertureWriteRelease s
  | .pcieConfigRequest offset => Sys2Proof.Machine.execPcieConfigRequest offset s
  | .doorbellClear value => Sys2Proof.Machine.execDoorbellClear value s
  | .dbMaskHostWrite value => Sys2Proof.Machine.execDbMaskHostWrite value s
  | .dbMaskHfWrite w value => Sys2Proof.Machine.execDbMaskHfWrite w value s
  | .mailboxPost m bytes => Sys2Proof.Machine.execMailboxPost m bytes s
  | .mailboxPop w m => Sys2Proof.Machine.execMailboxPop w m s
  | .registerWrite w path die page offset bytes => Sys2Proof.Machine.execRegisterWrite w path die page offset bytes s
  | .readAndClear path die page offset size => Sys2Proof.Machine.execReadAndClear path die page offset size s
  | .timeLoRead die => Sys2Proof.Machine.execTimeLoRead die s
  | .recordRead die => Sys2Proof.Machine.execRecordRead die s
  | .blkCommit w die page g => Sys2Proof.Machine.execBlkCommit w die page g s
  | .commitApplied die page => Sys2Proof.Machine.execCommitApplied die page s
  | .profileCommit w die g => Sys2Proof.Machine.execProfileCommit w die g s
  | .profileCopyStart die => Sys2Proof.Machine.execProfileCopyStart die s
  | .profileCopyDone die => Sys2Proof.Machine.execProfileCopyDone die s
  | .powerUp => Sys2Proof.Machine.execPowerUp s
  | .reset cause => Sys2Proof.Machine.execReset cause s
  | .resetRelease => Sys2Proof.Machine.execResetRelease s
  | .bankZeroingDone => Sys2Proof.Machine.execBankZeroingDone s
  | .securitySelfTestDone pass => Sys2Proof.Machine.execSecuritySelfTestDone pass s
  | .bridgeTrained => Sys2Proof.Machine.execBridgeTrained s
  | .bridgeTrainingTimeout => Sys2Proof.Machine.execBridgeTrainingTimeout s
  | .headframeImageVerified image => Sys2Proof.Machine.execHeadframeImageVerified image s
  | .foremanImageVerified image => Sys2Proof.Machine.execForemanImageVerified image s
  | .pcieLinkTrained => Sys2Proof.Machine.execPcieLinkTrained s
  | .headframeHeartbeat => Sys2Proof.Machine.execHeadframeHeartbeat s
  | .headframeTakeover => Sys2Proof.Machine.execHeadframeTakeover s
  | .firstHeartbeatTimeout => Sys2Proof.Machine.execFirstHeartbeatTimeout s
  | .foremanLost f => Sys2Proof.Machine.execForemanLost f s
  | .musterFrame bytes => Sys2Proof.Machine.execMusterFrame bytes s
  | .chainFrameGap => Sys2Proof.Machine.execChainFrameGap s
  | .assign w value => Sys2Proof.Machine.execAssign w value s
  | .musterExpiry => Sys2Proof.Machine.execMusterExpiry s
  | .deviceReady => Sys2Proof.Machine.execDeviceReady s
  | .peerDisagreementTimeout => Sys2Proof.Machine.execPeerDisagreementTimeout s
  | .pinFuncWrite w hi value => Sys2Proof.Machine.execPinFuncWrite w hi value s
  | .pinParkEnd => Sys2Proof.Machine.execPinParkEnd s
  | .domainOn w f idx => Sys2Proof.Machine.execDomainOn w f idx s
  | .domainPoweredUp dom => Sys2Proof.Machine.execDomainPoweredUp dom s
  | .domainOff w f idx => Sys2Proof.Machine.execDomainOff w f idx s
  | .domainPowerRemoved dom => Sys2Proof.Machine.execDomainPowerRemoved dom s
  | .dvfsClockSwitch die => Sys2Proof.Machine.execDvfsClockSwitch die s
  | .dvfsChangeEnd die => Sys2Proof.Machine.execDvfsChangeEnd die s
  | .pllLockLoss die pll => Sys2Proof.Machine.execPllLockLoss die pll s
  | .railSample r inBounds => Sys2Proof.Machine.execRailSample r inBounds s
  | .inputSample millivolts => Sys2Proof.Machine.execInputSample millivolts s
  | .powerMonitorReport meanWatts => Sys2Proof.Machine.execPowerMonitorReport meanWatts s
  | .junctionSample hl celsius => Sys2Proof.Machine.execJunctionSample hl celsius s
  | .thermtrip => Sys2Proof.Machine.execThermtrip s
  | .poweredSecondWrite die => Sys2Proof.Machine.execPoweredSecondWrite die s
  | .drainWindowEnd die => Sys2Proof.Machine.execDrainWindowEnd die s
  | .historySealDone die => Sys2Proof.Machine.execHistorySealDone die s
  | .bridgeLockLoss => Sys2Proof.Machine.execBridgeLockLoss s
  | .bridgeProgressTimeout => Sys2Proof.Machine.execBridgeProgressTimeout s
  | .bridgeRetrainTimeout => Sys2Proof.Machine.execBridgeRetrainTimeout s
  | .keyInstall w => Sys2Proof.Machine.execKeyInstall w s
  | .keyRetireOne w => Sys2Proof.Machine.execKeyRetireOne w s
  | .keyRetireAll w => Sys2Proof.Machine.execKeyRetireAll w s
  | .svnRaiseHeadframe w => Sys2Proof.Machine.execSvnRaiseHeadframe w s
  | .svnRaiseForeman w => Sys2Proof.Machine.execSvnRaiseForeman w s
  | .svnRaiseStope w floor => Sys2Proof.Machine.execSvnRaiseStope w floor s
  | .revoke w slot => Sys2Proof.Machine.execRevoke w slot s
  | .getVersion message => Sys2Proof.Machine.execGetVersion message s
  | .getCapabilities message => Sys2Proof.Machine.execGetCapabilities message s
  | .negotiateAlgorithms message => Sys2Proof.Machine.execNegotiateAlgorithms message s
  | .getDigests message => Sys2Proof.Machine.execGetDigests message s
  | .getCertificate message => Sys2Proof.Machine.execGetCertificate message s
  | .challenge message => Sys2Proof.Machine.execChallenge message s
  | .getMeasurements message => Sys2Proof.Machine.execGetMeasurements message s
  | .keyExchange message => Sys2Proof.Machine.execKeyExchange message s
  | .finish session message => Sys2Proof.Machine.execFinish session message s
  | .heartbeat session message => Sys2Proof.Machine.execHeartbeat session message s
  | .endSession session message => Sys2Proof.Machine.execEndSession session message s
  | .tachometerNotice => Sys2Proof.Machine.execTachometerNotice s
  | .captureEdge capture => Sys2Proof.Machine.execCaptureEdge capture s
  | .captureNotice capture => Sys2Proof.Machine.execCaptureNotice capture s
  | .entdaa bus address => Sys2Proof.Machine.execEntdaa bus address s
  | .i3cPrivateWrite bus bytes => Sys2Proof.Machine.execI3cPrivateWrite bus bytes s
  | .i3cPrivateRead bus => Sys2Proof.Machine.execI3cPrivateRead bus s
  | .peerSignalDetected port => Sys2Proof.Machine.execPeerSignalDetected port s
  | .tachometerEdge fan => Sys2Proof.Machine.execTachometerEdge fan s
  | .heldPutDeadline die m => Sys2Proof.Machine.execHeldPutDeadline die m s
  | .resetHoldEnd => Sys2Proof.Machine.execResetHoldEnd s

end Sys2Proof.Machine
end

