-- ==== Sys2Proof/Machine/Idle.lean ====
section
/-!
DEFINITION. What happens while no command waits.
-/

namespace Sys2Proof.Machine

/-- A nanosecond without a command: what waits for nothing more goes on, time passes (log entry 2), long operations go on with it, and each die
has the source that its candidates give it (R268). -/
def idle (s : State) : State := tendSource (tendSource (longTicks (tick (resume s))) 0) 1

end Sys2Proof.Machine
end

