-- ==== Sys2Proof/Machine/Words.lean ====
section
/-!
DEFINITION. The command that a stope's instruction word is, and the word of a command (Table 06-1, Table 06-3).
-/

namespace Sys2Proof.Machine

/-- The word of a stope instruction, with its stope; other commands have none. -/
def encodeStope : Instr → Option (Fin 512 × W64)
  | .nop st d a b imm => some (st, wordOf 0x00 d a b imm)
  | .add st d a b imm => some (st, wordOf 0x01 d a b imm)
  | .sub st d a b imm => some (st, wordOf 0x02 d a b imm)
  | .and st d a b imm => some (st, wordOf 0x03 d a b imm)
  | .or st d a b imm => some (st, wordOf 0x04 d a b imm)
  | .xor st d a b imm => some (st, wordOf 0x05 d a b imm)
  | .shl st d a b imm => some (st, wordOf 0x06 d a b imm)
  | .shr st d a b imm => some (st, wordOf 0x07 d a b imm)
  | .mul st d a b imm => some (st, wordOf 0x08 d a b imm)
  | .min st d a b imm => some (st, wordOf 0x09 d a b imm)
  | .max st d a b imm => some (st, wordOf 0x0A d a b imm)
  | .addi st d a b imm => some (st, wordOf 0x0B d a b imm)
  | .andi st d a b imm => some (st, wordOf 0x0C d a b imm)
  | .xori st d a b imm => some (st, wordOf 0x0D d a b imm)
  | .shli st d a b imm => some (st, wordOf 0x0E d a b imm)
  | .shri st d a b imm => some (st, wordOf 0x0F d a b imm)
  | .movhi st d a b imm => some (st, wordOf 0x10 d a b imm)
  | .lds st d a b imm => some (st, wordOf 0x11 d a b imm)
  | .sts st d a b imm => some (st, wordOf 0x12 d a b imm)
  | .time st d a b imm => some (st, wordOf 0x13 d a b imm)
  | .amov st d a b imm => some (st, wordOf 0x14 d a b imm)
  | .smov st d a b imm => some (st, wordOf 0x15 d a b imm)
  | .aadd st d a b imm => some (st, wordOf 0x16 d a b imm)
  | .loop st d a b imm => some (st, wordOf 0x18 d a b imm)
  | .beq st d a b imm => some (st, wordOf 0x19 d a b imm)
  | .bne st d a b imm => some (st, wordOf 0x1A d a b imm)
  | .blt st d a b imm => some (st, wordOf 0x1B d a b imm)
  | .bge st d a b imm => some (st, wordOf 0x1C d a b imm)
  | .bltu st d a b imm => some (st, wordOf 0x1D d a b imm)
  | .jmp st d a b imm => some (st, wordOf 0x1E d a b imm)
  | .halt st d a b imm => some (st, wordOf 0x1F d a b imm)
  | .face st d a b imm => some (st, wordOf 0x20 d a b imm)
  | .upd st d a b imm => some (st, wordOf 0x21 d a b imm)
  | .quant st d a b imm => some (st, wordOf 0x22 d a b imm)
  | .vadd st d a b imm => some (st, wordOf 0x30 d a b imm)
  | .vsub st d a b imm => some (st, wordOf 0x31 d a b imm)
  | .vmul st d a b imm => some (st, wordOf 0x32 d a b imm)
  | .vfma st d a b imm => some (st, wordOf 0x33 d a b imm)
  | .vmax st d a b imm => some (st, wordOf 0x34 d a b imm)
  | .vmin st d a b imm => some (st, wordOf 0x35 d a b imm)
  | .vdiv st d a b imm => some (st, wordOf 0x36 d a b imm)
  | .vsqrt st d a b imm => some (st, wordOf 0x37 d a b imm)
  | .vexp2 st d a b imm => some (st, wordOf 0x38 d a b imm)
  | .vcvt st d a b imm => some (st, wordOf 0x39 d a b imm)
  | .vsum st d a b imm => some (st, wordOf 0x3A d a b imm)
  | .vamax st d a b imm => some (st, wordOf 0x3B d a b imm)
  | .vbcast st d a b imm => some (st, wordOf 0x3C d a b imm)
  | .vld st d a b imm => some (st, wordOf 0x3D d a b imm)
  | .vst st d a b imm => some (st, wordOf 0x3E d a b imm)
  | .put st d a b imm => some (st, wordOf 0x50 d a b imm)
  | .get st d a b imm => some (st, wordOf 0x51 d a b imm)
  | .atom st d a b imm => some (st, wordOf 0x52 d a b imm)
  | .flag st d a b imm => some (st, wordOf 0x53 d a b imm)
  | .mcast st d a b imm => some (st, wordOf 0x54 d a b imm)
  | .fence st d a b imm => some (st, wordOf 0x55 d a b imm)
  | .wait st d a b imm => some (st, wordOf 0x60 d a b imm)
  | .waitf st d a b imm => some (st, wordOf 0x61 d a b imm)
  | .waitt st d a b imm => some (st, wordOf 0x62 d a b imm)
  | .waitall st d a b imm => some (st, wordOf 0x63 d a b imm)
  | .hoist st d a b imm => some (st, wordOf 0x70 d a b imm)
  | .reservedOpcode st w => some (st, w)
  | _ => none

/-- The instruction of a legal word by its opcode. -/
def stopeInstr (op : Nat) (st : Fin 512) (d a b : Byte) (imm : W32) : Option Instr := match op with
  | 0x00 => some (.nop st d a b imm)
  | 0x01 => some (.add st d a b imm)
  | 0x02 => some (.sub st d a b imm)
  | 0x03 => some (.and st d a b imm)
  | 0x04 => some (.or st d a b imm)
  | 0x05 => some (.xor st d a b imm)
  | 0x06 => some (.shl st d a b imm)
  | 0x07 => some (.shr st d a b imm)
  | 0x08 => some (.mul st d a b imm)
  | 0x09 => some (.min st d a b imm)
  | 0x0A => some (.max st d a b imm)
  | 0x0B => some (.addi st d a b imm)
  | 0x0C => some (.andi st d a b imm)
  | 0x0D => some (.xori st d a b imm)
  | 0x0E => some (.shli st d a b imm)
  | 0x0F => some (.shri st d a b imm)
  | 0x10 => some (.movhi st d a b imm)
  | 0x11 => some (.lds st d a b imm)
  | 0x12 => some (.sts st d a b imm)
  | 0x13 => some (.time st d a b imm)
  | 0x14 => some (.amov st d a b imm)
  | 0x15 => some (.smov st d a b imm)
  | 0x16 => some (.aadd st d a b imm)
  | 0x18 => some (.loop st d a b imm)
  | 0x19 => some (.beq st d a b imm)
  | 0x1A => some (.bne st d a b imm)
  | 0x1B => some (.blt st d a b imm)
  | 0x1C => some (.bge st d a b imm)
  | 0x1D => some (.bltu st d a b imm)
  | 0x1E => some (.jmp st d a b imm)
  | 0x1F => some (.halt st d a b imm)
  | 0x20 => some (.face st d a b imm)
  | 0x21 => some (.upd st d a b imm)
  | 0x22 => some (.quant st d a b imm)
  | 0x30 => some (.vadd st d a b imm)
  | 0x31 => some (.vsub st d a b imm)
  | 0x32 => some (.vmul st d a b imm)
  | 0x33 => some (.vfma st d a b imm)
  | 0x34 => some (.vmax st d a b imm)
  | 0x35 => some (.vmin st d a b imm)
  | 0x36 => some (.vdiv st d a b imm)
  | 0x37 => some (.vsqrt st d a b imm)
  | 0x38 => some (.vexp2 st d a b imm)
  | 0x39 => some (.vcvt st d a b imm)
  | 0x3A => some (.vsum st d a b imm)
  | 0x3B => some (.vamax st d a b imm)
  | 0x3C => some (.vbcast st d a b imm)
  | 0x3D => some (.vld st d a b imm)
  | 0x3E => some (.vst st d a b imm)
  | 0x50 => some (.put st d a b imm)
  | 0x51 => some (.get st d a b imm)
  | 0x52 => some (.atom st d a b imm)
  | 0x53 => some (.flag st d a b imm)
  | 0x54 => some (.mcast st d a b imm)
  | 0x55 => some (.fence st d a b imm)
  | 0x60 => some (.wait st d a b imm)
  | 0x61 => some (.waitf st d a b imm)
  | 0x62 => some (.waitt st d a b imm)
  | 0x63 => some (.waitall st d a b imm)
  | 0x70 => some (.hoist st d a b imm)
  | _ => none

/-- The command that word `w` at stope `st` is: a word that R115 makes illegal is RESERVED_OPCODE. -/
def decodeStope (st : Fin 512) (w : W64) : Instr :=
  if wordIllegal w then .reservedOpcode st w
  else
    (stopeInstr (fld w 63 56) st (BitVec.ofNat 8 (fld w 55 48)) (BitVec.ofNat 8 (fld w 47 40)) (BitVec.ofNat 8 (fld w 39 32))
      (BitVec.ofNat 32 (fld w 31 0))).getD (.reservedOpcode st w)

end Sys2Proof.Machine
end

