-- ==== Sys2Proof/Safety.lean ====
section
/-!
DEFINITION. What counts as a safe run, and the terms in which the statements speak of states.
-/

namespace Sys2Proof.Machine

/-- Memory is in canonical form, so that equal contents are equal data. -/
def State.canonical (s : State) : Prop := Memory.wf s.mem = true

/-- A command answers a next state: it neither faults nor is refused. -/
def Completes (c : Instr) (s : State) : Prop := ∃ t, exec c s = .next t

/-- Stope `st` runs, waits for nothing, and the word at its pc is this instruction (R114). -/
abbrev AtWord (s : State) (st : Fin 512) (op : Nat) (d a b : Byte) (imm : W32) : Prop :=
  issueWord (stope s st) = some (wordOf op d a b imm)

/-- Every byte of spaces 0 and 1 reads as before. -/
def SameMemory (s t : State) : Prop := ∀ a, readByte t a = readByte s a

/-- Every byte outside [a, a + n) of the low 50 address bits reads as before. -/
def SameMemoryOutside (a n : Nat) (s t : State) : Prop := ∀ x, (∀ i, i < n → low50 x ≠ low50 (a + i)) → readByte t x = readByte s x

/-- Only stopes, register pages and the interrupts raised to control parents may differ. -/
def OnlyStopesAndRegs (s t : State) : Prop := t = { s with stopes := t.stopes, regs := t.regs, irqs := t.irqs }

/-- Only register pages and the interrupts raised to control parents may differ. -/
def OnlyRegs (s t : State) : Prop := t = { s with regs := t.regs, irqs := t.irqs }

/-- Every stope but `n` is as before. -/
def SameOtherStopes (n : Nat) (s t : State) : Prop := ∀ m, m ≠ n → stope t m = stope s m

/-- The scalar registers of a stope are as before but for those in `ds`; s0 reads 0. -/
def SameScalars (n : Nat) (ds : List Byte) (s t : State) : Prop :=
  ∀ r : Byte, ¬ r ∈ ds → (stope t n).sreg r.toNat = (stope s n).sreg r.toNat

/-- The address registers of a stope are as before but for those in `ds`. -/
def SameAddresses (n : Nat) (ds : List Byte) (s t : State) : Prop := ∀ r : Byte, ¬ r ∈ ds → areg t n r.toNat = areg s n r.toNat

/-- The vector registers of a stope are as before but for those in `ds`. -/
def SameVectors (n : Nat) (ds : List Byte) (s t : State) : Prop :=
  ∀ r : Byte, ¬ r ∈ ds → (stope t n).vreg r.toNat = (stope s n).vreg r.toNat

/-- What a stope's program has outstanding is as before: its operations, its tickets and its queue of long operations. -/
def SameOutstanding (n : Nat) (s t : State) : Prop :=
  (stope t n).out = (stope s n).out ∧ (stope t n).tickets = (stope s n).tickets ∧ (stope t n).queue = (stope s n).queue

/-- No other agent has written this field in the present SCLK cycle, so that a write of `w` has no rival (R17). -/
def Unrivalled (s : State) (w : Agent) (pg off : Nat) : Prop := ∀ e ∈ s.ranked, e.page = pg → e.off = off → e.by_ = w

/-- A command that may reset the device: a low pulse that the filter may take, a loss of PWR_GOOD, a thermal trip, or an input out of its limits
(R367 to R369, R372). -/
def MayReset : Instr → Prop
  | .reset (.lowPulse ns) => 1000 ≤ ns
  | .reset .powerLoss => True
  | .thermtrip => True
  | .inputSample mv => mv < 36000 ∨ 63000 < mv
  | _ => False

/-- The command at the front of the queue, if one waits, resets nothing. -/
def NoReset (s : State) : Prop := ∀ c, s.pending.head? = some c → ¬ MayReset c

/-- The dies enter the safe state together, but in split mode, where each drains or is safe (R350, R352). -/
def SafeTogether (s : State) : Prop :=
  (s.split = false → isSafe s 0 = isSafe s 1) ∧ (s.split = true → ∀ d : Die, (service s d).state = 4 ∨ (service s d).state = 5)

/-- A ticket for a new operation: none for s0, otherwise the lowest that is free (R120). -/
def TakesTicket (x : Stope) (d : Byte) (k : Nat) : Prop := (d = 0 ∧ k = 0) ∨ (d ≠ 0 ∧ freeTicket x = some k)

end Sys2Proof.Machine
end

