-- ==== Sys2Proof/WellFormed.lean ====
section
/-!
DEFINITION. Well-formed commands: operands that the spec's formats allow. What comes from outside the device is well formed where its bus
can carry it; a command that is not changes nothing or is turned away as the spec says of it.
-/

namespace Sys2Proof

/-- A message carries data exactly where its opcode does, of the length that `LEN_M1` gives (Table 11-1). -/
def Msg.dataFits (m : Msg) : Bool := decide (m.data.length = 0) || decide (m.data.length = m.lenM1.toNat + 1)

/-- A frame is whole 16-byte units, 32 to 4,192 bytes (R238, R361). -/
def frameFits (bytes : List Byte) : Bool := decide (bytes.length % 16 = 0) && decide (32 ≤ bytes.length) && decide (bytes.length ≤ 4192)

/-- A port-A access reaches inside a bank (Table 07-1): of 2 MiB for face weights and sweeps, else of up to 4 MiB. -/
def PortA.inBank : PortA → Bool
  | .access _ _ => true
  | .faceRead _ o => decide (o < 2 ^ 21)
  | .sweepRead _ o => decide (o < 2 ^ 21)
  | .operandRead _ o => decide (o < 2 ^ 22)
  | .quantRead _ o => decide (o < 2 ^ 22)
  | .outWrite _ o => decide (o < 2 ^ 22)
  | .poll _ => true

def BankCycle.wf (c : BankCycle) : Bool := c.portA.all PortA.inBank

/-- The operands of a stack's errors are sectors of 32 bytes (R165). -/
def SectorErr.wf (e : SectorErr) : Bool := decide (e.offset % 32 = 0)

/-- Data read for a request is at most what `LEN_M1` can say (Table 11-1). -/
def HostRead.wf : HostRead → Bool
  | .ok b => decide (b.length ≤ 8192)
  | .unsupported => true
  | .aborted => true
  | .poisoned => true

/-- A command's operands are ones that its rule allows. -/
def Instr.wf : Instr → Bool
  | .bankPortBAccess _ c => c.wf
  | .iadd32 _ c => c.wf
  | .iadd64 _ c => c.wf
  | .fadd32 _ c => c.wf
  | .fadd16 _ c => c.wf
  | .swap _ c => c.wf
  | .cas _ c => c.wf
  | .flagSet _ c => c.wf
  | .flagAdd _ c => c.wf
  | .stackAccess _ errs => errs.all SectorErr.wf
  | .putMessage _ m => m.dataFits
  | .heldPutRelease _ m => m.dataFits
  | .heldPutDeadline _ m => m.dataFits
  | .getMessage _ m => m.dataFits
  | .mcput _ m => m.dataFits
  | .comp _ m => m.dataFits
  | .ack _ m => decide (m.data = [])
  | .gets _ m => decide (m.data = [])
  | .fill _ m => m.dataFits
  | .inv _ m => decide (m.data = [])
  | .iack _ m => decide (m.data = [])
  | .absent _ m => decide (m.data = [])
  | .evict _ m => decide (m.data = [])
  | .operationFrame _ b => frameFits b
  | .idleFrame _ b => frameFits b
  | .routeNotice _ b => frameFits b
  | .agreeFrame _ b => frameFits b
  | .safeIdleFrame _ b => frameFits b
  | .timeFrame _ b => frameFits b
  | .attestationFrame _ b => frameFits b
  | .requestFetch b => decide (b.length = 64)
  | .hostDataReadDone _ r => r.wf
  | .apertureRead _ n => decide (1 ≤ n)
  | .apertureWrite _ b => decide (b ≠ [])
  | .mailboxPost _ b => decide (b.length ≤ 64)
  | .registerWrite _ _ _ _ o b => decide (b.length = 4 ∧ o.toNat % 4 = 0) || decide (b.length = 8 ∧ o.toNat % 8 = 0)
  | .readAndClear _ _ _ o n => decide (n = 4 ∧ o.toNat % 4 = 0) || decide (n = 8 ∧ o.toNat % 8 = 0)
  | .musterFrame b => decide (b.length = 64)
  | .i3cPrivateWrite _ b => decide (b.length = 4) || decide (b.length = 8)
  | .domainOn _ _ i => decide (i < 12)
  | .domainOff _ _ i => decide (i < 12)
  | _ => true

end Sys2Proof
end

