-- ==== Sys2Proof/Certificates/Slice0/Obligations.lean ====
section
/-!
DEFINITION. The statements about the model, in the terms of Safety.lean. Each says of named commands that they answer a next state, which
one, and under what conditions on the state and the operands.
-/

open Sys2Proof Sys2Proof.Machine

/-- A step takes the command at the front of the queue and runs it with the queue's rest; on an empty queue a nanosecond passes (log entry 2). -/
def Obligations.StepRunsFront : Prop :=
  ∀ (s : State), (∀ (c : Instr) (rest : List Instr), s.pending = c :: rest → step s = exec c { s with pending := rest }) ∧
    (s.pending = [] → step s = .next (idle s))

/-- No command stops the block: every command answers a next state, from every state. -/
def Obligations.EveryCommandCompletes : Prop := ∀ (c : Instr) (s : State), Completes c s

/-- Scalar arithmetic of two registers, and of a register and IMM (Table 06-3, R115): the result goes to sD, s0 discards it, and the stope moves
on. Nothing else changes. -/
def Obligations.ScalarArithmetic : Prop :=
  (∀ (s : State) (st : Fin 512) (d a b : Byte) (imm : W32), d.toNat < 32 → a.toNat < 32 → b.toNat < 32 →
     let x := (stope s st).sreg a.toNat
     let y := (stope s st).sreg b.toNat
     let done (v : W64) : Host.Outcome State Fault Refusal := .next (setStope s st ((stope s st).setS d.toNat v).advance)
     (AtWord s st 0x01 d a b imm → exec (.add st d a b imm) s = done (x + y)) ∧
     (AtWord s st 0x02 d a b imm → exec (.sub st d a b imm) s = done (x - y)) ∧
     (AtWord s st 0x03 d a b imm → exec (.and st d a b imm) s = done (x &&& y)) ∧
     (AtWord s st 0x04 d a b imm → exec (.or st d a b imm) s = done (x ||| y)) ∧
     (AtWord s st 0x05 d a b imm → exec (.xor st d a b imm) s = done (x ^^^ y)) ∧
     (AtWord s st 0x06 d a b imm → exec (.shl st d a b imm) s = done (x <<< (y.toNat % 64))) ∧
     (AtWord s st 0x07 d a b imm → exec (.shr st d a b imm) s = done (x >>> (y.toNat % 64))) ∧
     (AtWord s st 0x08 d a b imm → exec (.mul st d a b imm) s = done (x * y)) ∧
     (AtWord s st 0x09 d a b imm → exec (.min st d a b imm) s = done (if x.toInt ≤ y.toInt then x else y)) ∧
     (AtWord s st 0x0A d a b imm → exec (.max st d a b imm) s = done (if x.toInt ≤ y.toInt then y else x))) ∧
  (∀ (s : State) (st : Fin 512) (d a b : Byte) (imm : W32), d.toNat < 32 → a.toNat < 32 →
     let x := (stope s st).sreg a.toNat
     let done (v : W64) : Host.Outcome State Fault Refusal := .next (setStope s st ((stope s st).setS d.toNat v).advance)
     (AtWord s st 0x0B d a b imm → exec (.addi st d a b imm) s = done (x + imm.signExtend 64)) ∧
     (AtWord s st 0x0C d a b imm → exec (.andi st d a b imm) s = done (x &&& imm.setWidth 64)) ∧
     (AtWord s st 0x0D d a b imm → exec (.xori st d a b imm) s = done (x ^^^ imm.setWidth 64)) ∧
     (AtWord s st 0x0E d a b imm → exec (.shli st d a b imm) s = done (x <<< (imm.toNat % 64))) ∧
     (AtWord s st 0x0F d a b imm → exec (.shri st d a b imm) s = done (x >>> (imm.toNat % 64))) ∧
     (AtWord s st 0x10 d a b imm → exec (.movhi st d a b imm) s =
       done (BitVec.ofNat 64 (x.toNat % 2 ^ 32 + 2 ^ 32 * imm.toNat))))

/-- NOP, TIME and the moves between scalar and address registers (Table 06-3, R113): a0 and a1 are read-only, and a write to either is a
program fault with cause READONLY. -/
def Obligations.MovesAndTime : Prop :=
  ∀ (s : State) (st : Fin 512) (d a b : Byte) (imm : W32),
    let x := stope s st
    let addr (d : Byte) (v : W64) : Host.Outcome State Fault Refusal :=
      if d.toNat < 2 then .next (progFault s st cREADONLY) else .next (setStope s st (x.setA d.toNat v).advance)
    (AtWord s st 0x00 d a b imm → exec (.nop st d a b imm) s = .next (setStope s st x.advance)) ∧
    (AtWord s st 0x13 d a b imm → d.toNat < 32 → exec (.time st d a b imm) s =
      .next (setStope s st (x.setS d.toNat (BitVec.ofNat 64 (now s (st.val / 256)))).advance)) ∧
    (AtWord s st 0x14 d a b imm → d.toNat < 16 → a.toNat < 32 → exec (.amov st d a b imm) s = addr d (x.sreg a.toNat)) ∧
    (AtWord s st 0x15 d a b imm → d.toNat < 32 → a.toNat < 16 → exec (.smov st d a b imm) s =
      .next (setStope s st (x.setS d.toNat (areg s st a.toNat)).advance)) ∧
    (AtWord s st 0x16 d a b imm → d.toNat < 16 → a.toNat < 16 → b.toNat < 32 → exec (.aadd st d a b imm) s =
      addr d (areg s st a.toNat + x.sreg b.toNat + imm.signExtend 64))

/-- Branches, JMP, LOOP, HALT and reserved words (R115, R117, R133): a branch goes to word IMM, past the code a program fault TARGET, otherwise on; a
counter in use or a body that does not nest faults LOOP, a body that ends past the code TARGET; a count of 0 skips the body; HALT ends issue
with cause HALTED; a reserved word faults ILLEGAL. The model's choices: TARGET comes before a body that breaks its outer loop's (log entry 113);
the count is taken modulo 2^32, and HALT leaves the stope stopping (log entry 19). -/
def Obligations.ControlFlow : Prop :=
  (∀ (s : State) (st : Fin 512) (d a b : Byte) (imm : W32),
     let x := stope s st
     let p := x.sreg a.toNat
     let q := x.sreg b.toNat
     let jump : Host.Outcome State Fault Refusal :=
       if imm.toNat < x.codeLen then .next (setStope s st (x.goto imm.toNat)) else .next (progFault s st cTARGET)
     let on : Host.Outcome State Fault Refusal := .next (setStope s st x.advance)
     (a.toNat < 32 → b.toNat < 32 →
       (AtWord s st 0x19 d a b imm → exec (.beq st d a b imm) s = if p = q then jump else on) ∧
       (AtWord s st 0x1A d a b imm → exec (.bne st d a b imm) s = if p = q then on else jump) ∧
       (AtWord s st 0x1B d a b imm → exec (.blt st d a b imm) s = if p.toInt < q.toInt then jump else on) ∧
       (AtWord s st 0x1C d a b imm → exec (.bge st d a b imm) s = if p.toInt < q.toInt then on else jump) ∧
       (AtWord s st 0x1D d a b imm → exec (.bltu st d a b imm) s = if p.toNat < q.toNat then jump else on)) ∧
     (AtWord s st 0x1E d a b imm → exec (.jmp st d a b imm) s = jump)) ∧
  (∀ (s : State) (st : Fin 512),
     (∀ (d a b : Byte) (imm : W32), AtWord s st 0x18 d a b imm → d.toNat < 4 → a.toNat < 32 →
       let x := stope s st
       let count := (x.sreg a.toNat).toNat % 2 ^ 32
       exec (.loop st d a b imm) s =
         if x.loops.any (fun r => r.ctr == d.toNat) then .next (progFault s st cLOOP)
         else if imm.toNat ≤ x.pc then .next (progFault s st cLOOP)
         else if x.codeLen ≤ imm.toNat then .next (progFault s st cTARGET)
         else if x.loops.any (fun r => decide (r.last < imm.toNat)) then .next (progFault s st cLOOP)
         else if count = 0 then .next (setStope s st (x.pass imm.toNat))
         else .next (setStope s st { x with
           loops := ⟨d.toNat, x.pc + 1, imm.toNat⟩ :: x.loops, l := Sparse.set 0 x.l d.toNat (BitVec.ofNat 32 count), pc := x.pc + 1 })) ∧
     (∀ (d a b : Byte) (imm : W32), AtWord s st 0x1F d a b imm → exec (.halt st d a b imm) s =
       .next (setStope s st { stope s st with prog := .stopping, cause := 1, wait := none, part := none, loops := [], fence := [] })) ∧
     (∀ (w : W64), issueWord (stope s st) = some w → wordIllegal w = true →
       exec (.reservedOpcode st w) s = .next (progFault s st cILLEGAL)))

/-- Vector instructions (Table 06-3, R121, R127): lane by lane, in BF16 or FP32 by IMM[8], into vD; while UPD or QUANT occupies the vector
unit they wait. -/
def Obligations.VectorUnit : Prop :=
  ∀ (s : State) (st : Fin 512) (d a b : Byte) (imm : W32), d.toNat < 32 → a.toNat < 32 → b.toNat < 32 →
    let x := stope s st
    let t := laneType imm
    let xs := lanes t.width (x.vreg a.toNat)
    let ys := lanes t.width (x.vreg b.toNat)
    let done (v : BitVec 4096) : Host.Outcome State Fault Refusal :=
      if vectorBusy x then .next s else .next (setStope s st (x.setV d.toNat v).advance)
    let each (f : FpType → Nat → Nat → Nat) : Host.Outcome State Fault Refusal := done (ofLanes t.width (xs.zipWith (f t) ys))
    let one (f : FpType → Nat → Nat) : Host.Outcome State Fault Refusal := done (ofLanes t.width (xs.map (f t)))
    (AtWord s st 0x30 d a b imm → exec (.vadd st d a b imm) s = each fpAdd) ∧
    (AtWord s st 0x31 d a b imm → exec (.vsub st d a b imm) s = each fpSub) ∧
    (AtWord s st 0x32 d a b imm → exec (.vmul st d a b imm) s = each fpMul) ∧
    (AtWord s st 0x33 d a b imm → imm.toNat % 256 < 32 → exec (.vfma st d a b imm) s =
      done (ofLanes t.width ((xs.zip ys).zipWith (fun p z => fpFma t p.1 p.2 z) (lanes t.width (x.vreg (imm.toNat % 256)))))) ∧
    (AtWord s st 0x34 d a b imm → exec (.vmax st d a b imm) s = each fpMax) ∧
    (AtWord s st 0x35 d a b imm → exec (.vmin st d a b imm) s = each fpMin) ∧
    (AtWord s st 0x36 d a b imm → exec (.vdiv st d a b imm) s = each fpDiv) ∧
    (AtWord s st 0x37 d a b imm → exec (.vsqrt st d a b imm) s = one fpSqrt) ∧
    (AtWord s st 0x38 d a b imm → exec (.vexp2 st d a b imm) s = one fpExp2) ∧
    (AtWord s st 0x39 d a b imm → imm.toNat % 4 ≠ 3 → exec (.vcvt st d a b imm) s =
      done (convertLanes (imm.toNat % 4) (x.vreg a.toNat) (x.vreg b.toNat))) ∧
    (AtWord s st 0x3A d a b imm → exec (.vsum st d a b imm) s = done (ofLanes t.width [treeSum t xs])) ∧
    (AtWord s st 0x3B d a b imm → exec (.vamax st d a b imm) s = done (ofLanes t.width [lanesAmax t xs])) ∧
    (AtWord s st 0x3C d a b imm → exec (.vbcast st d a b imm) s =
      done (ofLanes 32 (List.replicate 128 ((x.sreg a.toNat).toNat % 2 ^ 32))))

/-- LDS, STS, VLD and VST (R116, R137, R139, R143): at an aligned address that port A serves, with no uncorrectable error in its words, a load
takes the bytes and a store writes them, and sB takes OK; a load that meets an error writes 0 and sB takes POISONED, and a store into a word that
holds one leaves it and sB takes POISONED, and the error is recorded; a load beside a port-B write in normal mode (its word performed in a bank's
cycle) writes 0 and sB takes COLLIDED, and a store beside a port-B read has taken effect and sB takes COLLIDED; a vector access of which a gallery
bank has performed words goes on with those that are left; where port A denies the access sB takes DENIED, and, as the model reads it, a load's
destination keeps its value (log entry 20); a misaligned address is a program fault MISALIGN. -/
def Obligations.LocalAccesses : Prop :=
  ∀ (s : State) (st : Fin 512) (d a b : Byte) (imm : W32), d.toNat < 32 → a.toNat < 16 → b.toNat < 32 →
    let n := st.val
    let ad := (areg s n a.toNat + imm.signExtend 64).toNat
    let loaded (vec : Bool) (bk : Nat) : Host.Outcome State Fault Refusal :=
      let s1 := served s n bk
      .next (statusTo (setStope s1 n (loadTo vec (stope s1 n) d (readMem s ad (accLen vec)))) n b sOK)
    let cleared (vec : Bool) (bk status : Nat) : State :=
      let s1 := served s n bk
      statusTo (setStope s1 n (loadTo vec (stope s1 n) d [])) n b status
    let written (vec : Bool) (bk : Nat) : State × Bool := store (served s n bk) ad (storeBytes vec (stope s n) d)
    let stored (vec : Bool) (bk : Nat) : Host.Outcome State Fault Refusal := .next (statusTo (written vec bk).1 n b sOK)
    let judged (i : Instr) (vec write : Bool) (done : Nat → Host.Outcome State Fault Refusal) : Prop :=
      (ad % accAlign vec ≠ 0 → exec i s = .next (progFault s n cMISALIGN)) ∧
      (ad % accAlign vec = 0 → ∀ bk, portAGate s n ad (accLen vec) write = .pass bk →
        ((vec = true → (stope s n).part = none) →
          (anyBad s ad (accLen vec) = false → exec i s = done bk) ∧
          (write = false → anyBad s ad (accLen vec) = true → exec i s = .next (metIn (cleared vec bk sPOISONED) ad (accLen vec))) ∧
          (write = true → (written vec bk).2 = true →
            exec i s = .next (metIn (statusTo (written vec bk).1 n b sPOISONED) ad (accLen vec))) ∧
          (∀ bb : Nat, bb < 512 ∨ vec = false → localAtPc s bb st (wordOf (if vec then (if write then 0x3E else 0x3D) else if write then 0x12 else 0x11) d a b imm) true =
            if write = false then cleared vec bk sCOLLIDED
            else if (written vec bk).2 = true then metIn (statusTo (written vec bk).1 n b sPOISONED) ad (accLen vec)
            else statusTo (written vec bk).1 n b sCOLLIDED)) ∧
        (vec = true → (stope s n).part ≠ none → exec i s = .next (vecRest metIn write n d b ad 8 (served s n bk)))) ∧
      (ad % accAlign vec = 0 → ∀ c, portAGate s n ad (accLen vec) write = .denied c →
        let t := countDenied s c
        exec i s = .next (statusTo (setStope t n { stope t n with part := none }) n b sDENIED))
    (AtWord s st 0x11 d a b imm → judged (.lds st d a b imm) false false (loaded false)) ∧
    (AtWord s st 0x12 d a b imm → judged (.sts st d a b imm) false true (stored false)) ∧
    (AtWord s st 0x3D d a b imm → judged (.vld st d a b imm) true false (loaded true)) ∧
    (AtWord s st 0x3E d a b imm → judged (.vst st d a b imm) true true (stored true))

/-- What loads and stores leave unchanged: a load changes no byte of memory, its destination and sB aside no register; a store changes no
byte outside the bytes it stores, and no register but sB. -/
def Obligations.LocalAccessFrame : Prop :=
  ∀ (s t : State) (st : Fin 512) (d a b : Byte) (imm : W32),
    let n := st.val
    let ad := (areg s n a.toNat + imm.signExtend 64).toNat
    let kept (ds vs : List Byte) : Prop :=
      SameOtherStopes n s t ∧ SameScalars n ds s t ∧ SameAddresses n [] s t ∧ SameVectors n vs s t ∧ SameOutstanding n s t
    (anyBad s ad 8 = false → exec (.lds st d a b imm) s = .next t → SameMemory s t ∧ kept [d, b] []) ∧
    (anyBad s ad 8 = false → exec (.sts st d a b imm) s = .next t → SameMemoryOutside ad 8 s t ∧ kept [b] []) ∧
    (anyBad s ad 512 = false → exec (.vld st d a b imm) s = .next t → SameMemory s t ∧ kept [b] [d]) ∧
    (anyBad s ad 512 = false → exec (.vst st d a b imm) s = .next t → SameMemoryOutside ad 512 s t ∧ kept [b] [])

/-- What scalar, address, vector and control instructions leave unchanged: everything but the stope, the register pages and the interrupts
raised (a program fault sets an event bit); every other stope; every register but the destination; what the program has outstanding. -/
def Obligations.RegisterFrame : Prop :=
  ∀ (s t : State) (st : Fin 512) (d a b : Byte) (imm : W32),
    let n := st.val
    let kept (ss as vs : List Byte) : Prop :=
      OnlyStopesAndRegs s t ∧ SameOtherStopes n s t ∧ SameScalars n ss s t ∧ SameAddresses n as s t ∧ SameVectors n vs s t ∧
      SameOutstanding n s t
    (∀ i ∈ [Instr.add st d a b imm, .sub st d a b imm, .and st d a b imm, .or st d a b imm, .xor st d a b imm, .shl st d a b imm,
        .shr st d a b imm, .mul st d a b imm, .min st d a b imm, .max st d a b imm, .addi st d a b imm, .andi st d a b imm,
        .xori st d a b imm, .shli st d a b imm, .shri st d a b imm, .movhi st d a b imm, .time st d a b imm, .smov st d a b imm],
      exec i s = .next t → kept [d] [] []) ∧
    (∀ i ∈ [Instr.amov st d a b imm, .aadd st d a b imm], exec i s = .next t → kept [] [d] []) ∧
    (∀ i ∈ [Instr.vadd st d a b imm, .vsub st d a b imm, .vmul st d a b imm, .vfma st d a b imm, .vmax st d a b imm, .vmin st d a b imm,
        .vdiv st d a b imm, .vsqrt st d a b imm, .vexp2 st d a b imm, .vcvt st d a b imm, .vsum st d a b imm, .vamax st d a b imm,
        .vbcast st d a b imm], exec i s = .next t → kept [] [] [d]) ∧
    (∀ i ∈ [Instr.nop st d a b imm, .loop st d a b imm, .beq st d a b imm, .bne st d a b imm, .blt st d a b imm, .bge st d a b imm,
        .bltu st d a b imm, .jmp st d a b imm, .halt st d a b imm, .fence st d a b imm, .waitt st d a b imm],
      exec i s = .next t → kept [] [] [])

/-- A stope instruction acts only where its word stands at the pc of a running stope that waits for nothing (R114): that a command finding another
word there, or none, changes nothing is the model's choice (log entry 1), and past the code no word stands (log entry 11). -/
def Obligations.OnlyTheWordAtPc : Prop :=
  ∀ (i : Instr) (st : Fin 512) (w : W64) (s : State), encodeStope i = some (st, w) → issueWord (stope s st) ≠ some w → exec i s = .next s

/-- A program fault (R134) ends issue like a stop, records its cause in CAUSE and the word's index in FAULT_PC, and sets bit 0 of the stope's
`BLK_IRQ_STATUS`; nothing but the stope, its status and the interrupt it may raise changes, so no history record is made and no device fault
reported. The word at the pc with a register field outside its file, a reserved opcode or a reserved bit set is one with cause ILLEGAL. -/
def Obligations.IllegalWordFaults : Prop :=
  ∀ (s : State) (st : Fin 512),
    let ended (cause : Nat) : State := setIrq (setStope s st { stope s st with
      prog := .stopping, cause := cause, faultPc := (stope s st).pc, wait := none, part := none, loops := [], fence := [] }) (pgStope st) 1
    (∀ cause, progFault s st cause = ended cause ∧ OnlyStopesAndRegs s (progFault s st cause) ∧ SameOtherStopes st s (progFault s st cause) ∧
      rd (progFault s st cause) (pgStope st) BLK_IRQ_STATUS = BitVec.ofNat 32 ((rd s (pgStope st) BLK_IRQ_STATUS).toNat ||| 1)) ∧
    (∀ (i : Instr) (w : W64), encodeStope i = some (st, w) → issueWord (stope s st) = some w → wordIllegal w = true →
      exec i s = .next (ended 3))

/-- Waits and the fence (R128, R129): WAIT, WAITT and WAITALL set what the stope waits for; WAITF reads its flag word through port A: OK where the
test holds, FAILED deadline at once where it does not and sC is 0, otherwise the stope waits until sC ns have passed. -/
def Obligations.Waits : Prop :=
  (∀ (s : State) (st : Fin 512) (d a b : Byte) (imm : W32),
     let n := st.val
     let x := stope s n
     let t := now s (n / 256)
     (AtWord s st 0x55 d a b imm → exec (.fence st d a b imm) s =
       .next (setStope s n { x.advance with fence := (x.out.filter (fun o => o.remote)).map (fun o => o.op) })) ∧
     (AtWord s st 0x60 d a b imm → d.toNat < 32 → a.toNat < 32 → immOk imm = true →
       let k := (x.sreg a.toNat).toNat
       exec (.wait st d a b imm) s = if x.tickets.any (fun z => z.num == k)
         then .next (setStope s n ({ x.advance with wait := some (.ticket d.toNat k) }).wake) else .next (progFault s n cTICKET)) ∧
     (AtWord s st 0x62 d a b imm → a.toNat < 32 → immOk imm = true →
       let k := (x.sreg a.toNat).toNat
       exec (.waitt st d a b imm) s =
         if k ≤ t then .next (setStope s n x.advance) else .next (setStope s n { x.advance with wait := some (.until k) })) ∧
     (AtWord s st 0x63 d a b imm → immOk imm = true → exec (.waitall st d a b imm) s =
       .next (setStope s n ({ x.advance with wait := some .all }).wake)) ∧
     (∀ k, x.wait = some (.until k) → k ≤ t → exec (.waittExpiry st) s = .next (setStope s n { x with wait := none })) ∧
     (∀ r f v m due, x.wait = some (.flag r f v m due) → due ≤ t → exec (.waitfTimeout st) s =
       .next (setStope s n { x.setS r (compWord (statusWord sFAILED rDeadline) 0) with wait := none }))) ∧
  (∀ (s : State) (st : Fin 512),
     let n := st.val
     let x := stope s n
     (∀ (d a b : Byte) (imm : W32) (bk : Nat), AtWord s st 0x61 d a b imm → d.toNat < 32 → a.toNat < 16 → b.toNat < 32 →
       immOk imm = true → immC imm < 32 → immSub imm < 3 →
       let ad := (areg s n a.toNat).toNat
       let v := x.sreg b.toNat
       let c := (x.sreg (immC imm)).toNat
       let s1 := setStope s n x.advance
       ad % 8 = 0 → pollGate s1 n ad 8 = .pass bk → anyBad s ad 8 = false →
       exec (.waitf st d a b imm) s =
         if flagTest (immSub imm) (leNat (readMem s ad 8)) v.toNat then .next (endWaitf (served s1 n bk) n d.toNat sOK 0)
         else if c = 0 then .next (endWaitf s1 n d.toNat sFAILED rDeadline)
         else .next (setStope s1 n { stope s1 n with wait := some (.flag d.toNat ad v (immSub imm) (now s (n / 256) + c)) })) ∧
     (∀ r ad v m due bk, x.wait = some (.flag r ad v m due) → pollGate s n ad 8 = .pass bk → anyBad s ad 8 = false →
       exec (.waitfPoll st) s = if flagTest m (leNat (readMem s ad 8)) v.toNat then .next (endWaitf (served s n bk) n r sOK 0) else .next s))

/-- PUT, GET, ATOM, FLAG and MCAST accepted (R119, R130, R214, R252, R257, R260): the operation takes a ticket and one deadline, is
outstanding, and starts at the remote-op layer of the stope's die. -/
def Obligations.RemoteIssue : Prop :=
  ∀ (s s1 : State) (st : Fin 512) (d a b : Byte) (imm : W32) (k : Nat),
    let n := st.val
    let x := stope s n
    let e := n / 256
    let c := (x.sreg (immC imm)).toNat
    let accept (w : Nat) (i : Instr) (opc sub bell len : Nat) (data : List Byte) : Prop :=
      let r : Remote := ⟨opc, sub, immClass imm, bell, (areg s n a.toNat).toNat, (areg s n b.toNat).toNat, len, data⟩
      let budget := budgetOf s n imm
      let m := newMsg s e 0 n opc sub r.cls r.addr len (now s e + budget) bell data
      let reads := if opc = 1 ∨ opc = 3 ∨ opc = 5 then len else 0
      let o := newOp s e s.nextOp (.stope st) m r.buf reads
      AtWord s st w d a b imm → legalFields w d a b imm = true → asyncStalls x true = false → TakesTicket x d k →
      remoteOk opc sub r.addr len = true → stopeRights s n r = true → (opc = 5 → isRoot s e (groupOf r.addr) = true) →
      stopeOpen s n = true → windowOpen s e o = true →
      admitOp { s with nextOp := s.nextOp + 1 } e (.stope n) opc r.cls r.addr len budget (budgetCap s n r.cls) false = some s1 →
      exec i s = .next (startOp (acceptAsync s1 n d k
        ⟨s.nextOp, k, now s e + budget, true, (remoteSpans s n r).1, (remoteSpans s n r).2⟩) e o reads)
    accept 0x50 (.put st d a b imm) 1 0 0 c [] ∧ accept 0x51 (.get st d a b imm) 2 0 0 c [] ∧
    accept 0x52 (.atom st d a b imm) 3 (immSub imm) 0 c [] ∧
    accept 0x53 (.flag st d a b imm) 4 (immSub imm) (immBell imm) 8 (toLE 8 c) ∧
    accept 0x54 (.mcast st d a b imm) 5 0 0 c []

/-- FACE, UPD, QUANT and HOIST accepted (R119, R121, R124, R126, R196, R338): the operation takes a ticket and one deadline, by which it can end after
those ahead of it. The first three enter the stope's queue of four, and a tile chosen for a canary begins its copy; HOIST starts its script on the
channel that sB selects. -/
def Obligations.LongIssue : Prop :=
  ∀ (s : State) (st : Fin 512) (d a b : Byte) (imm : W32) (k : Nat),
    let n := st.val
    let x := stope s n
    let e := n / 256
    let addr := (areg s n a.toNat).toNat
    let budget := budgetOf s n imm
    let legal (w : Nat) : Prop :=
      AtWord s st w d a b imm ∧ legalFields w d a b imm = true ∧ asyncStalls x false = false ∧ TakesTicket x d k ∧ 0 < budget ∧ budget < 2 ^ 32
    let fits (j : Job) : Prop := x.queue.length < 4 ∧ longGate s n (immClass imm) = true ∧
      runNs (x.queue.map (fun o => (o.cycles, o.mhz)) ++ [(j.cycles, cclk s e)]) ≤ budget
    (∀ j, legal 0x20 → fits j → judgeFace s n addr = (s, .inr j) →
      let c := selectCanary s n j (now s e + budget)
      let t := queueLong c.1 n d k (now s e + budget) .face addr c.2 j
      exec (.face st d a b imm) s = .next (if c.2 then copyTile t st c.1.nextOp j.desc j.area (now s e + budget) else t)) ∧
    (∀ j, legal 0x21 → fits j → judgeUpd s n addr = (s, .inr j) →
      exec (.upd st d a b imm) s = .next (queueLong s n d k (now s e + budget) .upd addr false j)) ∧
    (∀ j, legal 0x22 → fits j → judgeQuant s n addr = (s, .inr j) →
      exec (.quant st d a b imm) s = .next (queueLong s n d k (now s e + budget) .quant addr false j)) ∧
    (legal 0x70 →
      let sel := (x.sreg b.toNat).toNat
      let c := 128 * e + 4 * (sel % 32) + sel / 32
      sel < 128 → launchAllowed s c ⟨btStope, n⟩ (stopeWindows s n) addr = true → launchRefused s c (immClass imm) budget false = false →
      stopeOpen s n = true →
      exec (.hoist st d a b imm) s = .next (startScript
        (acceptAsync { s with nextOp := s.nextOp + 1 } n d k ⟨s.nextOp, k, now s e + budget, false, [], []⟩) c
        (newScript ⟨btStope, n⟩ s.nextOp addr (immClass imm) (now s e + budget) (stopeWindows s n))))

/-- Program control (R113, R132, R133, R355): a write of 0 has no effect; load starts reading the image where the stope is powered and not busy and
the device has been ready; while part of the image is still to be read the load goes on; at its end an image that has been read and is accepted has
its code in instruction memory, and one that cannot be read, or is not accepted, leaves the stope empty and rejected and is counted; launch starts a
ready program with its arguments and fresh state; stop ends issue, or a load; the stope is ready again once nothing is outstanding. That the image is
read by 4 KiB at a time is the model's choice (log entry 138). -/
def Obligations.ProgramControl : Prop :=
  ∀ (s : State) (w : Agent) (st : Fin 512),
    let n := st.val
    let x := stope s n
    let may : Prop := isSafe s (n / 256) = false ∧ stopeOn s n = true ∧ beforeReady s = false
    exec (.progCmdNone w st) s = .next s ∧
    (may → x.busy = false → exec (.progLoad w st) s = .next (imageNext (setStope s n { x with
      prog := .loading, loadAt := now s (n / 256), img := [], imgOp := none, imgBad := false }) n)) ∧
    (x.prog = .loading →
      let t := imageNext s n
      let y := stope t n
      let rejects : State := countReject (setStope t n { y with
        imem := [], codeLen := 0, prog := .rejected, img := [], imgOp := none, imgBad := false })
      (y.imgBad = false → y.img.length < y.imageSize → exec (.progLoadDone st) s = .next t) ∧
      (y.imgBad = true → exec (.progLoadDone st) s = .next rejects) ∧
      (y.imgBad = false → y.imageSize ≤ y.img.length → exec (.progLoadDone st) s = .next (if imageAccepted t imSTOPE y.img = true
        then setStope t n { y with imem := codeWords (y.img.drop 512), codeLen := (y.img.length - 512) / 8, prog := .ready, img := [] }
        else rejects))) ∧
    (may → x.prog = .ready → exec (.progLaunch w st) s =
      .next (setStope (wr s (pgOutlier n) FB_LEFT (rd s (pgOutlier n) FB_BUDGET)) n { Stope.reset with
        imem := x.imem, codeLen := x.codeLen, prog := .running, pc := fld (rd s (pgStope n) PROG_ENTRY) 12 0, s := launchRegs s n })) ∧
    (isSafe s (n / 256) = false →
      (x.prog = .running → exec (.progStop w st) s =
        .next (setStope s n { x with prog := .stopping, cause := 2, wait := none, part := none, loops := [], fence := [] })) ∧
      (x.prog = .loading → exec (.progStop w st) s =
        .next (setStope s n { x with prog := .empty, cause := 2, imem := [], codeLen := 0, img := [], imgOp := none, imgBad := false }))) ∧
    (x.prog = .stopping → x.out = [] → exec (.stopeReadyReturn st) s = .next (setStope s n { x with prog := .ready }))

/-- The passes and the end of a face tile (R44, R67, R68, R83 to R88, R335, R336, R339). A tile that has started first takes its scale records and the
operand it accumulates on, and a pass reads its other words as it completes (the model's times, log entry 25). A pass that port A denies a range ends
DENIED, one that meets an uncorrectable error POISONED; one whose checks hold leaves its outcome at the head of the queue and pays for a fall-back from
FB_LEFT. A pass that fails its checks is counted and replayed once by the tile's deadline: a replay that passes gives the tile its result, one that fails
again fails the tile with reason drained, and without time for one the tile fails with reason deadline; each is recorded and judged. A tile whose passes
ended OK or CLIPPED ends by its deadline, once its cycles have passed, with its outputs written, a CLIPPED one counted; a word of them that holds an
error makes it POISONED and the others are written; one DENIED, POISONED or FAILED ends with no output; one past its deadline fails, and what it had
written is taken back. -/
def Obligations.FacePasses : Prop :=
  ∀ (s : State) (st : Fin 512) (o : LongOp) (rest : List LongOp) (errs again : List SumErr),
    let n := st.val
    let d := FaceDesc.parse o.desc
    let y := (d.y, 4 * d.rows * d.tokens)
    let late := decide (o.deadline < now s (n / 256))
    (stope s n).queue = o :: rest → o.kind = .face →
    (o.started.isSome = true → o.fetched = false →
      let first := (if d.sq8 then [(d.wScl, d.sclLen d.geo)] else []) ++ (if d.acc then [y] else [])
      (∀ r ∈ first, rangeDenied s n r.1 r.2 false = false ∧ anyBad s r.1 r.2 = false) →
      let t := putHead s n { o with
        fetched := true, scales := if d.sq8 then readMem s d.wScl (d.sclLen d.geo) else []
        init := if d.acc then some (readWords s d.y (d.rows * d.tokens)) else none }
      exec (.facePassComplete st errs again) s = exec (.facePassComplete st errs again) t ∧
      exec (.faceTileComplete st) s = exec (.faceTileComplete st) t) ∧
    (o.fetched = true →
      (∀ fb, passDue s n = some (o, fb) →
        let rs := d.passReads fb
        let before := (o.run.map (fun r => r.flags.toNat)).getD 0
        let left := (rd s (pgOutlier n) FB_LEFT).toNat
        let p := facePass s n o d fb errs
        let p2 := facePass s n o d fb again
        let o2 := { o with stalls := o.stalls + passTime o fb }
        let counted := countChecks s n p
        let ends (t : State) : Prop := exec (.facePassComplete st errs again) s = .next t
        let settled (t : State) (x : LongOp) (p : PassOut) : State :=
          let r := settlePass d left fb before p
          putHead (wr t (pgOutlier n) FB_LEFT (BitVec.ofNat 32 (left - r.2))) n { x with run := some r.1 }
        let failed (x : LongOp) (reason : Nat) : LongOp := { x with
          run := some (runEnd (before ||| p.flags) (if p.poisoned then sPOISONED else sFAILED) (if p.poisoned then 0 else reason)) }
        let denied := rs.any (fun r => rangeDenied s n r.1 r.2 false) || rangeDenied s n y.1 y.2 true
        let bad := rs.any (fun r => anyBad s r.1 r.2)
        (denied = true → ends (putHead (countDenied s (tallyDenies s n (rs ++ [y]))) n { o with run := some (runEnd before sDENIED 0) })) ∧
        (denied = false → bad = true → ends (reportBad (putHead s n { o with run := some (runEnd before sPOISONED 0) }) rs)) ∧
        (denied = false → bad = false →
          (p.fails = false → ends (settled s o p)) ∧
          (p.fails = true →
            (replayFits s n o fb = false → ends (reportBeside (putHead counted n (failed o rDeadline)) n o.op (checkEvent n p false))) ∧
            (replayFits s n o fb = true →
              (p2.fails = false → ends (reportBeside (settled counted o2 p2) n o.op (checkEvent n p false))) ∧
              (p2.fails = true →
                ends (reportBeside (putHead (countChecks counted n p2) n (failed o2 rDrained)) n o.op (checkEvent n p true))))))) ∧
      (∀ r, o.run = some r → r.fallback = false → canaryOut s o.op = false →
        let bits := r.flags.toNat ||| bitIf o.retried tRETRIED
        let outs := writePieces s (outputPieces o r)
        let ended (t : State) (word : W32) : Prop := exec (.faceTileComplete st) s = .next (endLong (countFallBack t n o) n o word)
        (late = false → r.status = sOK → hasRun s n o (tileCycles o) = true → outs.2 = [] → ended outs.1 (wordBits sOK 0 bits)) ∧
        (late = false → r.status = sCLIPPED → hasRun s n o (tileCycles o) = true → outs.2 = [] →
          ended (bump outs.1 (pgOutlier n) CLIP_TOTAL 1) (wordBits sCLIPPED 0 bits)) ∧
        (late = false → r.status = sOK ∨ r.status = sCLIPPED → hasRun s n o (tileCycles o) = true → outs.2 ≠ [] →
          exec (.faceTileComplete st) s =
            .next (outs.2.foldl metError (endLong (countFallBack outs.1 n o) n o (wordBits sPOISONED 0 bits)))) ∧
        (late = false → r.status ≠ sOK → r.status ≠ sCLIPPED → o.outBuf = none → ended s (wordBits r.status r.reason bits)) ∧
        (late = true → r.status = sOK ∨ r.status = sCLIPPED → ended (undoOuts s o) (wordBits sFAILED rDeadline bits))))

/-- Canaries (R337, R338, Table 18-1): once the last write of the copy has been made in the partner's area the copy runs; the partner's outputs are
counted and returned to the issuer's area through port B. Where they differ from the issuer's the mismatch is counted, the issuer's tile is replayed,
and a replay that gives the partner's outputs replaces the issuer's, one that gives the issuer's own leaves them and the partner is replayed, and one
that gives neither fails the tile with reason drained; each is recorded and judged. The layout of the area and that a replay failing its checks has
reproduced the error are the model's (log entries 27 and 142). -/
def Obligations.Canaries : Prop :=
  ∀ (s : State) (st : Fin 512) (op : Nat) (o : LongOp),
    let n := st.val
    let pg := pgAssay (quadOf n)
    (findCanary s st = some (⟨st, op, .copying, 0⟩, o) → exec (.canaryCopyDone st) s = .next (setCanary s st .running)) ∧
    (∀ k r errs e2 e3, findCanary s st = some (⟨st, op, .running, k⟩, o) → o.run = some r → r.fallback = false →
      (r.status ≠ sOK → r.status ≠ sCLIPPED → exec (.canaryResultReturn st errs e2 e3) s = .next (setCanary s st (.returned []))) ∧
      (r.status = sOK ∨ r.status = sCLIPPED →
        let fb := decide (r.flags.toNat / tFELL_BACK % 2 = 1)
        let there := FaceDesc.parse (readMem s (copyBase s st) 128)
        let copy := { o with scales := if there.sq8 then readMem s there.wScl (there.sclLen there.geo) else [] }
        let theirs := facePass s st copy there fb errs
        let theirAgain := facePass s st copy there fb e3
        let own := facePass s st o (FaceDesc.parse o.desc) fb e2
        let back := bump (setCanary s st (.returning theirs.outs)) pg CANARY_RUNS 1
        let sent := queueCanary { back with canaries := back.canaries.map (fun c => if c.st = st then { c with left := 1 } else c) } st o.op none .write
          (canaryArea s st) (4 * theirs.outs.length) o.deadline (theirs.outs.flatMap (fun w => toLE 4 w.toNat))
        let differs := wr (bump sent pg CANARY_FAILS 1) pg LAST_FAIL (BitVec.ofNat 32 (n + 3 * 2 ^ 9))
        let ev (unit other : Nat) (again : Bool) : Event := ⟨n / 256, ⟨btStope, unit⟩, 3, .replay again, other, none⟩
        let ends (t : State) : Prop := exec (.canaryResultReturn st errs e2 e3) s = .next t
        theirs.fails = false →
        (theirs.outs = r.outs → ends sent) ∧
        (theirs.outs ≠ r.outs → own.fails = false →
          (own.outs = theirs.outs → ends (reportBeside (putHead differs n { o with run := some { r with outs := own.outs } }) n o.op
            (ev n (partner n) false))) ∧
          (own.outs = r.outs → theirAgain.fails = false → ends (report differs (ev (partner n) n (decide (theirAgain.outs ≠ r.outs))))) ∧
          (own.outs ≠ theirs.outs → own.outs ≠ r.outs → ends (reportBeside (putHead differs n { o with
            run := some (runEnd r.flags.toNat sFAILED rDrained) }) n o.op (ev n (partner n) true))))))

/-- UPD and QUANT as their cycles pass, and their ends (R2, R44, R101 to R105, R126): with its ranges theirs to use and its words readable, a sweep
starts each tile with its scale records, settles it, and writes it and its headers' modes; all tiles written, UPD completes OK with their number in
UPD_DONE. QUANT settles its outputs and counters once its cycles have passed, and completes by its deadline with the outputs written. Past its deadline
either fails. The model's choices: scale records are taken at a tile's start (log entry 25), pass 1 spoils the scratch area (log entry 30), the last 64
cycles of a tile are its write-back (log entry 104), and the headers' modes are recorded with every tile (log entry 143). -/
def Obligations.SweepAndQuantiseEnd : Prop :=
  ∀ (s : State) (st : Fin 512) (o : LongOp),
    let n := st.val
    (o.deadline < now s (n / 256) →
      (headOf s n .upd = some o → exec (.updComplete st) s = .next (failLong s n rDeadline o)) ∧
      (headOf s n .quant = some o → exec (.quantComplete st) s = .next (failLong s n rDeadline o))) ∧
    (now s (n / 256) ≤ o.deadline →
    let mine (r : Nat × Nat) (write : Bool) : Prop := rangeDenied s n r.1 r.2 write = false
    (headOf s n .upd = some o →
      let d := SweepDesc.parse o.desc
      let k := o.tiles
      (o.status = sOK → k < d.count →
        (o.outBuf = none → o.fetched = false → hasRun s n o (k * sweepTileCycles d) = true →
          (∀ r ∈ sweepRecords o d k, mine r false ∧ anyBad s r.1 r.2 = false) →
          (if k = 0 then List.range d.count else [k]).any (sweepBadScale s o d) = false →
          sweepOn 1 s n = putHead (spoilScratch s d) n { o with
            fetched := true, scales := (sweepRecords o d k).flatMap (fun r => readMem s r.1 r.2) }) ∧
        (o.outBuf = none → o.fetched = true → hasRun s n o ((k + 1) * sweepTileCycles d - 64) = true →
          (∀ r ∈ sweepReads o d k, mine r false ∧ anyBad s r.1 r.2 = false) →
          (∀ r ∈ sweepWrites o d k ++ d.hdrs.map (fun h => (h, 64)), mine r true) →
          let t := sweepTile s o d k
          sweepOn 1 s n = putHead (bump (bump s (pgOutlier n) F_SAT_TOTAL t.sats) (pgOutlier n) F_NAN_TOTAL t.nans) n { o with
            run := some (runEnd (o.bits ||| t.flags) sOK 0), outBuf := some (toPieces t.runs) }) ∧
        (∀ ps, o.outBuf = some ps → hasRun s n o ((k + 1) * sweepTileCycles d) = true →
          let w := writePieces (spoilScratch s d) (ps ++ d.modes s)
          w.2 = [] → sweepOn 1 s n = putHead w.1 n { o with tiles := k + 1, outBuf := none, fetched := false })) ∧
      (∀ p, headOf (sweepOn (sweepParts d.count) s n) n .upd = some p → p.status = sOK → (SweepDesc.parse p.desc).count ≤ p.tiles →
        now (sweepOn (sweepParts d.count) s n) (n / 256) ≤ p.deadline →
        exec (.updComplete st) s = .next (endLong (wr (sweepOn (sweepParts d.count) s n) (pgStope n) UPD_DONE (BitVec.ofNat 32 p.tiles)) n p
          (wordBits sOK 0 (p.bits ||| bitIf p.retried uRETRIED))))) ∧
    (headOf s n .quant = some o →
      let d := o.quantDesc
      let reads := d.elemRuns ++ d.reads.drop 1
      (o.run = none → hasRun s n o o.cycles = true → (∀ r ∈ reads, mine r false ∧ anyBad s r.1 r.2 = false) → (∀ r ∈ d.writes, mine r true) →
        let q := d.run s (parseHeader o.hdrW) o.seed.toNat o.step.toNat
        let settled := putHead (countQuant s n d q) n { o with
          run := some (runEnd (bitIf (decide (0 < q.nans)) tNAN_IN ||| bitIf (decide (0 < q.sats)) tSAT ||| bitIf q.range tFP_RANGE) sOK 0)
          outBuf := some (toPieces (quantRuns s d q)) }
        quantOn s n = settled ∧ exec (.quantComplete st) s = exec (.quantComplete st) settled) ∧
      (∀ r, o.run = some r → (writePieces s (o.outBuf.getD [])).2 = [] →
        exec (.quantComplete st) s = .next (endLong (writePieces s (o.outBuf.getD [])).1 n o (wordBits r.status 0 r.flags.toNat)))))

/-- Writes to the counters' clear registers (Table 04-7, Table 10-5): each amplitude slot named by a bit, and with TOTALS the six totals, read
0 after; a hoist's three counters read 0 after a write of 1. -/
def Obligations.CounterClears : Prop :=
  ∀ (s : State) (w : Agent) (v : W32),
    (∀ st : Fin 512, isSafe s (st.val / 256) = false → 2 ≤ domain s (domHalf (halfOf st)) → v.toNat < 2 ^ 9 →
      ∀ i ∈ [Instr.amaxSlotClear w st v, .totalsClear w st v], ∃ t, exec i s = .next t ∧
        (∀ k < 8, rd t (pgOutlier st) (AMAX_SLOT0 + 4 * k) = if v.toNat / 2 ^ k % 2 = 1 then 0 else rd s (pgOutlier st) (AMAX_SLOT0 + 4 * k)) ∧
        (∀ k < 6, rd t (pgOutlier st) (F_SAT_TOTAL + 4 * k) = if v.toNat / 2 ^ 8 = 1 then 0 else rd s (pgOutlier st) (F_SAT_TOTAL + 4 * k)) ∧
        t = { s with regs := t.regs }) ∧
    (∀ e : Fin 64, isSafe s (e.val / 32) = false → ∃ t, exec (.hoistCntClear w e 1) s = .next t ∧
      rd t (pgEngine e) AMAX_TOTAL = 0 ∧ rd t (pgEngine e) H_SAT_TOTAL = 0 ∧ rd t (pgEngine e) H_NAN_TOTAL = 0 ∧ t = { s with regs := t.regs })

/-- Port B in a cycle (R139 to R144, R148, R153 to R155). The access at the head of the bank's queue, earliest deadline first, performs its next 64-byte
word: alone, a read takes the bytes, a write puts its own, and an atomic replaces each element by its result and returns the old ones. Beside a port-A
access that uses other bytes of the same sub-array it stalls, counted in CONFLICT, unless it has begun and its deadline has passed, when port A
stalls; on another sub-array both are performed. Where they meet in a byte, port A goes first before a port-B write or atomic, and a port-B read goes
first before port A; in normal mode a read and a write that meet are both told so, and COLL counts both; two writes that meet count one. A read of an operation's source so marked is made again; a write is marked in
normal mode, and beside another write in every mode. Two accesses to disjoint bytes of one word conflict like those to two words (log entry 112). -/
def Obligations.PortB : Prop :=
  ∀ (s : State) (b : Fin 544) (x : Access),
    edfHead (bank s b).queue = some x → (bank s b).toMode = none → now s (aDie x.addr) < x.deadline ∨ hasBegun s x = true →
    (x.done = 0 → x.by_.ty ≠ btAssay → inCanaryArea s b x.addr x.len = false) →
    (x.done = 0 → x.kind ≠ .read → exclDenies s x.by_ x.entered x.addr x.len = false) →
    let w := x.addr + x.done
    let n := wordLen x
    let old := readMem s w n
    let arg := sliceB x.data x.done n
    let after (r : State × Access) : State := afterWordB (if r.2.len ≤ r.2.done then ringFor r.1 r.2 else r.1) b r.2
    (isBad s w = false →
      let on (i : BankCycle → Instr) (t : State) (y : Access) : Prop := exec (i ⟨[], false⟩) s = .next (after (t, y))
      let atom (i : BankCycle → Instr) (k : Nat) (f : Nat → Nat → Nat) : Prop :=
        let new := (List.range (n / k)).flatMap (fun e => toLE k (f (leAt old (k * e) k) (leAt arg (k * e) k)))
        on i (writeMem (markBegun s x) w new) { x with done := x.done + n, got := x.got ++ old }
      (x.kind = .read → on (.bankPortBAccess b) (markBegun s x) { x with done := x.done + n, got := x.got ++ old }) ∧
      (x.kind = .write → on (.bankPortBAccess b) (markBegun (writePiece s w arg).1 x) { x with done := x.done + n }) ∧
      (x.kind = .atomic 0 → atom (.iadd32 b) 4 (fun p q => (p + q) % 2 ^ 32)) ∧
      (x.kind = .atomic 1 → atom (.iadd64 b) 8 (fun p q => (p + q) % 2 ^ 64)) ∧
      (x.kind = .atomic 2 → atom (.fadd32 b) 4 (fpAdd fp32)) ∧
      (x.kind = .atomic 3 → atom (.fadd16 b) 2 (fpAdd bf16)) ∧
      (x.kind = .atomic 4 → atom (.swap b) 8 (fun _ q => q)) ∧
      (∀ bell, x.kind = .flagSet bell → atom (.flagSet b) 8 (fun _ q => q)) ∧
      (∀ bell, x.kind = .flagAdd bell → atom (.flagAdd b) 8 (fun p q => (p + q) % 2 ^ 64)) ∧
      (x.kind = .atomic 5 →
        let new := (List.range (n / 8)).flatMap (fun e =>
          toLE 8 (if leAt old (8 * e) 8 = leAt arg (8 * e) 8 then leAt x.data 8 8 else leAt old (8 * e) 8))
        on (.cas b) (writeMem (markBegun s x) w new) { x with done := x.done + n, got := x.got ++ old ++ sliceB x.data 8 8 })) ∧
    (∀ (i : BankCycle → Instr) (pa : PortA) (u : PortAUse), portAUse s b pa = some u →
      (match x.kind with
        | .read | .write => some (.bankPortBAccess b)
        | .atomic k => [Instr.iadd32 b, .iadd64 b, .fadd32 b, .fadd16 b, .swap b, .cas b][k]?
        | .flagSet _ => some (.flagSet b)
        | .flagAdd _ => some (.flagAdd b)) = some i →
      let gives (t : State) : Prop := exec (i ⟨[pa], false⟩) s = .next t
      let normal := normalMode s b
      let due : Prop := x.done ≠ 0 ∧ x.deadline ≤ now s (aDie x.addr)
      let count (k : Nat) : State := bump s (pgBank b) B_COLL k
      (meets w n u = false → sameSub w u = true → (¬ due → gives (bump (portAAct s b pa false) (pgBank b) CONFLICT 1)) ∧
        (due → gives (after (performWord (stallPortA s pa) b x none)))) ∧
      (meets w n u = false → sameSub w u = false → gives (after (performWord (portAAct s b pa false) b x none))) ∧
      (meets w n u = true → x.kind = .read → u.write = true →
        let r := performWord (count (if normal then 2 else 0)) b x (some u)
        gives (after (portAAct r.1 b pa normal, r.2))) ∧
      (meets w n u = true → x.kind = .read → u.write = false →
        let r := performWord (count 0) b x (some u)
        gives (after (portAAct r.1 b pa false, r.2))) ∧
      (meets w n u = true → x.kind ≠ .read → u.write = true →
        gives (after (performWord (portAAct (count 1) b pa (reReadsAlways pa)) b x (some u)))) ∧
      (meets w n u = true → x.kind ≠ .read → u.write = false →
        gives (after (performWord (portAAct (count (if normal then 2 else 0)) b pa (normal || reReadsAlways pa)) b x (some u)))) ∧
      (∀ t : State, isBad t w = false →
        let marked := normalMode t b
        (x.kind = .read → performWord t b x (some u) = (markBegun t x,
          if marked && u.write && (match x.client with
            | .source _ _ | .canary _ _ _ => true
            | _ => false) then x
          else { x with done := x.done + n, coll := x.coll || (marked && u.write), got := x.got ++ readMem t w n })) ∧
        (x.kind = .write → performWord t b x (some u) = (markBegun (writePiece t w arg).1 x,
          { x with done := x.done + n, coll := x.coll || (u.write || marked) }))))

/-- Bank modes (R17, R145): a parent's write asks for normal or recovery mode, or for test mode where the writer also holds the tally; the array
drains, and then the mode stands in MODE. A write of start-up mode is refused, and so is one that comes after a higher-ranked writer's in the
same SCLK cycle. -/
def Obligations.BankModes : Prop :=
  ∀ (s : State) (w : Agent) (b : Fin 544), isSafe s (pgBank b / 8192) = false →
    let pg := pgBank b
    let asked (v : Nat) : Host.Outcome State Fault Refusal := .next (noteRanked s w pg MODE [.bankMode b (bank s b).toMode]
      (setBank s b { bank s b with toMode := some v }))
    let mode := fld (rd s pg MODE) 1 0
    (isParent s w pg = true → Unrivalled s w pg MODE →
      (mode ≠ 0 → exec (.modeNormal w b) s = asked 0) ∧
      (mode ≠ 3 → exec (.modeRecovery w b) s = asked 3) ∧
      (holder s pg = w → mode ≠ 2 → exec (.modeTest w b) s = asked 2)) ∧
    (∀ e ∈ s.ranked, e.page = pg → e.off = MODE → e.by_ ≠ w → e.rank < rankOf s w pg →
      ∀ i ∈ [Instr.modeNormal w b, .modeTest w b, .modeRecovery w b], exec i s = .next (refuseWrite s w pg MODE)) ∧
    exec (.modeStartup w b) s = .next (refuseWrite s w pg MODE) ∧
    (∀ v, (bank s b).toMode = some v → ∃ t, exec (.modeChangeApplied b) s = .next t ∧
      rd t pg MODE = BitVec.ofNat 32 v ∧ t.banks = (setBank s b { bank s b with toMode := none }).banks ∧ t.mem = s.mem)

/-- Leases (R17, R149, R150, R151, R301): a lease whose end has come ends first; the holder, with no rival in the same SCLK cycle, hands the
resource to an allowed holder; a parent recalls it, and the holder it names takes it; the lease end takes what a parent or, within 30 minutes,
the holder writes; when it passes, the resource goes to the block that Table 01-3 names and the lease end reads 0. -/
def Obligations.Leases : Prop :=
  ∀ (s : State) (w nx : Agent) (r : Res), isSafe s (resPage r / 8192) = false →
    let pg := resPage r
    let s1 := dueEnd s r
    (mayHold s1 r nx = true → Unrivalled s1 w pg BLK_OWNER →
      (writesAsHolder s1 r w = true → nx ≠ holder s1 pg →
        exec (.handover w r nx) s = .next (noteRanked s1 w pg BLK_OWNER (ownerUndo s1 r) (passTo s1 r nx))) ∧
      (writesAsHolder s1 r w = false → isParent s1 w pg = true → exec (.forcedRecall w r nx) s =
        .next (noteRanked s1 w pg BLK_OWNER (ownerUndo s1 r) (if nx = w then recallLease s1 r w else passTo (recallLease s1 r w) r nx)))) ∧
    (∀ l : W32, Unrivalled s1 w pg BLK_LEASE_END → isParent s1 w pg = true ∨ (writesAsHolder s1 r w = true ∧ l ≠ 0 ∧
        1 ≤ (l - nowMicros s (pg / 8192)).toNat ∧ (l - nowMicros s (pg / 8192)).toNat ≤ 1800000000) →
      exec (.leaseEndWrite w r l) s = .next (noteRanked s1 w pg BLK_LEASE_END [] (wr s1 pg BLK_LEASE_END l))) ∧
    (leaseOver s r = false → s1 = s) ∧
    (leaseOver s r = true → exec (.leaseEnd r) s = .next s1 ∧ rd s1 pg BLK_LEASE_END = 0 ∧
      s1 = wr (if holder s pg = recaller s r then s else recallLease s r (recaller s r)) pg BLK_LEASE_END 0)

/-- A resource without a tally, once handed over, is held by the agent named, and nothing but its page changes, the cycle's record of the write
aside (R149). -/
def Obligations.HandoverNamesTheHolder : Prop :=
  ∀ (s t : State) (w nx : Agent) (r : Res), isSafe s (resPage r / 8192) = false → (∀ b, r ≠ .bank b) → leaseOver s r = false →
    mayHold s r nx = true → writesAsHolder s r w = true → Unrivalled s w (resPage r) BLK_OWNER → nx.ty < 2 ^ 16 → nx.inst < 2 ^ 16 →
    exec (.handover w r nx) s = .next t → holder t (resPage r) = nx ∧ t = { s with regs := t.regs, ranked := t.ranked }

/-- Stacks (R17, R158, R160 to R162, R165 to R169, R350, R380): the request that the controller takes, in turn or, as a free value has it, ahead of its
turn (log entry 18), is dropped at its deadline where its operation has not begun; otherwise its corrected reads are counted, it is performed whole, and
only then is its client answered: with the bytes of a read whose sectors are good, with POISONED where one holds an uncorrectable error, or with the
write's end; what an operation waits for at its home, a hoist's access, a line's fill, an operand and a completion's data go on with that answer. A
finished remap is recorded and its region freed. Refresh is timed while the stack is not critical and its die not safe, and otherwise left to the
stack; its place in the order of service is left out (log entry 124). A sample below 85 °C leaves a normal stack as it is, one of 85 °C or above
makes it hot, one of 105 °C or above critical; a hot stack becomes critical at 105 °C, normal after 1 ms at 80 °C or below, takes no Bulk at 95 °C
or above and half of it after 1 ms below; a critical stack, and, as the model has it, one of a safe die, only keeps the sample (log entry 144). A resume
at 80 °C or below makes a critical stack normal, above that hot; a zeroed stack reads 0 and opens. -/
def Obligations.Stacks : Prop :=
  ∀ (s : State) (k : Fin 8),
    let e := k.val / 4
    let x := stack s k
    let pg := pgStack k
    let seen (c : Nat) : Stack := { x with
      lastTemp := c, le80 := since (decide (c ≤ 80)) (elapsed s) x.le80, lt95 := since (decide (c < 95)) (elapsed s) x.lt95,
      le95 := since (decide (c ≤ 95)) (elapsed s) x.le95 }
    (∀ a errs, stackTakes x (now s e) (Config.takesAhead s.free) = some a →
      let s1 := setStack { s with free := s.free + 1 } k (stackTake x (now s e) a)
      let begun : State := match a.client with
        | .home f id _ => setLayer s1 f { layer s1 f with homes := (layer s1 f).homes.map (fun h => if h.id = id then { h with begun := true } else h) }
        | _ => s1
      let u := meetErrors begun k a errs
      let bad := (sectorsOf a).filter (fun q => isBad u q && readsSector a q)
      let gives (t : State) : Prop := exec (.stackAccess k errs) s = .next t
      (a.deadline ≤ now s e → homeBegun s a = false → gives (accessDone s1 a ⟨[], false, false, false, 0, true⟩)) ∧
      (now s e < a.deadline ∨ homeBegun s a = true →
        (bad = [] → regionListed u a = false →
          (a.kind = .read → gives (accessDone u a ⟨readMem s a.addr a.len, false, false, false, 0, false⟩)) ∧
          (a.kind = .write → gives (accessDone (store u a.addr a.data).1 a ⟨[], false, false, false, 0, false⟩))) ∧
        (bad ≠ [] ∨ regionListed u a = true → a.kind = .read →
          gives (accessDone (bad.foldl metError u) a ⟨[], false, true, false, 0, false⟩)))) ∧
    (∀ (t : State) (a : Access) (data : List Byte),
      let answer (t' : State) : Prop := accessDone t a ⟨data, false, false, false, 0, false⟩ = t'
      (a.client = .none → answer t) ∧
      (∀ d op o, a.client = .source d op → findOp t d op = some o →
        answer (flush (putOp t d { o with phase := .ready, msg := { o.msg with data := data } }) d)) ∧
      (∀ d op o st rs, a.client = .writeBack d op → findOp t d op = some o → o.phase = .back st rs → answer (finishOp t d o st rs [] false)) ∧
      (∀ d id off h, a.client = .home d id off → (layer t d).homes.find? (fun h => h.id = id) = some h →
        let got := if data = [] then h.data else spliceB h.data off data
        (2 ≤ h.left → answer (setLayer t d { layer t d with
          homes := (layer t d).homes.map (fun y => if y.id = id then { h with left := h.left - 1, data := got } else y) })) ∧
        (h.left = 1 → h.late = false → h.denied = false → h.poison = false → h.reason = 0 → h.coll = false →
          let t1 := setLayer t d { layer t d with homes := (layer t d).homes.filter (fun y => y.id ≠ h.id) }
          (h.for_ = .remote → answer (afterWrite serveHeld (homeComp t1 d h.msg sOK 0 (if h.msg.opc = 2 ∨ h.msg.opc = 3 then got else [])) d h.msg)) ∧
          (∀ c op, h.for_ = .hoist c op →
            answer (afterWrite serveHeld (innerDone t1 c op sOK 0 (if h.msg.opc = 2 then got else [])) d h.msg)) ∧
          (∀ cached lease, h.for_ = .fill cached lease → answer (fillDone t1 d { h with left := 0, data := got } cached lease)) ∧
          (∀ n tag, h.for_ = .image n tag → answer (imageRead t1 n tag true got))))) ∧
    (∀ g rest, x.remapping = g :: rest →
      let left := (rd s pg SPARES_LEFT).toNat
      let spare := 0xC0000 - left
      let s1 := wr (bump (setStack s k { x with remapping := rest, remaps := x.remaps ++ [(g, spare)] }) pg REMAPS 1) pg SPARES_LEFT
        (BitVec.ofNat 32 (left - 1))
      let h := history s e
      let s2 := setHistory s1 e (if (h.remaps.filter (fun r => r.1 = k.val)).length < 24576 then { h with remaps := h.remaps ++ [(k.val, g, spare)] }
        else { h with remapLost := h.remapLost + 1 })
      exec (.regionRemapDone k) s = .next (report s2 ⟨e, ⟨btStack, k⟩, 0x06, .never, spare, some (0, g)⟩)) ∧
    (stackCritical s k = false → domain s (domStack k) = 2 → isSafe s e = false →
      exec (.refresh k) s = .next (setStack s k { x with refreshAt := elapsed s })) ∧
    (stackCritical s k = true ∨ domain s (domStack k) ≠ 2 ∨ isSafe s e = true → exec (.refresh k) s = .next s) ∧
    (∀ c : Byte, domain s (domStack k) = 2 →
      let s1 := setStack s k (seen c.toNat)
      let held (o : Option Ns) : Bool := heldFor o (elapsed s) 1000000
      let gives (t : State) : Prop := exec (.stackTempSample k c) s = .next t
      (isSafe s e = true ∨ 2 ≤ x.thermal → gives s1) ∧
      (isSafe s e = false → x.thermal = 0 → gives (if c.toNat < 85 then s1
        else if c.toNat < 105 then stackHotEntry s1 k c.toNat else stackCriticalEntry (stackHotEntry s1 k c.toNat) k)) ∧
      (isSafe s e = false → x.thermal = 1 → gives (if 105 ≤ c.toNat then stackCriticalEntry s1 k
        else if held (seen c.toNat).le80 then setThrottle (setStack s1 k { seen c.toNat with thermal := 0 }) k 0 0
        else if 95 ≤ c.toNat then setThrottle s1 k 2 2
        else if held (seen c.toNat).lt95 then setThrottle s1 k 1 2 else s1))) ∧
    (∀ w, isSafe s e = false → isParent s w pg = true → Unrivalled s w pg RESUME → domain s (domStack k) = 2 →
      heldFor x.le95 (elapsed s) 10000000 = true → x.thermal = 2 → exec (.stackResume w k) s =
        .next (noteRanked s w pg RESUME [] (sendNotice (if x.lastTemp ≤ 80 then setThrottle (setStack s k { x with thermal := 0 }) k 0 0
          else setThrottle (bump (setStack s k { x with thermal := 1 }) pg HOT_EVENTS 1) k 1 2) k 0))) ∧
    (domain s (domStack k) = 2 → x.open_ = false → exec (.stackZeroingDone k) s =
      .next (bootProgress (setStack { s with
        mem := s.mem.filter (fun c => !(decide (aSpace c.1 = 0) && decide (stackOf (aDie c.1) (aOff c.1) = k)))
        ue := s.ue.filter (fun q => !(decide (aSpace q = 0) && decide (stackOf (aDie q) (aOff q) = k))) } k { x with open_ := true })))

/-- Hoist descriptors (R194, R199, R200, Table 10-2): in its turn at the engine, a channel whose script is ready issues the next descriptor, once it
has been read, under the command of its operation. HEAD sets the record area and the seeds, SETB a base register, LOOP its body and count, FLAG
sends its message, WAIT reads its flag, FENCE and END complete; MOVE, EXPAND and COMPRESS, once their side streams are known, TABLE and KVGATHER
begin their first step; a side stream that breaks R201 ends the script POISONED. -/
def Obligations.HoistDescriptors : Prop :=
  ∀ (s t : State) (c : Fin 256) (r q : Script) (d : HDesc), (channel s c).run = some r → r.ended = none → r.phase = .ready →
    isSafe s (channelDie c) = false → engineTurn s c = true → fetchDesc s c r.idx = .ok t [] → (channel t c).run = some q →
    q.desc q.idx = some d → d.ok = true → d.link = false →
    let upd (f : Script → Script) : State := updScript t c f
    let starts (u : State) : State := updScript u c (fun x => { x with phase := .run, step := 0, stepsDone := 0, inner := [] })
    (d.op = hHEAD → q.idx = 0 → exec (.head c) s = .next (doneDesc (upd (fun x => { x with
      recAddr := q.dstRow d 0, recCap := d.count, seed := BitVec.ofNat 64 d.value, hstep := BitVec.ofNat 64 d.addr, stepsDone := 0 })) c 0)) ∧
    (q.idx ≠ 0 →
      (∀ u v, fetchSides 4 t c (q.idx + 1) = .ok u [] → (channel u c).run = some v → leadOk d (v.sides v.idx) = true →
        (d.op = hMOVE → exec (.move c) s = .next (runStep (starts u) c false)) ∧
        (d.op = hEXPAND → exec (.expand c) s = .next (runStep (starts u) c false)) ∧
        (d.op = hCOMPRESS → exec (.compress c) s = .next (runStep (starts u) c false))) ∧
      (∀ u v k, fetchSides 4 t c (q.idx + 1) = .ok u [] → (channel u c).run = some v → leadOk d (v.sides v.idx) = false →
        brokenLink d (v.sides v.idx) = some k →
        (d.op = hMOVE → exec (.move c) s = .next (endDescAt u c (v.idx + 1 + k) sPOISONED 0)) ∧
        (d.op = hEXPAND → exec (.expand c) s = .next (endDescAt u c (v.idx + 1 + k) sPOISONED 0)) ∧
        (d.op = hCOMPRESS → exec (.compress c) s = .next (endDescAt u c (v.idx + 1 + k) sPOISONED 0))) ∧
      (d.op = hTABLE → exec (.table c) s = .next (runStep (starts t) c false)) ∧
      (d.op = hKVGATHER → exec (.kvgather c) s = .next (runStep (starts t) c false)) ∧
      (d.op = hSETB → exec (.setb c) s = .next (doneDesc (upd (fun x =>
        if d.param = 1 then { x with b1 := BitVec.ofNat 64 d.value }
        else if d.param = 2 then { x with b2 := BitVec.ofNat 64 d.value } else { x with b3 := BitVec.ofNat 64 d.value })) c 0)) ∧
      (d.op = hLOOP → loopOk q d = true → exec (.descLoop c) s = .next (if d.param = 0
        then upd (fun x => nextDesc 0 { x with idx := d.target })
        else upd (fun x => nextDesc 0 { x with loops := ⟨q.idx + 1, d.target, d.param, BitVec.ofNat 64 d.src, BitVec.ofNat 64 d.dst,
          BitVec.ofNat 64 d.value⟩ :: x.loops }))) ∧
      (d.op = hWAIT → waitPlaceOk t c d.addr = true → exec (.descWait c) s = .next (pollWait (upd (fun x => { x with
        phase := .waitFlag (Nat.min q.deadline (now t (channelDie c) + d.param)), step := 0, stepsDone := 0, inner := [] })) c d)) ∧
      (d.op = hFLAG → exec (.descFlag c) s = .next (runStep (sendFlag (upd (fun x => { x with
        phase := .flag, step := 0, stepsDone := 0, inner := [] })) c q d) c false)) ∧
      (d.op = hFENCE → exec (.descFence c) s = .next (doneDesc t c 0)) ∧
      (d.op = hEND → exec (.hoistEnd c) s = .next (upd (fun x =>
        { x with executed := x.executed + 1, ended := some (if q.poison then sPOISONED else sOK, 0) }))))

/-- The events of a running script (R185, R188, R190, R202, R206, R207, R209, R210, R265): a WAIT reads its flag again, completes once its
read has come and the test holds, or times out; an EXPAND's block, in the channel's turn, passes its checks by the deadline, is POISONED by them, or fails after it; a
COMPRESS writes its map entry once its slot is written; a step ends and the next begins; refused inner operations are judged again; a script
that has ended, with nothing under way and its records written, completes, or fails where its timer has fired. -/
def Obligations.HoistEvents : Prop :=
  ∀ (s : State) (c : Fin 256) (r : Script), (channel s c).run = some r →
    (∀ d due, waiting s c = some (r, d, due) →
      let again := updScript s c (fun x => { x with inner := x.inner.filter (fun i => i.res.isNone) })
      (∀ u, readUnit again c uPoll d.addr 8 = .wait u → exec (.hoistWaitPoll c) s = .next u) ∧
      (∀ u bs, readUnit again c uPoll d.addr 8 = .ok u bs →
        exec (.hoistWaitPoll c) s = .next (if flagTest d.role (leNat bs) d.value then doneDesc u c 0 else u)) ∧
      (∀ u bs, readUnit s c uPoll d.addr 8 = .ok u bs →
        runStep s c false = if flagTest d.role (leNat bs) d.value then doneDesc u c 0 else u) ∧
      (due ≤ now s (channelDie c) → exec (.hoistWaitTimeout c) s = .next (endDesc s c sFAILED rDeadline))) ∧
    (r.ended = none → engineTurn s c = true →
      (∀ d u stored, r.phase = .run → r.desc r.idx = some d → d.op = hEXPAND → expandPlaceOk s r d = true →
        readBlock s c r d (r.sides r.idx) = .ok u stored →
        (∀ data, blockVerdict u c r d (r.sides r.idx) stored = .pass data → exec (.blockRelease c r.step) s =
          .next (runStep (if r.deadline ≤ now u (channelDie c) then endDesc u c sFAILED rDeadline
            else updScript u c (fun x => { x with phase := .released data })) c false)) ∧
        (∀ w, blockVerdict u c r d (r.sides r.idx) stored = .fail w → exec (.blockRelease c r.step) s =
          .next (runStep (poisonStep u c d (r.sides r.idx) w) c false))) ∧
      (∀ e, r.phase = .slotted e → exec (.mapEntryWrite c r.step) s =
        .next (runStep (updScript s c (fun x => { x with phase := .mapping e })) c false)) ∧
      (stepEnds r = true → exec (.hoistStepDone c r.step) s = .next (runStep (runStep s c true) c false))) ∧
    (r.ended = none → r.inner.any Inner.refused = true → exec (.innerOpRetry c) s = .next (retryInner s c)) ∧
    (∀ st rs, r.ended = some (st, rs) → r.quiet = true → r.summed = true → r.recs = [] → exec (.scriptComplete c) s =
      .next (if r.deadline < now s (channelDie c) + 100 then endScript s c sFAILED rDeadline else endScript s c st rs))

/-- A channel's launch and stop (R195, R196, R197, R210): the holder's launch, where admission, credit and rights allow it, starts a script with
one deadline; its stop ends the script with reason deadline; another block's stop is refused. -/
def Obligations.ChannelCommands : Prop :=
  ∀ (s : State) (w : Agent) (c : Fin 256), isSafe s (channelDie c) = false →
    let pg := pgChannel c
    let cls := fld (rd s pg CH_LAUNCH) 1 0
    let dl := (rd s pg CH_DL_NS).toNat
    let budget := if dl ≠ 0 then dl else if cls = scavenge then 2 ^ 32 - 1 else promise s (channelDie c) cls
    let addr := (rd64 s pg SCRIPT_LO).toNat
    ((service s (channelDie c)).state = 2 → beforeReady s = false → launchAllowed s c w (holderWindows s w) addr = true →
      launchRefused s c cls budget false = false →
      exec (.channelLaunch w c) s = .next (startScript { s with nextOp := s.nextOp + 1 } c
        (newScript w s.nextOp addr cls (now s (channelDie c) + budget) (holderWindows s w)))) ∧
    (∀ r, holder s pg = w → (channel s c).run = some r → r.ended = none →
      exec (.channelStop w c) s =
        .next (setChannel s c { channel s c with run := some { r with ended := some (sFAILED, rDeadline) } })) ∧
    (holder s pg ≠ w → exec (.channelStop w c) s = .next (refuseWrite s w pg CH_CMD))

/-- PUT, GET and multicast copies at their home (R215, R218 to R221, R252): a message of the inbox that its stream and its checks let pass is
performed; a PUT held for order is judged again when it is released, and dropped at its deadline; a multicast copy on its UP port goes on. -/
def Obligations.MessagesAtHome : Prop :=
  ∀ (s : State) (die : Die) (m : Msg), isSafe s die = false →
    let d := die.val
    (∀ s1 i s2 s3, takeMsg s d m = some (s1, i) → judgeStream s1 d m = (s2, true) → judgeOp s2 d m = (s3, true) →
      (m.opc = 1 ∨ (m.opc = 5 ∧ i.via = none) → isHeld s3 d m = false → exec (.putMessage die m) s = .next (performWrite s3 d m)) ∧
      (m.opc = 1 → isHeld s3 d m = true → exec (.putMessage die m) s =
        .next (recordSeq (setLayer s3 d { layer s3 d with heldPuts := (layer s3 d).heldPuts ++ [m] }) d m (.performing true))) ∧
      (m.opc = 2 → exec (.getMessage die m) s = .next (if aSpace m.addr.toNat = 2
        then homeComp (remoteRead s3 m d (msgLen m)).1 d m (remoteRead s3 m d (msgLen m)).2.1 0 (remoteRead s3 m d (msgLen m)).2.2
        else performAt s3 d m .remote))) ∧
    (∀ s3, m ∈ (layer s d).heldPuts → isHeld s d m = false → judgeOp (unhold s d m) d m = (s3, true) →
      exec (.heldPutRelease die m) s = .next (performWrite s3 d m)) ∧
    (m ∈ (layer s d).heldPuts → m.deadline.toNat ≤ now s d →
      exec (.heldPutDeadline die m) s = .next (recordSeq (unhold s d m) d m .dropped)) ∧
    (∀ (p : Fin 24) s1 i, p.val / 12 = d → takeMsg s d m = some (s1, i) → m.opc = 5 → i.via = some p.val →
      bitsOf m.addr.toNat 63 58 = 0 →
      let e := Sparse.get 0 (copyOf s d m.gen.toNat).mc (groupOf m.addr.toNat)
      fld e 31 31 = 1 → fld e 28 24 = p.val → (i.hops ≠ 0 ∨ fld e 23 0 = 0) → combineRoom s d m = true →
      exec (.mcput p m) s = .next (copyArrives s1 d m p i.hops))

/-- Completions and acknowledgements at the originator and its timers (R2, R11, R217, R222, R252, R253, R265): a completion that comes before its
operation's timer has fired is received, and the operation goes on with its status, its data and, under FAILED, its reason; an ACK frees the
completions below it; an unacknowledged completion is acknowledged after 2 µs; an operation without completion is sent again after RETRY_NS and
fails with reason deadline when its timer fires; a part of a combined completion counts once for its port, and at the time-out the parts that have not
come count as failed. -/
def Obligations.Completions : Prop :=
  ∀ (s : State) (die : Die) (m : Msg),
    let d := die.val
    (∀ s1 i o, isSafe s d = false → takeMsg s d m = some (s1, i) → m.opc = 8 → i.via.bind (fun p => (combinedFor s p m).map (fun c => (p, c))) = none →
      (layer s1 d).ops.find? (fun o => decide (o.phase = .sent) && answers m i.via.isNone o) = some o →
      now s1 d + guardNs o.origin ≤ o.msg.deadline.toNat →
      let s2 := if o.msg.opc = 5 then bump s1 (pgRmop d) MC_FAIL (bitsOf m.addr.toNat 46 32) else s1
      let rs := if m.sub.toNat = sFAILED then m.reason.toNat else 0
      let o1 := { o with phase := .back m.sub.toNat rs }
      exec (.comp die m) s = .next (resume (arriveData (putOp (received s2 d o) d o1) d o1 m.sub.toNat rs
        (if o.msg.opc = 2 ∨ o.msg.opc = 3 then m.data else [])))) ∧
    (∀ s1 i p e c, isSafe s d = false → takeMsg s d m = some (s1, i) → m.opc = 8 → i.via = some p → combinedFor s p m = some (e, c) →
      let came := { c with wait := c.wait.filter (fun q => q ≠ p) }
      let failed := bitsOf m.addr.toNat 46 32
      (c.sent = true ∨ ¬ p ∈ c.wait → exec (.comp die m) s = .next s1) ∧
      (c.sent = false → p ∈ c.wait → exec (.comp die m) s = .next (updCombine s1 e (if m.sub = 0 ∧ failed = 0 then came
        else came.fail m.sub.toNat m.reason.toNat (bitsOf m.addr.toNat 14 0) (Nat.max 1 failed))))) ∧
    (∀ s1 i x, isSafe s d = false → takeMsg s d m = some (s1, i) → m.opc = 9 → inStream s1 d m = some x → x.incarn = m.incarn →
      exec (.ack die m) s = .next (putInStream s1 d m (x.acknowledge m.ack))) ∧
    (∀ (dest : BitVec 15) (kind : BitVec 4) (agent : BitVec 12) (cls : BitVec 2) (x : OutStream) (t0 : Ns),
      let is (x : OutStream) : Bool := decide (x.dest = dest.toNat) && decide (x.kind = kind.toNat) && decide (x.agent = agent.toNat) &&
        decide (x.cls = cls.toNat)
      (layer s d).outStreams.find? is = some x → x.ackDue = some t0 → isSafe s d = false → t0 + 2000 ≤ now s d →
      exec (.ackTimer die dest kind agent cls) s = .next (sendMsg toInbox (setLayer s d { layer s d with
        outStreams := (layer s d).outStreams.map (fun y => if is y then { y with ackDue := none } else y) }) d dest.toNat (ackMsg s d x))) ∧
    (∀ op e o, anyOp s op = some (e, o) → o.phase = .sent → isSafe s e = false → o.sentAt + retryNs s e o ≤ now s e →
      now s e < o.msg.deadline.toNat → exec (.retransmitTimer op) s = .next (resend s e o)) ∧
    (∀ op e o, anyOp s op = some (e, o) → timerAt o ≤ now s e →
      exec (.deadlineTimer op) s = .next (resume (finishOp s e o sFAILED rDeadline [] true))) ∧
    (∀ op n o, anyOp s op = none → findLong s op = some (n, o) → o.deadline ≤ now s (n / 256) + 100 → onlyCanary s n o = none →
      exec (.deadlineTimer op) s = .next (failLong s n rDeadline o)) ∧
    (∀ op c r, anyOp s op = none → findLong s op = none → findScript s op = some (c, r) → r.deadline ≤ now s (c / 128) + 100 →
      exec (.deadlineTimer op) s = .next (endScript s c sFAILED rDeadline)) ∧
    (∀ copy c, (layer s d).combines.find? (fun c => decide (c.id = copy) && !c.sent) = some c → c.msg.deadline.toNat ≤ now s d + 1000 * c.depth + 500 →
      let c1 := c.wait.foldl (fun (x : Combine) p => x.fail sFAILED rDeadline (fld (rd s (pgPort p) PEER) 14 0) 1) c
      let c2 := if c.own then c1.fail sFAILED rDeadline (2 * s.boot.node + aDie c.msg.addr.toNat) 1 else c1
      exec (.mcCombineTimeout die copy) s = .next (combineDone s d { c2 with wait := [], own := false }))

/-- The directory and the cache (R230 to R234): a GETS is served, or held behind a write of its line; a FILL gives its line to the GETs that wait
for it, and is kept while its lease runs, and one whose lease has ended has them miss again; an INV removes the line and is answered, once no hit
on it is being read; an IACK or an eviction removes the sharer, an ABSENT with an outstanding tag removes none, and an answer whose tag is not
outstanding is counted; writes and reads held at a line go on when no live sharer is left; a lease that has ended removes its sharer. That a FILL with DEADLINE 0 grants no
lease, and that the reads held at a line go on after its writes, are the model's (log entries 12 and 13). -/
def Obligations.Coherence : Prop :=
  ∀ (s s1 : State) (die : Die) (m : Msg),
    let d := die.val
    let line := low50 m.addr.toNat
    let tagged (x : Sharer) : Bool := decide (x.node = m.src.toNat) && decide (x.tag = some m.tag.toNat)
    let uncounted : State := bump (setLayer s1 d { layer s1 d with staleTags := (layer s1 d).staleTags.filter (fun x => x.1 ≠ m.tag.toNat) })
      (pgRmop d) ABSENT_DISCARD 1
    (cohTake s d 0x10 m = (s1, true) →
      let l := (dirLine s1 d (line / 256 * 256)).getD ⟨line / 256 * 256, [], [], []⟩
      exec (.gets die m) s = .next (if lineBusy s1 d l then putDir s1 d { l with heldGets := l.heldGets ++ [m] } else serveGets serveHeld s1 d m)) ∧
    (cohTake s d 0x11 m = (s1, true) →
      let takes (t : State) (ops : List Nat) (lease : Option Ns) : State :=
        finishFills (setLayer t d { layer t d with fills := (layer t d).fills.map (fun f =>
          if ops.contains f.op then f.take m.addr.toNat m.sub.toNat m.reason.toNat m.data lease else f) }) d
      let ops := fillServes s1 d m.addr.toNat (decide (m.deadline ≠ 0))
      (m.deadline = 0 → exec (.fill die m) s = .next (takes s1 ops none)) ∧
      (m.deadline ≠ 0 → now s1 d < m.deadline.toNat → exec (.fill die m) s = .next (takes
        (if m.sub = 0 ∧ inDoubt s1 d = false then keepLine s1 d m.addr.toNat m.deadline.toNat m.cls.toNat m.deadline.toNat m.data else s1)
        ops (some m.deadline.toNat))) ∧
      (m.deadline ≠ 0 → m.deadline.toNat ≤ now s1 d → exec (.fill die m) s = .next
        (((layer s1 d).ops.filter (fun o => ops.contains o.id)).foldl (fun t o => sendGets t d m.addr.toNat o.msg)
          (bump s1 (pgRmop d) RC_MISSES ops.length)))) ∧
    (cohTake s d 0x12 m = (s1, true) →
      let held := (layer s1 d).cache.any (fun c => c.addr == m.addr.toNat)
      let s2 := setLayer s1 d { layer s1 d with cache := (layer s1 d).cache.filter (fun c => c.addr ≠ m.addr.toNat) }
      exec (.inv die m) s = .next (if hitsOn s2 d m.addr.toNat then setLayer s2 d { layer s2 d with heldIacks := (layer s2 d).heldIacks ++ [m] }
        else sendCoh s2 d (cohPeer m) (nodeDie s2 d) 5 (if held then 0x13 else 0x14) m.cls.toNat m.addr.toNat m.deadline.toNat m.tag.toNat 0 0 [])) ∧
    (∀ l, dirLine s1 d line = some l → l.sharers.any tagged = true →
      (cohTake s d 0x13 m = (s1, true) → exec (.iack die m) s = .next (putDir s1 d { l with sharers := l.sharers.filter (fun x => !tagged x) })) ∧
      (cohTake s d 0x14 m = (s1, true) → exec (.absent die m) s = .next s1)) ∧
    ((∀ l, dirLine s1 d line = some l → l.sharers.any tagged = false) →
      (cohTake s d 0x13 m = (s1, true) → exec (.iack die m) s = .next uncounted) ∧
      (cohTake s d 0x14 m = (s1, true) → exec (.absent die m) s = .next uncounted)) ∧
    (∀ l, cohTake s d 0x15 m = (s1, true) → dirLine s1 d line = some l →
      let tags := (l.sharers.filter (fun x => x.node = m.src.toNat)).filterMap (fun x => x.tag.map (fun g => (g, x.leaseEnd)))
      let s2 := putDir s1 d { l with sharers := l.sharers.filter (fun x => x.node ≠ m.src.toNat) }
      exec (.evict die m) s = .next (setLayer s2 d { layer s2 d with staleTags := tags ++ (layer s2 d).staleTags })) ∧
    (∀ a l, dirLine s d a = some l → l.heldWrites ≠ [] ∨ l.heldGets ≠ [] → l.live (now s d) = [] →
      exec (.directoryWriteRelease die a) s = .next (serveHeld
        (l.heldWrites.foldl (fun t w => releaseWrite t d w) (putDir s d { l with sharers := [], heldWrites := [] })) d a)) ∧
    (∀ a l (n : BitVec 15), dirLine s d a = some l → exec (.sharerLeaseEnd die a n) s =
      .next (putDir s d { l with sharers := l.sharers.filter (fun x => !(decide (x.node = n.toNat) && decide (x.leaseEnd ≤ now s d))) }))

/-- What a port does with an arriving frame of a named type (R239, R240): a stomped frame and one with a bad CRC are counted, the second
answered with NAK once for each break; a frame of the next `LSEQ` is accepted, an encrypted one opened, and its `LACK` and credit taken; any
other one, and one whose encryption does not verify, is answered with NAK. -/
def Obligations.FramesInSequence : Prop :=
  ∀ (s : State) (p : Nat) (bs : List Byte) (ty : Nat), linkRuns s p = true →
    let x := port s p
    (checkFrame bs = .stomped → receive s p bs ty = (bump s (pgPort p) STOMPED 1, none)) ∧
    (checkFrame bs = .bad ∨ (∃ f, checkFrame bs = .broken f) → receive s p bs ty = (sendNak (bump s (pgPort p) CRC_ERR 1) p, none)) ∧
    (∀ f, checkFrame bs = .good f → f.ftype = ty → ty ≠ 1 → ty ≠ 5 →
      let taken : State := takeAck (setPort s p { x with rxNext := (x.rxNext + 1) % 4096, nakSent := false }) p f
      (x.keys = none ∨ ty ≠ 0 →
        (f.lseq = x.rxNext → receive s p bs ty = (taken, some f)) ∧ (f.lseq ≠ x.rxNext → receive s p bs ty = (sendNak s p, none))) ∧
      (∀ k, x.keys = some k → ty = 0 → receive s p bs ty = match openBody k f with
        | some b => if f.lseq = x.rxNext then (taken, some { f with body := b }) else (sendNak s p, none)
        | none => (sendNak (bump s (pgPort p) CRC_ERR 1) p, none))) ∧
    (x.nakSent = false → sendNak s p = emitIdle (setPort s p { x with nakSent := true }) p true) ∧
    (x.nakSent = true → sendNak s p = s)

/-- Frames that arrive (R238, R240, R243 to R245, R267, R268, R364): an operation frame on a lane the port carries is queued for the router, or in
quarantine is acknowledged and discarded, and one whose CRC or tag fails after its HCRC, or a notice whose CRC does, is answered with NAK and
passed on stomped where it was being forwarded; an idle frame gives credit; a notice for this device completes its operation, and any other is queued; an agree frame is kept and
compared; a time frame is kept, and answered unless it is itself an answer; a fragment of an attestation under way is taken; a safe-idle frame
makes the port peer-safe. That it keeps the frames in transit that wait (log entry 51), that an agree frame's outcome applies at once (log entry
45) and which copies end stomped (log entry 126) are the model's choices. -/
def Obligations.FramesArrive : Prop :=
  ∀ (s s1 : State) (p : Fin 24) (bs : List Byte) (f : RxFrame),
    let x := port s1 p
    let got := consume s1 p f
    (receive s p bs 0 = (s1, some f) → (carries x.st f.lane = true → f.lane ≠ 4 → ∀ m, parseMsg f.body = some m →
        exec (.operationFrame p bs) s = .next (opArrives s1 p f m)) ∧
      (x.st = 3 → exec (.operationFrame p bs) s = .next (bump got (pgPort p) Q_DISCARD 1))) ∧
    (∀ g, checkFrame bs = .broken g → linkRuns s p = true → exec (.operationFrame p bs) s =
      .next (stompCopy (sendNak (bump s (pgPort p) CRC_ERR 1) p) p g) ∧
      exec (.routeNotice p bs) s = .next (stompCopy (sendNak (bump s (pgPort p) CRC_ERR 1) p) p g)) ∧
    (∀ g, checkFrame bs = .good g → g.ftype = 0 → linkRuns s p = true → tagFails (port s p) g = true → exec (.operationFrame p bs) s =
      .next (stompCopy (sendNak (bump s (pgPort p) CRC_ERR 1) p) p g)) ∧
    (receive s p bs 1 = (s1, some f) → exec (.idleFrame p bs) s = .next s1) ∧
    (receive s p bs 4 = (s1, some f) → 4 ≤ x.st → ∀ m, parseNotice f.body = some m →
      exec (.routeNotice p bs) s = .next (if m.src.toNat / 2 = s.boot.node then noticeArrives got m
        else queueFrame s1 (portDie p) ⟨.notice m, m.src.toNat, 4, f.hopsLeft, false, some p.val⟩)) ∧
    (receive s p bs 2 = (s1, some f) → ∃ r,
      let u : State := { got with regs := r }
      exec (.agreeFrame p bs) s =
        .next (applyAgree (setPort u p { port got p with peerAgree := sliceB f.body 0 80 }) p true) ∧
      fld (rd u (pgPort p) PEER) 14 0 = leAt (sliceB f.body 0 80) 8 4 % 2 ^ 15 ∧
      (rd u (pgPort p) PEER_REV).toNat = leAt (sliceB f.body 0 80) 4 4) ∧
    (receive s p bs 3 = (s1, some f) →
      let y := port got p
      let die := portDie p
      let tx := leAt f.body 0 8
      let echo := leAt f.body 8 8
      let rx := leAt f.body 16 8
      let theta := offsetOf echo rx tx (now got die)
      let t := setPort got p { y with
        peerTx := tx, peerRx := now got die, peerDist := bitsOf (leAt f.body 24 4) 3 0, peerDoubt := bitsOf (leAt f.body 24 4) 4 4 == 1
        good := if echo = 0 then y.good else if 25 < theta.natAbs then 0 else if y.st = 5 then 2 else y.good + 1
        theta := if echo = 0 then y.theta else theta }
      let u := if echo = 0 then chooseSource t die else validExchange t die p theta (delayOf echo rx tx (now got die))
      let v := if (port u p).st = 5 then u else applyAgree u p false
      exec (.timeFrame p bs) s = .next (if echo ≠ 0 ∧ echo = y.lastTx then v else queueTime v p)) ∧
    (receive s p bs 6 = (s1, some f) → (port got p).attest = 1 → (port got p).st = 3 ∨ (port got p).st = 4 → fragmentOk (port got p).fragments.length f.body = true →
      (port got p).fragments.length + (fragmentData f.body).length < leAt f.body 4 2 → leAt f.body 2 2 ≠ 0 →
      exec (.attestationFrame p bs) s =
        .next (setPort got p { port got p with fragments := (port got p).fragments ++ fragmentData f.body })) ∧
    (receive s p bs 5 = (s1, some f) → exec (.safeIdleFrame p bs) s = .next (setPort s1 p { x with
      st := 6, qcause := 0, peerReason := leAt f.body 2 1, training := .none, held := [], queue := x.queue.filter (fun h => h.p.transit)
      keys := none, peerAgree := [] }))

/-- Frames that leave, and the routers (R238, R239, R245, R247, R248, R262, R263, R267): a port that runs drops what is late and sends a frame under
replay, or else the first of its lanes' first frames that may leave; an idle frame after 1 µs of silence, a time frame each 1 ms, and replays
after 8 µs without progress; a safe port sends a safe-idle frame each 1 µs; a router forwards the frame that is served first; a frame whose
deadline has passed is dropped, in the router and at a port. What a replay passes over (log entry 125) and the spacing of lane 4 (log entry 124)
are the model's choices. -/
def Obligations.FramesLeave : Prop :=
  ∀ (s : State) (p : Fin 24),
    let x := port s p
    let t := elapsed s
    (linkRuns s p = true →
      let s1 := dropLate s p
      let y := port s1 p
      let due := y.held.find? (fun f => !f.sent && carriesP y.st f.lane f.p)
      let first := firstFrame (((List.range 5).filterMap (laneHead y)).filter (mayLeave y (elapsed s1)))
      (∀ f, due = some f → exec (.frameTransmit p) s = .next (emitFrame (setPort s1 p { y with
        held := y.held.map (fun g => if g.lseq = f.lseq then { g with sent := true } else g) }) p f.lseq f.lane f.hopsLeft f.p false)) ∧
      (∀ f, due = none → first = some f → exec (.frameTransmit p) s = .next (sendFrame s1 p f)) ∧
      (due = none → first = none → exec (.frameTransmit p) s = .next s1)) ∧
    (linkRuns s p = true → x.sentAt + 1000 ≤ t → exec (.idleFrameTimer p) s = .next (emitFrame s p x.txNext 4 0 .idle false)) ∧
    (linkRuns s p = true → 3 ≤ x.st → x.timeSent + 1000000 ≤ t → exec (.timeFrameTimer p) s =
      .next (queueTime (setPort s p { x with timeSent := t }) p)) ∧
    (linkRuns s p = true → x.held ≠ [] → x.progressAt + 8000 ≤ t → x.replays + 1 < 8 → exec (.replayTimeout p) s =
      .next (bump (setPort s p { x with
        held := x.held.map (fun f => { f with sent := false }), replays := x.replays + 1, progressAt := t }) (pgPort p) P_REPLAYS 1)) ∧
    (linkRuns s p = true → x.agreeing = true → x.agreeSent + 1000000 ≤ t → exec (.agreeRepeatTimer p) s =
      .next (queueOwn (setPort s p { x with agreeSent := t }) p (.agree (agreeBody s p)))) ∧
    (portOn s p = true → isSafe s (portDie p) = true → x.sentAt + 1000 ≤ t → exec (.safeIdleTimer p) s =
      .next (emitFrame s p x.txNext 4 0 (.safeIdle (toLE 8 ((if s.boot.assigned then nodeDie s (portDie p) else 0x7FFF) +
        2 ^ 16 * (service s (portDie p)).reason))) false)) ∧
    (∀ (die : Die) i q, (router s die.val).queue[i]? = some q →
      (isSafe s die = false → (∀ r ∈ (router s die.val).queue.zipIdx, servedFirst r.1 q r.2 i = true → wayOf s die r.1 = .wait) →
        exec (.frameForward die i) s = .next (forwardFrame s die i q)) ∧
      (∀ dl, q.p.deadline = some dl → dl ≤ now s die →
        exec (.frameDeadlineDrop die i) s = .next (countLate (leaveQueue s die i q) q.inPort))) ∧
    (∀ (die : Die) (n i : Nat) f, n < 12 → (port s (12 * die.val + n)).queue[i]? = some f → f.late (now s die.val) = true →
      let q := port s (12 * die.val + n)
      exec (.frameDeadlineDrop die ((router s die.val).queue.length +
          ((List.range n).map (fun k => (port s (12 * die.val + k)).queue.length)).sum + i)) s =
        .next (countLate (setPort s (12 * die.val + n) { q with queue := q.queue.eraseIdx i }) f.inPort))

/-- Training (R17, R239, R241 to R243, Table 12-2): a parent's commands, without a rival in the same SCLK cycle; a fast retrain that ends replays
from `LACK` + 1, one that fails trains fully; a measured flight of at most 1,750 ns goes on to the agreement, a longer one or a failure leaves
the port down, and it trains again after 1 s or when the peer's signal is seen; without the peer's agree frame it goes back after 10 ms;
attestation fails after 50 ms. What a fast retrain keeps (log entry 50) and a full training does (log entry 51) are read from the spec by
inference. -/
def Obligations.Training : Prop :=
  ∀ (s : State) (p : Fin 24), isSafe s (portDie p) = false → domain s (domPort p) = 2 →
    let x := port s p
    let t := elapsed s
    (∀ w, isParent s w (pgPort p) = true → Unrivalled s w (pgPort p) P_CMD →
      let done (u : State) : Host.Outcome State Fault Refusal := .next (noteRanked s w (pgPort p) P_CMD (portUndo s p) u)
      (3 ≤ x.st → x.st ≤ 5 → x.training ≠ .fast →
        exec (.fastRetrain w p) s = done (bump (setPort s p { x with training := .fast }) (pgPort p) RETRAINS 1)) ∧
      exec (.fullTraining w p) s = done (startTraining s p) ∧
      exec (.portOff w p) s = done (requestDomain s (domPort p) false)) ∧
    (x.training = .fast →
      exec (.fastRetrainDone p true) s = .next (bump (setPort s p { x with
        training := .none, held := x.held.map (fun f => { f with sent := false }), progressAt := t }) (pgPort p) P_REPLAYS
          (if x.held = [] then 0 else 1)) ∧
      exec (.fastRetrainDone p false) s = .next (startTraining s p)) ∧
    (x.training = .electrical →
      (∀ f, f ≤ 1750 → exec (.electricalTrainingDone p (some f)) s =
        .next (startAgree (wr s (pgPort p) FLIGHT_NS (BitVec.ofNat 32 f)) p)) ∧
      (∀ f, 1750 < f → f < 2048 → exec (.electricalTrainingDone p (some f)) s =
        .next (setPort (wr s (pgPort p) FLIGHT_NS (BitVec.ofNat 32 f)) p { x with st := 1, training := .failed t })) ∧
      exec (.electricalTrainingDone p none) s = .next (setPort s p { x with st := 1, training := .failed t })) ∧
    (∀ t0, x.training = .failed t0 → t0 + 1000000000 ≤ t → exec (.trainingRetryTimer p) s = .next (startTraining s p)) ∧
    (x.st = 1 → x.training = .none → exec (.peerSignalDetected p) s = .next (startTraining s p)) ∧
    (∀ t0, x.training = .agree t0 → linkRuns s p = true → t0 + 10000000 ≤ t →
      exec (.agreeWaitTimeout p) s = .next (startTraining s p)) ∧
    (linkRuns s p = true → x.attest = 1 → x.attestAt + 50000000 ≤ t → exec (.attestationTimeout p) s =
      .next (applyAgree (setPort s p { x with attest := 3, fragments := [], keys := none }) p false))

/-- What the comparison of agree frames decides (Table 12-4): classes, revisions and profiles that differ, a missing or shared identity and an
encryption not attested are quarantined with their causes; otherwise the port waits for agreed time, two exchanges in a row within 25 ns, and is
then up, where it stays while its offset is within 25 ns. -/
def Obligations.AgreementOutcome : Prop :=
  ∀ (own : List Byte) (x : Port),
    let node (b : List Byte) : Nat := leAt b 8 2 % 2 ^ 15
    (leAt own 0 4 ≠ leAt x.peerAgree 0 4 → agreeOutcome own x = (3, 1)) ∧
    (leAt own 0 4 = leAt x.peerAgree 0 4 →
      (bitsOf (leAt own 4 4) 15 8 ≠ bitsOf (leAt x.peerAgree 4 4) 15 8 → agreeOutcome own x = (3, 2)) ∧
      (bitsOf (leAt own 4 4) 15 8 = bitsOf (leAt x.peerAgree 4 4) 15 8 →
        (sliceB own 0x20 48 ≠ sliceB x.peerAgree 0x20 48 → agreeOutcome own x = (3, 3)) ∧
        (sliceB own 0x20 48 = sliceB x.peerAgree 0x20 48 →
          (node own = 0x7FFF ∨ node x.peerAgree = 0x7FFF → agreeOutcome own x = (3, 4)) ∧
          (node own ≠ 0x7FFF → node x.peerAgree ≠ 0x7FFF →
            (node own / 2 = node x.peerAgree / 2 → agreeOutcome own x = (3, 5)) ∧
            (node own / 2 ≠ node x.peerAgree / 2 →
              (x.crypt = true → x.attest ≠ 2 → agreeOutcome own x = (3, 6)) ∧
              (x.crypt = false ∨ x.attest = 2 →
                (x.st ≠ 5 → agreeOutcome own x = if 2 ≤ x.good then (5, 0) else (4, 0)) ∧
                (x.st = 5 → agreeOutcome own x = if x.theta.natAbs ≤ 25 then (5, 0) else (4, 0))))))))

/-- Time (R267 to R271, R377, R259): the dies exchange over the bridge each 1 ms; a die without a valid exchange for 10 ms chooses a source
afresh and is in time-doubt; 60 s of a die's doubt make it safe, or of both dies' doubt both; a root without its time pulse for 2 s is in doubt; of
the pulses of at least 100 ns the first is the reference, one 1 s ± 1 ms after the last taken is taken, at which a root steers by how far it is
from the whole second and at the second in a row is agreed again, one later is the reference anew, and one earlier counts for nothing; a read of
TIME_LO latches TIME_HI. That one die's doubt suffices (log entry 46) and the bridge's delay (log entry 47) are the model's choices. -/
def Obligations.TimeCommands : Prop :=
  ∀ (s : State) (die : Die),
    let d := die.val
    let t := timeBlk s d
    let u := timeBlk s (1 - d)
    (s.bridge.st = 2 → s.split = false → isSafe s d = false → t.bridgeSent + 1000000 ≤ elapsed s →
      exec (.bridgeTimeExchange die) s = .next (bridgeFrame (bridgeFrame s d t.now (u.now + Config.bridgeDelay) true) (1 - d)
        (u.now + Config.bridgeDelay) (t.now + 2 * Config.bridgeDelay) false)) ∧
    (t.st = 1 → isTimeRoot s d = false → isSafe s d = false → t.lastValid + 10000000 ≤ elapsed s →
      exec (.timeSourceTimeout die) s = .next (enterDoubt (chooseSource s d) d)) ∧
    (longDoubt s d = true → longDoubt s (1 - d) = false → exec .timeDoubtSafeTimeout s = .next (enterSafe s d 2 false)) ∧
    (longDoubt s 0 = true → longDoubt (enterSafe s 0 2 false) 1 = true →
      exec .timeDoubtSafeTimeout s = .next (enterSafe (enterSafe s 0 2 false) 1 2 false)) ∧
    (isTimeRoot s 0 = true → ppsOn s = true → isSafe s 0 = false → (timeBlk s 0).st = 1 →
      (timeBlk s 0).ppsAt + 2000000000 ≤ (timeBlk s 0).now → exec .ppsAbsenceTimeout s = .next (enterDoubt s 0)) ∧
    (∀ high, 100 ≤ high → ppsOn s = true → (timeBlk s 0).ppsRef = none →
      exec (.ppsEdge high) s = .next (setTime s 0 { timeBlk s 0 with ppsRef := some (timeBlk s 0).now, ppsRow := 0 })) ∧
    (∀ high r, 100 ≤ high → ppsOn s = true → (timeBlk s 0).ppsRef = some r →
      let y := timeBlk s 0
      (1001000000 < y.now - r → exec (.ppsEdge high) s = .next (setTime s 0 { y with ppsRef := some y.now, ppsRow := 0 })) ∧
      (y.now - r < 999000000 → exec (.ppsEdge high) s = .next s) ∧
      (999000000 ≤ y.now - r → y.now - r ≤ 1001000000 →
        let taken : State := setTime s 0 { y with ppsRef := some y.now, ppsAt := y.now, ppsRow := y.ppsRow + 1
                                                  slew := if isTimeRoot s 0 = true then aheadOfSecond y.now else y.slew }
        (y.st = 2 → isTimeRoot s 0 = true → 2 ≤ y.ppsRow + 1 → exec (.ppsEdge high) s = .next (agreeTime taken 0)) ∧
        (y.st ≠ 2 ∨ isTimeRoot s 0 = false ∨ y.ppsRow = 0 → exec (.ppsEdge high) s = .next taken))) ∧
    exec (.timeLoRead die) s = .next (emit (setTime s d { t with hiLatch := BitVec.ofNat 32 (t.now / 2 ^ 32) })
      (.readData (toLE 4 t.now)))

/-- The host's queues (R2, R276, R277, R279 to R281, R318): before `STEP` 1 and in the safe state the host's writes abort; then a write of RQ_TAIL takes the tail modulo the ring size, and one of CQ_HEAD frees the entries it
says are consumed, as a count or as an index of the ring (log entry 58); a queue is enabled once the device is ready, and disabled; a request is
fetched into its place and judged: a reserved encoding completes POISONED, one without its right DENIED, an admitted GET is sent; a request's
data, once read, is sent; a failed read completes it DENIED or POISONED, or FAILED where its deadline has come; a Function Level Reset stops
fetching, masks every vector and returns the page's registers, the apertures' too, to their reset values but for the doorbell registers (log entry
59), and in the safe state it aborts. -/
def Obligations.HostQueue : Prop :=
  (∀ (s : State) (v : W32), s.boot.released = true → isSafe s 0 = true ∨ s.boot.step = 0 →
    exec (.rqTailWrite v) s = .next (emit s .completerAbort) ∧ exec (.cqHeadWrite v) s = .next (emit s .completerAbort) ∧
    exec (.queueEnable ⟨btHost, 0⟩) s = .next (emit s .completerAbort) ∧ exec (.queueDisable ⟨btHost, 0⟩) s = .next (emit s .completerAbort) ∧
    (isSafe s 0 = true → s.host.linkUp = true → exec .functionLevelReset s = .next (emit s .completerAbort))) ∧
  ∀ (s : State), isSafe s 0 = false → s.boot.released = true → 1 ≤ s.boot.step →
    let h := s.host
    let n := ringSize s CQ_SIZE
    (∀ v : W32, v.toNat < 2 ^ 16 →
      exec (.rqTailWrite v) s = .next { s with host := { h with tail := v.toNat % ringSize s RQ_SIZE } } ∧
      exec (.cqHeadWrite v) s = .next { s with host := { h with
        cqHead := v.toNat, cqUsed := h.cqUsed - cqConsumed n h.cqUsed h.cqHead v.toNat } }) ∧
    (∀ w, beforeReady s = false → exec (.queueEnable w) s = .next { s with host := { h with enabled := true } }) ∧
    (∀ w, exec (.queueDisable w) s = .next { s with host := { h with enabled := false } }) ∧
    (∀ bs : List Byte, mayFetch s = true → bs.length = 64 → exec (.requestFetch bs) s =
      .next (takeRequest { s with host := { h with head := (h.head + 1) % ringSize s RQ_SIZE, reserved := h.reserved + 1 } } bs)) ∧
    (∀ bs : List Byte,
      let user : W64 := BitVec.ofNat 64 (leAt bs 0x20 8)
      (requestBad bs = true → takeRequest s bs = writeEntry s user sPOISONED 0) ∧
      (requestBad bs = false → judgeHost s (requestOp bs) = .denied → takeRequest s bs = writeEntry s user sDENIED 0) ∧
      (∀ s1, requestBad bs = false → judgeHost s (requestOp bs) = .go s1 → (requestOp bs).opc = 2 → takeRequest s bs =
        startOp { s1 with host := { s1.host with reqs := s1.host.reqs ++ [⟨s1.nextOp, leAt bs 0x10 8, user, false⟩] }, nextOp := s1.nextOp + 1 } 0
          (hostRop s (requestOp bs) s1.nextOp (.host s1.nextOp) [] false) 0)) ∧
    (∀ op o res, findOp s 0 op = some o → o.phase = .prep → o.origin = .host op → timerPast s 0 o = true →
      exec (.hostDataReadDone op res) s = .next (finishOp s 0 o sFAILED rDeadline [] true)) ∧
    (∀ op o, findOp s 0 op = some o → o.phase = .prep → o.origin = .host op → timerPast s 0 o = false →
      (∀ bs : List Byte, bs.length = msgLen o.msg → exec (.hostDataReadDone op (.ok bs)) s =
        .next (flush (putOp s 0 { o with phase := .ready, msg := { o.msg with data := bs } }) 0)) ∧
      exec (.hostDataReadDone op .unsupported) s = .next (finishOp s 0 o sDENIED 0 [] false) ∧
      exec (.hostDataReadDone op .aborted) s = .next (finishOp s 0 o sDENIED 0 [] false) ∧
      exec (.hostDataReadDone op .poisoned) s = .next (finishOp s 0 o sPOISONED 0 [] false)) ∧
    (h.linkUp = true → ∃ t, exec .functionLevelReset s = .next t ∧
      t.host = { HostPort.reset with
        reqs := h.reqs.map (fun r => { r with discarded := true }), aps := h.aps, msixMask := 2 ^ 66 - 1, msixPending := h.msixPending
        msixTable := h.msixTable, entries := h.entries, linkUp := true
        rung := h.rung, unrung := h.unrung, posts := h.posts } ∧
      (∀ pg off, off < 4096 → off % 4 = 0 → rd t pg off =
        if pg = pgHost ∧ ¬ off ∈ [DOORBELL, DB_MASK_HOST, DB_MASK_HF] then regReset pg off else rd s pg off) ∧ t.mem = s.mem ∧ t.security = s.security ∧ t.layers = s.layers)

/-- Doorbells and posts (R17, R276, R283 to R287, R294): before `STEP` 1 and in the safe state the host's writes abort; then ones written clear
doorbell bits but for those set in the same SCLK cycle; while ring fetching is disabled a mask takes its value and
bits thus unmasked interrupt, and while it is enabled the write is refused (log entry 129); a parent's write of the headframe's mask needs no rival in the same
SCLK cycle; a malformed post is dropped and counted, one to a private mailbox by one that does not hold it, or no longer does, is DENIED, and REFUSED
while the mailbox is full; one to a shared mailbox that holds a notice is COLLIDED; a pop comes before a post of its cycle. -/
def Obligations.DoorbellsAndPosts : Prop :=
  (∀ (s : State) (v : W32) (m : Fin 32) (bs : List Byte), s.boot.released = true → isSafe s 0 = true ∨ s.boot.step = 0 →
    exec (.doorbellClear v) s = .next (emit s .completerAbort) ∧ exec (.dbMaskHostWrite v) s = .next (emit s .completerAbort) ∧
    exec (.dbMaskHfWrite ⟨btHost, 0⟩ v) s = .next (emit s .completerAbort) ∧
    (m.val < 16 → exec (.mailboxPost m bs) s = .next (emit s .completerAbort)) ∧
    exec (.mailboxPop ⟨btHost, 0⟩ m) s = .next (emit s .completerAbort)) ∧
  ∀ (s : State), isSafe s 0 = false → s.boot.released = true → 1 ≤ s.boot.step →
    (∀ v : W32,
      exec (.doorbellClear v) s = .next (wr { s with host := { s.host with unrung := s.host.unrung ||| ((rd s pgHost DOORBELL).toNat &&& v.toNat) } }
        pgHost DOORBELL (rd s pgHost DOORBELL &&& ~~~(v &&& ~~~BitVec.ofNat 32 s.host.rung))) ∧
      (s.host.enabled = false → exec (.dbMaskHostWrite v) s =
        .next ((unmasked s DB_MASK_HOST v).foldl (fun t b => msix t b) (wr s pgHost DB_MASK_HOST v))) ∧
      (s.host.enabled = true → exec (.dbMaskHostWrite v) s = .next (refuseWrite s ⟨btHost, 0⟩ pgHost DB_MASK_HOST)) ∧
      (∀ w,
        (s.host.enabled = false → isParent s w pgHost = true → Unrivalled s w pgHost DB_MASK_HF → exec (.dbMaskHfWrite w v) s =
          .next (noteRanked s w pgHost DB_MASK_HF [.hfIrq s.boot.hfIrq]
            ((unmasked s DB_MASK_HF v).foldl (fun t _ => hfInterrupt t) (wr s pgHost DB_MASK_HF v)))) ∧
        (s.host.enabled = true ∨ isParent s w pgHost = false →
          exec (.dbMaskHfWrite w v) s = .next (refuseWrite s w pgHost DB_MASK_HF)))) ∧
    (∀ (m : Fin 32) (bs : List Byte),
      let t := dueEnd s (.mailbox m)
      let answers (u : State) (status : Nat) : State := mbResult u m (leAt bs 0 1 % 16) (leAt bs 4 2) status
      let kept (u : State) : State := { u with host := { u.host with posts := postedAs t u m bs :: u.host.posts } }
      (noticeOk bs = false → exec (.mailboxPost m bs) s = .next (bump t (pgMailbox m) M_DROPPED 1)) ∧
      (noticeOk bs = true → mbShared t m = false → holder t (pgMailbox m) ≠ mbHolder m (leAt bs 0 1 % 16) →
        exec (.mailboxPost m bs) s = .next (kept (answers t sDENIED))) ∧
      (noticeOk bs = true → mbShared t m = false → holder t (pgMailbox m) = mbHolder m (leAt bs 0 1 % 16) → 8 ≤ (mailbox t m).length →
        exec (.mailboxPost m bs) s = .next (kept (answers t sREFUSED))) ∧
      (noticeOk bs = true → mbShared t m = true → mailbox t m ≠ [] →
        exec (.mailboxPost m bs) s = .next (kept (answers (setBits t (pgMailbox m) M_COLL 1) sCOLLIDED)))) ∧
    (∀ (m : Fin 32) (w : Agent) p, s.host.posts.filter (fun q => q.mailbox = m.val) = [p] →
      exec (.mailboxPop w m) s = .next (mbPost (popHead (unpost s p) m) m p.bytes).1)

/-- Mailboxes (R287): a pop removes the notice at HEAD, and one of an empty mailbox has no effect; with NOTE_IE each accepted notice interrupts the
receiver, with EMPTY_IE a pop that leaves the mailbox empty interrupts the sender side. -/
def Obligations.MailboxPopsAndInterrupts : Prop :=
  ∀ (s : State) (m : Fin 32) (w : Agent), isSafe s 0 = false → s.boot.released = true → 1 ≤ s.boot.step →
    s.host.posts.filter (fun q => q.mailbox = m.val) = [] →
    let ctl := rd s (pgMailbox m) M_CTL
    (mailbox s m = [] → exec (.mailboxPop w m) s = .next s) ∧
    (∀ x rest, mailbox s m = x :: rest →
      let t := setMailbox s m rest
      exec (.mailboxPop w m) s =
        .next (if rest = [] ∧ fld ctl 2 2 = 1 then (if m.val < 16 then msix t (48 + m) else hfInterrupt t) else t)) ∧
    (∀ bs : List Byte,
      let s1 := dueEnd s (.mailbox m)
      noticeOk bs = true → mbShared s1 m = true ∨ holder s1 (pgMailbox m) = mbHolder m (leAt bs 0 1 % 16) →
      (mailbox s1 m).length < mbPlaces s1 m →
      let t := mbResult (setMailbox s1 m (mailbox s1 m ++ [bs])) m (leAt bs 0 1 % 16) (leAt bs 4 2) sOK
      let u := if fld (rd s1 (pgMailbox m) M_CTL) 1 1 = 1 then (if m.val < 16 then hfInterrupt t else msix t (16 + m)) else t
      exec (.mailboxPost m bs) s = .next { u with host := { u.host with posts := postedAs s1 u m bs :: u.host.posts } })

/-- Apertures and configuration requests (R274, R276, R282, R318): a read of an enabled aperture of a ready device joins the port's list and the reads
whose turn it is are issued; a write joins it and is issued, or is held behind a held one; an access to a safe device aborts, and one to a
disabled aperture, or a write to one without `WR`, is unsupported; the oldest held write is released; a configuration request answers retry status
until the port has trained, then the register, and in the safe state it aborts. -/
def Obligations.AperturesAndConfiguration : Prop :=
  ∀ (s : State),
    (s.host.linkUp = true → ∀ (off : BitVec 36),
      let o := off.toNat
      let joins (x : ApAccess) : State := { s with host := { s.host with aps := s.host.aps ++ [x] }, nextOp := s.nextOp + 1 }
      let c := apCtl s (o / 2 ^ 32)
      (isSafe s 0 = false → 1 ≤ s.boot.step → beforeReady s = false → fld c 0 0 = 1 →
        (∀ len, apFits o len = true → exec (.apertureRead off len) s = .next (releaseReads (joins (newAp s false o len [])))) ∧
        (∀ data, apFits o data.length = true → fld c 3 3 = 1 → s.host.aps.any (fun y => y.held && y.write) = false →
          exec (.apertureWrite off data) s =
            .next (issueAp (joins (newAp s true o data.length data)) (newAp s true o data.length data))) ∧
        (∀ data, apFits o data.length = true → fld c 3 3 = 1 → s.host.aps.any (fun y => y.held && y.write) = true →
          exec (.apertureWrite off data) s = .next (joins (newAp s true o data.length data)))) ∧
      (∀ data, apFits o data.length = true →
        (isSafe s 0 = true → exec (.apertureRead off data.length) s = .next (emit s .completerAbort) ∧
          exec (.apertureWrite off data) s = .next (emit s .completerAbort)) ∧
        (isSafe s 0 = false → 1 ≤ s.boot.step → fld c 0 0 = 0 → exec (.apertureRead off data.length) s = .next (emit s .unsupported)) ∧
        (isSafe s 0 = false → 1 ≤ s.boot.step → fld c 0 0 = 0 ∨ fld c 3 3 = 0 →
          exec (.apertureWrite off data) s = .next (emit s .unsupported)))) ∧
    (∀ x, s.host.aps.find? (fun x => x.held && x.write) = some x →
      exec .apertureWriteRelease s = .next (releaseReads (issueAp s x))) ∧
    (s.boot.released = true → ∀ o,
      (s.host.linkUp = false → exec (.pcieConfigRequest o) s = .next (emit s .configRetry)) ∧
      (s.host.linkUp = true → isSafe s 0 = true → exec (.pcieConfigRequest o) s = .next (emit s .completerAbort)) ∧
      (s.host.linkUp = true → isSafe s 0 = false → exec (.pcieConfigRequest o) s = .next (emit s (.configAnswer (configWord (o / 4 * 4))))))

/-- Control accesses (R9, R290, R292, R294, R295): a write of an RW register of an idle page past the header, by an aligned 4-byte access,
leaves the value there and every other register as it was; a read of an RC register answers its value and clears it, but for `MESH_STALLS`, whose
value is free (log entry 136); a history read answers a word of the record and moves on. -/
def Obligations.RegisterAccess : Prop :=
  ∀ (s : State) (die : Die) (page : BitVec 13) (off : BitVec 12) (r : Reg),
    let pg := gpage die page.toNat
    let o := off.toNat
    let kj := pageKind die page.toNat
    s.boot.released = true → 2 ≤ page.toNat → o % 4 = 0 → regOf pg o = some r → isTable kj.1 = false →
    (∀ (w : Agent) (v : W32), r.acc = .rw → 0x40 ≤ o → isSafe s die = false → v.toNat &&& (2 ^ 32 - 1 - r.mask) = 0 → pageOn s pg = true →
      ownWrite s w kj.1 die kj.2 o v = none → valueOk s kj.1 die kj.2 o v = true → pageBusy s pg = false →
      ∃ t, exec (.registerWrite w .mgmt die page off (toLE 4 v.toNat)) s = .next t ∧ rd t pg o = v ∧
        (∀ p q, rkey p q ≠ rkey pg o → rd t p q = rd s p q) ∧ t = { s with regs := t.regs }) ∧
    (kj.1 = .level → o = MESH_STALLS → exec (.readAndClear .mgmt die page off 4) s =
      .next (emit (freshValue s).1 (.readData (toLE 4 (regValue s pg o).toNat)))) ∧
    (r.acc = .rc → ¬(kj.1 = .level ∧ o = MESH_STALLS) → pageOn s pg = true → exec (.readAndClear .mgmt die page off 4) s =
      .next (emit (wr s pg o 0) (.readData (toLE 4 (regValue s pg o).toNat)))) ∧
    exec (.recordRead die) s = .next (emit (readWord s (pgHistory die) 0x07C).1
      (.readData (toLE 4 (regValue s (pgHistory die) 0x07C).toNat)))

/-- How one 32-bit write acts by the register's access (R8, R9, R17, R250, R292, R294, R295, R313, R321, Table 15-3): in the safe state nothing,
but that a refused assignment or pin function is recorded; nothing at a reserved place or on a read-only register; the live tables refuse it, as does
every field past the header of a block without power; read-only bits of a register that is also written ignore it; a one to a reserved bit is
refused (log entry 36); a plain RWS write reaches the staged value, and so does a managed one by a writer with authority and
without a rival in the same SCLK cycle, while one without authority is refused; W1C ones clear. -/
def Obligations.WritesByAccess : Prop :=
  ∀ (s : State) (w : Agent) (pg off : Nat) (v : W32), servePage s pg = pg →
    let k := (pageKind (pg / 8192) (pg % 8192)).1
    let j := (pageKind (pg / 8192) (pg % 8192)).2
    (isSafe s (pg / 8192) = true →
      (pg ≠ pgHeadframe 0 ∨ ¬ off ∈ [ASSIGN, PIN_FUNC_LO, PIN_FUNC_HI] → writeWord s w pg off v = s) ∧
      (pg = pgHeadframe 0 →
        (off = ASSIGN → writeWord s w pg off v = assignNode s w v) ∧
        (off = PIN_FUNC_LO ∨ off = PIN_FUNC_HI → writeWord s w pg off v = pinFuncWrite s w (decide (off = PIN_FUNC_HI)) v))) ∧
    (isSafe s (pg / 8192) = false →
      (regOf pg off = none → writeWord s w pg off v = s) ∧
      (∀ r, regOf pg off = some r →
        (k = .liveRoutes ∨ (k = .liveMc ∧ off < 2048) → writeWord s w pg off v = refuseWrite s w pg off) ∧
        (isTable k = false → 0x40 ≤ off → pageOn s pg = false → neverRefused k off v = false → writeWord s w pg off v = refuseWrite s w pg off) ∧
        (isTable k = false → r.acc = .ro ∨ r.acc = .rc → off < 0x40 ∨ pageOn s pg = true → writeWord s w pg off v = s) ∧
        (roRest k off = true → writeWord s w pg off v = writeWord s w pg off (v &&& BitVec.ofNat 32 r.mask)) ∧
        (r.acc ≠ .ro → r.acc ≠ .rc → isTable k = false →
          (roRest k off = false → v.toNat &&& (2 ^ 32 - 1 - r.mask) ≠ 0 → writeWord s w pg off v = refuseWrite s w pg off) ∧
          (v.toNat &&& (2 ^ 32 - 1 - r.mask) = 0 → 0x40 ≤ off →
            (pageOn s pg = true → ownWrite s w k (pg / 8192) j off v = none → valueOk s k (pg / 8192) j off v = true →
              (r.acc = .rws →
                (isManaged k off = false → writeWord s w pg off v = wrStaged s pg off v) ∧
                (isManaged k off = true →
                  (mayManage s w pg k = true → Unrivalled s w pg off →
                    writeWord s w pg off v = noteRanked s w pg off [] (wrStaged s pg off v)) ∧
                  (mayManage s w pg k = false → writeWord s w pg off v = refuseWrite s w pg off))) ∧
              (r.acc = .w1c → writeWord s w pg off v = wr s pg off (rd s pg off &&& ~~~v)))))))

/-- A refused write (R294): the device page names its page and offset and its writer, counts it, and the page's error bit is set; memory and
every other part of the state but the register pages and the interrupts raised are as before. -/
def Obligations.RefusedWriteRecorded : Prop :=
  ∀ (s : State) (w : Agent) (pg off : Nat), pg < 16384 → 2 ≤ pg % 8192 → off < 4096 → isTable (pageKind (pg / 8192) (pg % 8192)).1 = false →
    let t := refuseWrite s w pg off
    let dp := devPage s (pg / 8192) 0
    (rd t dp REFUSED_PAGE).toNat = pg % 8192 + 2 ^ 13 * (pg / 8192) + 2 ^ 14 * off ∧
    rd t dp REFUSED_INFO = BitVec.ofNat 32 (w.ty % 65536 + 65536 * w.inst) ∧
    (rd t dp REFUSED_COUNT).toNat = Nat.min 0xFFFFFFFF ((rd s dp REFUSED_COUNT).toNat + 1) ∧
    (rd t pg BLK_ERR).toNat % 2 = 1 ∧ OnlyRegs s t

/-- Commits and profiles (R17, R259, R260, R264, R268, R295 to R299): a write of `BLK_COMMIT` takes a snapshot of the page, which becomes live as one
change; a profile commit of the next generation exchanges the copies of every die the page serves, with the buckets settled first where their
filling changes; once the old copies have drained, each takes its live one; the floor of a target is taken, and so is the headframe's throttle, where it has no
rival in the same SCLK cycle. -/
def Obligations.Commits : Prop :=
  ∀ (s : State) (die : Die),
    let d := die.val
    (∀ w (page : BitVec 13) (g : W32), isSafe s d = false → 2 ≤ page.toNat → hasOwnRws (pageKind d page.toNat).1 = true → g.toNat < 2 ^ 16 →
      exec (.blkCommit w die page g) s = .next (takeSnapshot s d page.toNat g)) ∧
    (∀ (page : BitVec 13) c, s.commits.find? (fun c => c.die = die ∧ c.page = page.toNat) = some c → mayApply s (gpage d page.toNat) = true →
      exec (.commitApplied die page) s = .next (applyCommit s c)) ∧
    (∀ w (g : W32), isSafe s d = false → g.toNat = (genLive s d + 1) % 65536 → oldDrained s d = true →
      let refills (e : Nat) : Bool := decide (stagedTime s e SHARES ≠ profReg (router s e).live e SHARES) ||
        decide (stagedTime s e WINDOW_NS ≠ profReg (router s e).live e WINDOW_NS)
      let flipped : State := { (deviceDies s d).foldl (fun (t : State) e =>
          setRouter (if refills e then settleBuckets t e else t) e { router t e with
            live := { (router t e).other with gen := g.toNat }, other := (router t e).live }) s with
        undrained := deviceDies s d ++ s.undrained }
      exec (.profileCommit w die g) s = .next (setIrq (wr (if (deviceDies s d).contains 0 then rootCommitted s flipped else flipped)
        (devPage s d 0) BLK_COMMIT g) (devPage s d 0) 4)) ∧
    (s.undrained.contains d = true → s.copying.contains d = false → oldGone s (deviceDies s d) = true →
      exec (.profileCopyStart die) s = .next { s with copying := deviceDies s d ++ s.copying }) ∧
    (s.copying.contains d = true → ∃ t, exec (.profileCopyDone die) s = .next t ∧
      (∀ e < 2, router t e = if e ∈ deviceDies s d then
        { router s e with other := { (router s e).live with gen := (router s e).other.gen } } else router s e) ∧
      t = { s with
        routers := t.routers, undrained := s.undrained.filter (fun e => !(deviceDies s d).contains e)
        copying := s.copying.filter (fun e => !(deviceDies s d).contains e) }) ∧
    (∀ w (v : W32), isSafe s d = false →
      (v.toNat < 2 ^ 17 → fld v 16 15 ≠ 3 → exec (.floorTargetWrite w die v) s = .next (wr (wr s (pgTime d) FLOOR_TARGET v) (pgTime d) FLOOR_NS
        (BitVec.ofNat 32 ((routeFloor s d (fld v 14 0) (fld v 16 15)).getD 0xFFFFFFFF)))) ∧
      (w = acting s d → v.toNat < 2 ^ 16 → (∀ i < 8, bitsOf v.toNat (2 * i + 1) (2 * i) ≠ 3) → Unrivalled s w (pgTime d) THROTTLE →
        exec (.throttleWrite w die v) s = .next (noteRanked s w (pgTime d) THROTTLE [] (wr s (pgTime d) THROTTLE v))))

/-- Power and reset (R367 to R369, R344, R372): with the input between 40 V and 60 V PWR_GOOD is released; a low pulse of 10 µs or more resets, one
below 1 µs does not; RESET_N is released once PWR_GOOD has stood for 100 µs, an earlier release, one before PWR_GOOD too, when it has; the banks
are zeroed; a loss of PWR_GOOD resets; a thermal trip is latched whatever the state and removes power. -/
def Obligations.PowerAndReset : Prop :=
  ∀ (s : State),
    let p := s.power
    (p.pwrGood = false → p.tripOff = false → 40000 ≤ p.inputMv → p.inputMv ≤ 60000 → ∃ t, exec .powerUp s = .next t ∧
      t.power = { p with pwrGood := true, pwrGoodAt := some (elapsed s), busAt := elapsed s + 1000000 } ∧ t.mem = s.mem ∧ t.regs = s.regs) ∧
    (∀ ns, ns < 1000 → exec (.reset (.lowPulse ns)) s = .next s) ∧
    (∀ ns, 10000 ≤ ns → exec (.reset (.lowPulse ns)) s = .next (resetState s)) ∧
    exec (.reset .powerLoss) s = .next (powerLost s) ∧
    (p.pwrGood = false → powerLost s = s) ∧
    (p.pwrGood = true → (powerLost s).power = { Power.reset with
        pwrGood := false, busAt := p.busAt, earlyRelease := p.earlyRelease || !p.inReset, trip := p.trip, tripOff := p.tripOff, inputMv := p.inputMv } ∧
      (powerLost s).boot = { Boot.reset with up := s.boot.up } ∧ (powerLost s).pins = { Pins.reset with levels := s.pins.levels } ∧
      (powerLost s).regs = []) ∧
    (p.inReset = true →
      (p.pwrGood = true → tooEarly s = false → exec .resetRelease s = .next (release s)) ∧
      (p.pwrGood = false ∨ tooEarly s = true → exec .resetRelease s = .next { s with power := { p with earlyRelease := true } }) ∧
      (p.pwrGood = true → tooEarly s = false → p.earlyRelease = true → exec .resetHoldEnd s = .next (release s))) ∧
    (s.boot.released = true → s.boot.zeroed = false → exec .bankZeroingDone s = .next { s with
      mem := s.mem.filter (fun c => aSpace c.1 ≠ 1), ue := s.ue.filter (fun w => aSpace w ≠ 1), boot := { s.boot with zeroed := true } }) ∧
    exec .thermtrip s = .next (emit { powerLost s with
      power := { (powerLost s).power with trip := true, tripOff := decide (36000 ≤ (powerLost s).power.inputMv) } } .thermtrip)

/-- What a reset keeps and what a release starts (R139, R158, R223, R306, R356, R369): the MRAM halves and the fuses stay, every register and stope is
at reset, the banks are not zeroed and every stack is closed; a byte of space 1 reads 0 once the banks have been zeroed, and one of a stack once the
stack has; the released device counts one more reset in each half, which is its incarnation, and its time base starts at 0. -/
def Obligations.ResetKeepsMramAndFuses : Prop :=
  ∀ (s : State),
    let t := resetState s
    let n (d : Nat) : W32 := (history s d).resets + 1
    (t.security.floors = s.security.floors ∧ t.security.revoked = s.security.revoked ∧ t.pending = s.pending ∧
      (∀ d : Die, (history s d).sealing = false → history t d = history s d)) ∧
    (t.regs = State.reset.regs ∧ t.stopes = State.reset.stopes ∧ t.domains = State.reset.domains ∧ t.boot = { Boot.reset with up := s.boot.up } ∧
      t.layers = State.reset.layers ∧ t.ports = State.reset.ports ∧ t.banks = State.reset.banks ∧ t.channels = State.reset.channels ∧
      t.boot.zeroed = false ∧ ∀ k : Fin 8, (stack t k).open_ = false) ∧
    (s.boot.released = true → s.boot.zeroed = false → ∃ u, exec .bankZeroingDone s = .next u ∧ u.boot.zeroed = true ∧
      ∀ a, aSpace a = 1 → readByte u a = 0) ∧
    (∀ k : Fin 8, domain s (domStack k) = 2 → (stack s k).open_ = false → ∃ u, exec (.stackZeroingDone k) s = .next u ∧ (stack u k).open_ = true ∧
      ∀ a, aSpace a = 0 → stackOf (aDie a) (aOff a) = k → readByte u a = 0) ∧
    ((release s).boot = { s.boot with released := true, up := 0 } ∧ now (release s) 0 = 0 ∧ now (release s) 1 = 0 ∧
      (release s).history = (setHistory (setHistory s 0 { history s 0 with resets := n 0 }) 1 { history s 1 with resets := n 1 }).history ∧
      (release s).layers = (setLayer (setLayer s 0 { RemoteLayer.reset with incarn := n 0 }) 1 { RemoteLayer.reset with incarn := n 1 }).layers)

/-- Bring-up (R306 to R309, R318, R22, R18): the self-test starts the bridge; a trained bridge is up; without it in 5 ms bring-up fails; accepted images
of the headframe and the foremen advance the step, others are counted and make the device safe; the standby takes over after three
missed heartbeats or none in 10 ms; a lost foreman's pillar banks are recalled. -/
def Obligations.BringUp : Prop :=
  ∀ (s : State), booting s = true →
    (s.boot.zeroed = true → s.security.selfTest = false → historySealed (recordTrip s) = false → exec (.securitySelfTestDone true) s =
      .next { recordTrip s with
        security := { (recordTrip s).security with selfTest := true }, bridge := { (recordTrip s).bridge with st := 1 } }) ∧
    (s.bridge.st = 1 → exec .bridgeTrained s = .next { s with bridge := { st := 2, retrainAt := none } }) ∧
    (s.bridge.st < 2 → s.bridge.retrainAt = none → (service s 0).state = 0 → 5000000 ≤ elapsed s →
      exec .bridgeTrainingTimeout s = .next (bridgeFailsEarly s)) ∧
    (∀ image, s.bridge.st = 2 → s.security.hf = none → s.boot.step = 0 → exec (.headframeImageVerified image) s =
      .next (if imageAccepted s imHEADFRAME image then { s with
          security := { s.security with hf := some (imageOf image) }
          boot := { s.boot with hf0 := ⟨1, false⟩, hf1 := ⟨2, false⟩, step1At := elapsed s, lastBeat := none, step := 1 } }
        else bootFail (countReject s) 2 4 false)) ∧
    (∀ image, 1 ≤ s.boot.step → s.security.fm = none → ∃ t,
      exec (.foremanImageVerified image) s = .next (if imageAccepted s imFOREMAN image then bootProgress (powerDomains (setStep t 2))
        else bootFail (countReject s) 3 4 false) ∧
      t.security.fm = some (imageOf image) ∧ t.mem = s.mem ∧ t.boot = s.boot ∧ t.regs = s.regs) ∧
    (s.security.selfTest = true → exec .pcieLinkTrained s = .next { s with host := { s.host with linkUp := true } }) ∧
    (s.boot.hf1.role = 2 →
      (s.boot.hf0.role = 1 → exec .headframeHeartbeat s = .next { s with boot := { s.boot with lastBeat := some (elapsed s) } }) ∧
      (∀ t0, s.boot.lastBeat = some t0 → t0 + 300000 ≤ elapsed s → exec .headframeTakeover s =
        .next (report (standbyActs s) ⟨0, ⟨btHeadframe, 0⟩, 7, .count, 0, none⟩)) ∧
      (s.boot.lastBeat = none → s.boot.step1At + 10000000 ≤ elapsed s → exec .firstHeartbeatTimeout s =
        .next (report (standbyActs s) ⟨0, ⟨btHeadframe, 0⟩, 7, .count, 0, none⟩))) ∧
    (∀ f : Fin 8, (foreman s f).st = 1 →
      let u := report (setForeman s f { foreman s f with st := 2 }) ⟨f.val / 4, ⟨btForeman, f⟩, 8, .count, 0, none⟩
      isSafe u (f.val / 4) = false → exec (.foremanLost f) s = .next (recallAll u (quadPillars f)))

/-- The muster and joining (R310 to R317): a node ID and its profile, held since before the SCLK cycle, stay whatever a step does but reset; a good frame gives its node number to a device without one and goes on with the next; a bad frame or a gap is
counted; a written assignment takes its node with the profile written, and in the safe state is refused; an assignment comes
before a frame of its SCLK cycle, which then goes on unchanged, and takes a profile written in its cycle; after 10 s without a node the muster
expires at the end of the SCLK cycle, where no node is held then; a joined device whose
time is agreed is ready; peers that disagree for 1 s make it safe. -/
def Obligations.MusterAndJoin : Prop :=
  (∀ s t : State, NoReset s → step s = .next t → s.boot.assigned = true → s.boot.cycleFrame = none → s.boot.cycleAssign = false →
    t.boot.assigned = true ∧ t.boot.node = s.boot.node ∧ t.boot.profile = s.boot.profile) ∧
  ∀ (s : State), s.boot.released = true →
    (∀ bs : List Byte, bs.length = 64 →
      let nn := leAt bs 4 2 % 2 ^ 15
      (musterOk bs = false → exec (.musterFrame bs) s =
        .next { s with boot := { s.boot with crcErr := Nat.min 255 (s.boot.crcErr + 1) } }) ∧
      (musterOk bs = true → isSafe s 0 = false → musterExpired s = false → s.boot.assigned = false → nn < 16384 →
        ∃ t, exec (.musterFrame bs) s = .next (nodeTaken t) ∧ t.boot.node = nn ∧ t.boot.assigned = true ∧ t.boot.profile = sliceB bs 8 48 ∧
          t.out = (emit s (forwardMuster bs (nn + 1) (Nat.min 65535 (leAt bs 6 2 + 1)))).out ∧ t.regs = s.regs)) ∧
    exec .chainFrameGap s = .next { s with boot := { s.boot with crcErr := Nat.min 255 (s.boot.crcErr + 1) } } ∧
    (∀ w (v : W32), isSafe s 0 = false → v.toNat < 2 ^ 14 → s.boot.assigned = false → musterExpired s = false → s.boot.cycleFrame = none →
      exec (.assign w v) s = .next (nodeTaken { s with boot :=
        { s.boot with node := v.toNat, assigned := true, byHost := true, profile := profileIn s, cycleAssign := true } })) ∧
    (∀ w (v : W32), isSafe s 0 = true → exec (.assign w v) s = .next (recordRefused s w (pgHeadframe 0) ASSIGN)) ∧
    (∀ w (v : W32) bs ov, isSafe s 0 = false → v.toNat < 2 ^ 14 → musterExpired s = false → s.boot.cycleFrame = some (bs, ov) →
      ∃ t, exec (.assign w v) s = .next (nodeTaken t) ∧ t.boot.node = v.toNat ∧ t.boot.byHost = true ∧ t.boot.overflow = ov ∧
        t.boot.profile = profileIn s ∧
        t.out = chainInstead (forwardMuster bs (leAt bs 4 2 % 2 ^ 15) (leAt bs 6 2)) s.out) ∧
    (∀ off (v : W32), s.boot.cycleAssign = true → ∃ t, profileInWrite s off v = nodeTaken t ∧
      t.boot.profile = profileIn (wr s (pgHeadframe 0) off v)) ∧
    (s.boot.assigned = false → 10000000000 ≤ s.boot.up → exec .musterExpiry s = .next { s with boot := { s.boot with expiring := true } }) ∧
    (s.boot.expiring = true → s.boot.endCycle.expired = (s.boot.expired || !s.boot.assigned)) ∧
    ((service s 0).state = 1 → s.boot.step = 4 → (timeBlk s 0).st = 1 → (timeBlk s 1).st = 1 →
      exec .deviceReady s = .next (event (setStep (setDevState (handBanks s) 2) 5) (devPage s 0 0))) ∧
    (∀ t0, s.boot.disagree = some t0 → t0 + 1000000000 ≤ elapsed s → disagreeing s = true → (service s 0).state = 1 ∨ (service s 0).state = 2 →
      exec .peerDisagreementTimeout s = .next (enterSafe s 0 3 false))

/-- Pins and the I3C target (R320, R374, R376, R379): a write of pin functions is taken and parks the pins that change for eight cycles; edges are
counted, captured and posted; an address is given once, and private transfers write and read the control pages. -/
def Obligations.PinsAndI3c : Prop :=
  ∀ (s : State),
    (∀ w (v : W32), s.boot.released = true → isSafe s 0 = false → 1 ≤ s.boot.step → s.pins.parks = [] →
      (∀ i < 8, pinAllows i (bitsOf v.toNat (4 * i + 3) (4 * i)) = true) → ∃ t, exec (.pinFuncWrite w false v) s = .next t ∧
        rd t (pgHeadframe 0) PIN_FUNC_LO = v ∧ (∀ n < 8, bitsOf (parked t) n n = if pinFunc t n = pinFunc s n then 0 else 1) ∧
        t = { s with regs := t.regs, pins := t.pins }) ∧
    (isSafe s 0 = false → exec .pinParkEnd s =
      .next { s with pins := { s.pins with parks := s.pins.parks.filter (fun p => decide (elapsed s < p.2 + 32)) } }) ∧
    (s.boot.released = true →
      (∀ fan : Fin 4, pinHas s (4 + fan) 4 = true → exec (.tachometerEdge fan) s =
        .next { s with pins := { s.pins with edges := Sparse.upd 0 s.pins.edges fan (fun n => n + 1) } }) ∧
      (∀ c : Fin 8, pinHas s (8 + c) 5 = true → exec (.captureEdge c) s = .next { s with pins := { s.pins with
        captures := Sparse.upd Capture.reset s.pins.captures c (fun x => x.edge (now s 0) (elapsed s)) } }) ∧
      (booting s = true → 1 ≤ s.boot.step →
        (s.pins.noticeAt + 1000000000 ≤ elapsed s → (postNotice s 17 0xF3 (speeds s)).2 = some sOK → exec .tachometerNotice s =
          .next { (postNotice s 17 0xF3 (speeds s)).1 with
            pins := { (postNotice s 17 0xF3 (speeds s)).1.pins with edges := [], noticeAt := elapsed s } }) ∧
        (∀ (c : Fin 8) t0 rest, (Sparse.get Capture.reset s.pins.captures c).held = t0 :: rest →
          let x := Sparse.get Capture.reset s.pins.captures c
          let r := postNotice s 17 0xF2 (toLE 8 t0 ++ toLE 1 c ++ toLE 1 x.lost)
          r.2 = some sOK → exec (.captureNotice c) s = .next { r.1 with pins := { r.1.pins with
            captures := Sparse.set Capture.reset r.1.pins.captures c { x with held := rest, lost := 0 } } }))) ∧
    (∀ bus : Fin 2, i3cActive s bus = true →
      (∀ a : BitVec 7, (i3c s bus).dyn = none → exec (.entdaa bus a) s =
        .next (emit (setI3c s bus { i3c s bus with dyn := some a.toNat }) (.i3cAddress bus provisionalId))) ∧
      ((i3c s bus).dyn ≠ none →
        (∀ bs : List Byte, bs.length = 8 → leAt bs 0 4 < 2 ^ 26 → leAt bs 0 4 / 2 ^ 14 % 4 = 0 →
          let a := leAt bs 0 4
          let pg := gpage (a / 2 ^ 13 % 2) (a % 2 ^ 13)
          let s1 := setI3c s bus { i3c s bus with page := a % 2 ^ 13, die := a / 2 ^ 13 % 2, off := a / 2 ^ 14 % 2 ^ 12 }
          s1.boot.released = true → aborted s1 pg true = false → exec (.i3cPrivateWrite bus bs) s =
            .next (writePage s1 ⟨btHost, 0⟩ pg (a / 2 ^ 14 % 2 ^ 12) (bs.drop 4)).1) ∧
        (s.boot.released = true → aborted s (gpage (i3c s bus).die (i3c s bus).page) false = false → exec (.i3cPrivateRead bus) s =
          .next (let r := readSpan s (gpage (i3c s bus).die (i3c s bus).page) (i3c s bus).off 4
            emit (setI3c r.1 bus { i3c s bus with off := ((i3c s bus).off + 4) % 4096 }) (.i3cRead bus r.2)))))

/-- Power domains and operating points (R17, R19, R322 to R327): the command of the foreman or of the acting headframe, where it has no rival in the
same SCLK cycle, is queued; a domain that has powered up is on,
its waiting commits applied; one that is quiet loses its power; a change of point waits for the operations accepted before a lowering,
switches, and ends. -/
def Obligations.DomainsAndPoints : Prop :=
  ∀ (s : State),
    (∀ w (f : Fin 8) i, isSafe s (f.val / 4) = false →
      w = acting s (f.val / 4) ∨ (w = ⟨btForeman, f.val⟩ ∧ foremanFailed s f = false) → i < 12 →
      domain s (localDomain f i) ≠ 1 → domain s (localDomain f i) ≠ 3 → Unrivalled s w (pgForeman f) DOM_CMD →
      let done (u : State) : Host.Outcome State Fault Refusal := .next (noteRanked s w (pgForeman f) DOM_CMD (domainUndo s f) u)
      exec (.domainOn w f i) s = done (requestDomain s (localDomain f i) true) ∧
      exec (.domainOff w f i) s = done (requestDomain s (localDomain f i) false)) ∧
    (∀ n : Fin 96,
      (domain s n = 1 → n.val < 64 → exec (.domainPoweredUp n) s =
        .next (takeChanges (applyWaiting (setDomain s n 2) n) (domainOwner n))) ∧
      (domain s n = 1 → 64 ≤ n.val → n.val < 72 → exec (.domainPoweredUp n) s =
        .next (takeChanges (applyWaiting (stackOn (setDomain s n 2) (n.val - 64)) n) (domainOwner n))) ∧
      (domain s n = 1 → 72 ≤ n.val → exec (.domainPoweredUp n) s =
        .next (takeChanges (applyWaiting (portPowered (setDomain s n 2) (n.val - 72)) n) (domainOwner n))) ∧
      (domain s n = 3 → domainQuiet s n = true → exec (.domainPowerRemoved n) s =
        .next (takeChanges (if n.val < 64 then halfOff s n else partOff s n) (domainOwner n)))) ∧
    (∀ (die : Die) p,
      let v := dvfs s die
      v.target = some p →
      (v.switched = false → (∀ o ∈ longOps s die, ¬ o ∈ v.waitOps) →
        exec (.dvfsClockSwitch die) s = .next (setDvfs s die { v with switched := true, waitOps := [] })) ∧
      (v.switched = true → exec (.dvfsChangeEnd die) s =
        .next (setDvfs s die { point := p, target := none, switched := false, waitOps := [] })))

/-- Samples (R328 to R332, R367, R372, Table 17-8): a rail or the input out of bounds for ten samples makes the dies safe that it
feeds, once the reset is released, and an input below 36 V or above 63 V is a loss of PWR_GOOD; the module's mean power
sets and clears the cap; a junction at 95, 102 or 110 °C is at step 1, 2 or 3, the last of which makes the device safe, and one that enters step 1
from none is counted; 1 ms of samples below 92 °C leaves every step but the third, and 1 ms below 98 °C the second for the first. -/
def Obligations.Samples : Prop :=
  ∀ (s : State),
    (∀ (r : Rail) inB, s.power.pwrGood = true →
      let n := if inB then 0 else Sparse.get 0 s.power.railOut (railNum r) + 1
      let s1 := { s with power := { s.power with
        railOut := Sparse.set 0 s.power.railOut (railNum r) n, railBad := Sparse.set false s.power.railBad (railNum r) (!inB) } }
      (n < 10 → exec (.railSample r inB) s = .next s1) ∧
      (10 < n → (railDies r).all (isSafe s) = true → exec (.railSample r inB) s = .next s1) ∧
      (n = 10 ∨ (10 < n ∧ (railDies r).all (isSafe s) = false) → s.boot.released = true → exec (.railSample r inB) s =
        .next (railFails s1 (railDies r) (railUnit r).1 (railUnit r).2 (railRow r))) ∧
      (s.boot.released = false → exec (.railSample r inB) s = .next s1)) ∧
    (∀ mv,
      let p := s.power
      let n := p.inputOut + 1
      let s1 := { s with power := { p with inputMv := mv, inputOut := n, tripOff := p.tripOff && decide (36000 ≤ mv) } }
      (mv < 36000 ∨ 63000 < mv → exec (.inputSample mv) s = .next (powerLost s1)) ∧
      (36000 ≤ mv → mv ≤ 63000 → mv < 40000 ∨ 60000 < mv →
        (n < 10 ∨ (10 < n ∧ isSafe s 0 = true ∧ isSafe s 1 = true) ∨ s.boot.released = false ∨ p.pwrGood = false →
          exec (.inputSample mv) s = .next s1) ∧
        (n = 10 ∨ (10 < n ∧ (isSafe s 0 = false ∨ isSafe s 1 = false)) → s.boot.released = true → p.pwrGood = true →
          exec (.inputSample mv) s = .next (railFails s1 [0, 1] 0 ⟨btDie, 0⟩ 0xFF)))) ∧
    (∀ mv, 40000 ≤ mv → mv ≤ 60000 → exec (.inputSample mv) s = .next { s with power := { s.power with inputMv := mv, inputOut := 0 } }) ∧
    (∀ w, s.power.pwrGood = true → (s.power.capped = true ∨ w ≤ 2400) → exec (.powerMonitorReport w) s =
      .next { s with power := { s.power with meanW := w, capped := s.power.capped && decide (2300 ≤ w) } }) ∧
    (∀ w, s.power.pwrGood = true → s.power.capped = false → 2400 < w → exec (.powerMonitorReport w) s =
      .next (bump { s with power := { s.power with meanW := w, capped := true } } (pgDie 0) CAP_EVENTS 1)) ∧
    (∀ (h : Fin 64) (c : Byte),
      let x := halfLevel s h
      let t := elapsed s
      let from_ (held : Bool) (old : Option Ns) : Option Ns := if held then some (old.getD t) else none
      let x1 := { x with temp := c.toNat, lt92 := from_ (decide (c.toNat < 92)) x.lt92, lt98 := from_ (decide (c.toNat < 98)) x.lt98 }
      let step (k : Nat) : State := setHalfLevel s h { x1 with step := k }
      (s.boot.released = true → x.step = 0 → c.toNat < 95 → exec (.junctionSample h c) s = .next (step 0)) ∧
      (s.boot.released = true → x.step = 0 → 95 ≤ c.toNat → c.toNat < 102 → exec (.junctionSample h c) s =
        .next (bump (step 1) (pgForeman (quadOf (256 * (h.val / 32) + 16 * (h.val % 32 / 2) + 8 * (h.val % 2)))) THERM_EVENTS 1)) ∧
      (∀ t0, s.boot.released = true → x.step = 1 ∨ x.step = 2 → c.toNat < 92 → x.lt92 = some t0 → t0 + 1000000 ≤ t →
        exec (.junctionSample h c) s = .next (step 0)) ∧
      (∀ t0, s.boot.released = true → x.step = 2 → c.toNat < 98 → x.lt98 = some t0 → t0 + 1000000 ≤ t →
        92 ≤ c.toNat ∨ (∀ t1, x.lt92 = some t1 → t < t1 + 1000000) → exec (.junctionSample h c) s = .next (step 1)) ∧
      (s.boot.released = true → x.step = 1 → 95 ≤ c.toNat → c.toNat < 102 → exec (.junctionSample h c) s = .next (step 1)) ∧
      (s.boot.released = true → x.step = 1 → 102 ≤ c.toNat → c.toNat < 110 → exec (.junctionSample h c) s =
        .next (bump (step 2) (pgDie (h.val / 32)) THROTTLES 1)) ∧
      (s.boot.released = true → x.step = 2 → 110 ≤ c.toNat → isSafe (step 3) (h.val / 32) = false → exec (.junctionSample h c) s =
        .next (dieFail (report (step 3) ⟨h.val / 32, ⟨btDie, h.val / 32⟩, 0x0C, .never, c.toNat, none⟩) (h.val / 32) 7 5 false)))

/-- Faults, the drain and the bridge (R344, R347, R349, R350, R352): a lost lock is recorded and judged; the powered seconds go to MRAM; at the end of
its window a drain fails what is outstanding and seals, and the sealed device is safe with reason 0x01; a bridge that loses lock or
makes no progress retrains, and fails after 100 µs. -/
def Obligations.FaultsAndDrain : Prop :=
  ∀ (s : State) (die : Die),
    let d := die.val
    (∀ pll, s.boot.released = true → exec (.pllLockLoss die pll) s = .next (report s ⟨d, ⟨btDie, d⟩, 9, .count, pllDetail pll, none⟩)) ∧
    exec (.poweredSecondWrite die) s = .next (setHistory s d { history s d with mramPowered := (history s d).powered }) ∧
    (∀ t0, (service s d).drainEnd = some t0 → draining s d = true → (service s d).drained = false → t0 ≤ elapsed s →
      exec (.drainWindowEnd die) s = .next ((deviceDies s d).foldl
        (fun (t : State) e => setHistory (setService t e { service t e with drained := true }) e { history t e with sealing := true })
        (failHomes (failAll s (deviceDies s d) rDrained) (deviceDies s d)))) ∧
    ((history s d).sealing = true → (service s d).drained = true → exec (.historySealDone die) s = .next (enterSafe s d 1 true)) ∧
    (s.boot.released = true → s.bridge.st = 2 →
      exec .bridgeLockLoss s = .next (bridgeFails s) ∧
      exec .bridgeProgressTimeout s = .next (bump (bump { s with bridge := { st := 1, retrainAt := some (elapsed s) } } (pgBridge 0) BR_REPLAYS 1)
        (pgBridge 1) BR_REPLAYS 1)) ∧
    (∀ t0, s.bridge.retrainAt = some t0 → t0 + 100000 ≤ elapsed s → exec .bridgeRetrainTimeout s = .next (bridgeFails s))

/-- The safe state (R350 to R352): a step of a command that resets nothing keeps it, with its reason, on every die that is safe, and keeps the dies
safe together but in split mode. Every die that it concerns enters it with the reason, or with reason 0x01 where a drain was under way; die 0 holds
no key and no key-wrapping key then; and entering it again changes nothing. -/
def Obligations.SafeIsFinal : Prop :=
  (∀ s t : State, SafeTogether s → NoReset s → step s = .next t →
    SafeTogether t ∧ ∀ d : Die, isSafe s d = true → isSafe t d = true ∧ (service t d).reason = (service s d).reason) ∧
  (∀ (s : State) (d reason : Nat) (replace : Bool),
    let t := enterSafe s d reason replace
    (isSafe s d = true → t = s) ∧
    (isSafe s d = false → ∀ e ∈ deviceDies s d, isSafe t e = true ∧
      (service t e).reason = (if anyDrain s (deviceDies s d) = true then 1 else reason) ∧
      (e = 0 → t.security.keys = [] ∧ t.security.kek = none)))

/-- Tensor keys, version floors and revocation (R356, R358): no step, not even a reset, lowers a floor or takes a revocation back; the host or the acting headframe installs a wrapped key where a key-wrapping key stands and
the pair is new, and retires one generation or all; the acting headframe raises a floor to its image's version, or the stope floor to the
value written, and revokes a root key that is neither the last nor the headframe image's. -/
def Obligations.KeysAndFloors : Prop :=
  (∀ s t : State, step s = .next t →
    (∀ i < 3, s.security.floors.getD i 0 ≤ t.security.floors.getD i 0) ∧ (∀ k ∈ s.security.revoked, k ∈ t.security.revoked)) ∧
  ∀ (s : State) (w : Agent), isSafe s 0 = false →
    let x := s.security
    let with_ (r : Nat) (ks : List TensorKey) : State := { s with security := { x with keyResult := r, keys := ks } }
    let floors (l : List Nat) : State := { s with security := { x with floors := l } }
    (mayKey s w = true →
      (x.kek = none → exec (.keyInstall w) s = .next (with_ sDENIED x.keys)) ∧
      (∀ kek, x.kek = some kek → pairHeld s = false → generations s < 2 → x.keys.length < 2048 → keyEpoch s ≠ 0 →
        exec (.keyInstall w) s = .next (match Crypto.keyUnwrap kek (sliceB (keyIn s) 8 72) with
          | some key => with_ sOK (x.keys ++ [⟨keyTensor s, keyEpoch s, key⟩])
          | none => with_ sPOISONED x.keys)) ∧
      (pairHeld s = true → exec (.keyRetireOne w) s = .next (with_ sOK
        (x.keys.filter (fun k => !(decide (k.tensor = keyTensor s) && decide (k.epoch = keyEpoch s)))))) ∧
      exec (.keyRetireAll w) s = .next (with_ sOK (x.keys.filter (fun k => decide (k.tensor ≠ keyTensor s))))) ∧
    (w = acting s 0 →
      let f (i : Nat) : Nat := x.floors.getD i 0
      exec (.svnRaiseHeadframe w) s = .next (floors [raised (f 0) x.hf, f 1, f 2]) ∧
      exec (.svnRaiseForeman w) s = .next (floors [f 0, raised (f 1) x.fm, f 2]) ∧
      (∀ v : Byte, v.toNat ≤ 64 → f 2 ≤ v.toNat → exec (.svnRaiseStope w v) s = .next (floors [f 0, f 1, v.toNat])) ∧
      (∀ k : Fin 4, ¬ k.val ∈ x.revoked → x.revoked.length < 3 → (∀ i, x.hf = some i → i.slot ≠ k.val) →
        exec (.revoke w k) s = .next { s with security := { x with revoked := k.val :: x.revoked } }))

/-- The host's SPDM requests (R363): a trained and idle device answers each in the session named, and keeps what the exchange has established; what
answers FINISH, HEARTBEAT and END_SESSION is a record of its session (log entry 68). -/
def Obligations.SpdmAnswers : Prop :=
  ∀ (s : State) (m : List Byte) (n : Nat), s.boot.released = true → s.host.linkUp = true → isSafe s 0 = false → verifying s = false →
    let gives (i : Instr) (ver code id : Nat) : Prop :=
      let r := respond s s.free id s.security.spdm (toLE 1 ver ++ toLE 1 code ++ m)
      exec i s = .next (emit { s with
        free := s.free + 2
        security := { s.security with spdm := r.1, kek := kekAfter s.security.kek s.security.spdm r.1 } } (.spdm (hostRecord s.security.spdm code id r.2)))
    gives (.getVersion m) 0x10 0x84 0 ∧ gives (.getCapabilities m) 0x12 0xE1 0 ∧ gives (.negotiateAlgorithms m) 0x12 0xE3 0 ∧
    gives (.getDigests m) 0x12 0x81 0 ∧ gives (.getCertificate m) 0x12 0x82 0 ∧ gives (.challenge m) 0x12 0x83 0 ∧
    gives (.getMeasurements m) 0x12 0xE0 0 ∧ gives (.keyExchange m) 0x12 0xE4 0 ∧ gives (.finish n m) 0x12 0xE5 n ∧
    gives (.heartbeat n m) 0x12 0xE8 n ∧ gives (.endSession n m) 0x12 0xEC n

/-- What reset leaves (R305, R306, R322, R374): every register of the register file at its reset value, no memory listed, every domain off, every stope
empty, both dies in quarantine at bring-up step 0 without a node ID, every pin at function 0, and no command waiting. The reset values that
the spec does not give are the model's (log entries 3 and 5). -/
def Obligations.ResetState : Prop :=
  let s := State.reset
  (∀ pg off, rd s pg off = regReset pg off) ∧ (∀ a, readByte s a = 0) ∧ (∀ n, domain s n = 0) ∧
  (∀ n, (stope s n).prog = .empty ∧ (stope s n).sreg 0 = 0 ∧ (stope s n).queue = []) ∧
  (∀ d, (service s d).state = 0 ∧ (timeBlk s d).isSet = false) ∧ (∀ p, (port s p).queue = [] ∧ (port s p).keys = none) ∧
  (∀ n < 16, pinFunc s n = 0) ∧ s.boot.step = 0 ∧ s.boot.assigned = false ∧ s.split = false ∧ s.host.enabled = false ∧ s.pending = []

/-- Memory has its canonical form at reset. -/
def Obligations.MemoryResetCanonical : Prop := State.reset.canonical

/-- Every step keeps memory's canonical form. -/
def Obligations.MemoryStaysCanonical : Prop := ∀ s t : State, s.canonical → step s = .next t → t.canonical

/-- A stope's words and the commands they are (Tables 06-1 and 06-3): every word is the word of the command it decodes to; a legal word's command
decodes back, with every field at every value; a word that R115 makes illegal is RESERVED_OPCODE. -/
def Obligations.StopeWordRoundTrip : Prop :=
  (∀ (st : Fin 512) (w : W64), encodeStope (decodeStope st w) = some (st, w)) ∧
  (∀ (i : Instr) (st : Fin 512) (w : W64), encodeStope i = some (st, w) → wordIllegal w = false → (∀ v, i ≠ .reservedOpcode st v) →
    decodeStope st w = i) ∧
  (∀ (st : Fin 512) (w : W64), wordIllegal w = true → decodeStope st w = .reservedOpcode st w)

/-- A message is what its bytes spell (Table 11-1): every field of the header at every value, and the data that its type carries, whatever padding
follows; a completion or a FILL carries data only under OK, and one with a reserved status or reason is malformed (log entry 137). -/
def Obligations.MessageRoundTrip : Prop :=
  ∀ m : Msg, opcKnown m.opc.toNat = true → m.kind.toNat < 6 →
    let answers : Prop := m.opc = 8 ∨ m.opc = 0x11
    let known : Prop := m.sub.toNat < 8 ∧ (m.sub.toNat = sFAILED → 0 < m.reason.toNat ∧ m.reason.toNat < 8)
    let came : Msg := { m with entered := true, due := none }
    (answers → ¬ known → ∀ pad, parseMsg (msgBytes m ++ pad) = none) ∧
    ((answers → known) →
      (m.data = [] → parseMsg (msgBytes m) = some came) ∧
      (opcData m.opc.toNat = true → (answers → m.sub = 0) → m.data.length = m.lenM1.toNat + 1 → ∀ pad, parseMsg (msgBytes m ++ pad) = some came) ∧
      (opcData m.opc.toNat = false ∨ (answers ∧ m.sub ≠ 0) → m.data = [] → ∀ pad, parseMsg (msgBytes m ++ pad) = some came))
end

