-- ==== Sys2Proof/Laws/State.lean ====
section
/-!
SUPPORT. What each named update of the state leaves of its fields: every field but its own.
-/

namespace Sys2Proof.Machine

section
variable (s : State) (n : Nat) (x : Stope)
@[simp] theorem setStope_regs : (setStope s n x).regs = s.regs := rfl
@[simp] theorem setStope_staged : (setStope s n x).staged = s.staged := rfl
@[simp] theorem setStope_commits : (setStope s n x).commits = s.commits := rfl
@[simp] theorem setStope_mem : (setStope s n x).mem = s.mem := rfl
@[simp] theorem setStope_ue : (setStope s n x).ue = s.ue := rfl
@[simp] theorem setStope_banks : (setStope s n x).banks = s.banks := rfl
@[simp] theorem setStope_stackTab : (setStope s n x).stackTab = s.stackTab := rfl
@[simp] theorem setStope_engines : (setStope s n x).engines = s.engines := rfl
@[simp] theorem setStope_channels : (setStope s n x).channels = s.channels := rfl
@[simp] theorem setStope_layers : (setStope s n x).layers = s.layers := rfl
@[simp] theorem setStope_routers : (setStope s n x).routers = s.routers := rfl
@[simp] theorem setStope_ports : (setStope s n x).ports = s.ports := rfl
@[simp] theorem setStope_times : (setStope s n x).times = s.times := rfl
@[simp] theorem setStope_buckets : (setStope s n x).buckets = s.buckets := rfl
@[simp] theorem setStope_host : (setStope s n x).host = s.host := rfl
@[simp] theorem setStope_mailboxes : (setStope s n x).mailboxes = s.mailboxes := rfl
@[simp] theorem setStope_history : (setStope s n x).history = s.history := rfl
@[simp] theorem setStope_security : (setStope s n x).security = s.security := rfl
@[simp] theorem setStope_boot : (setStope s n x).boot = s.boot := rfl
@[simp] theorem setStope_foremen : (setStope s n x).foremen = s.foremen := rfl
@[simp] theorem setStope_domains : (setStope s n x).domains = s.domains := rfl
@[simp] theorem setStope_halfLevels : (setStope s n x).halfLevels = s.halfLevels := rfl
@[simp] theorem setStope_dvfs : (setStope s n x).dvfs = s.dvfs := rfl
@[simp] theorem setStope_power : (setStope s n x).power = s.power := rfl
@[simp] theorem setStope_pins : (setStope s n x).pins = s.pins := rfl
@[simp] theorem setStope_bridge : (setStope s n x).bridge = s.bridge := rfl
@[simp] theorem setStope_service : (setStope s n x).service = s.service := rfl
@[simp] theorem setStope_split : (setStope s n x).split = s.split := rfl
@[simp] theorem setStope_faulty : (setStope s n x).faulty = s.faulty := rfl
@[simp] theorem setStope_canaries : (setStope s n x).canaries = s.canaries := rfl
@[simp] theorem setStope_undrained : (setStope s n x).undrained = s.undrained := rfl
@[simp] theorem setStope_copying : (setStope s n x).copying = s.copying := rfl
@[simp] theorem setStope_sclk : (setStope s n x).sclk = s.sclk := rfl
@[simp] theorem setStope_ranked : (setStope s n x).ranked = s.ranked := rfl
@[simp] theorem setStope_irqs : (setStope s n x).irqs = s.irqs := rfl
@[simp] theorem setStope_nextOp : (setStope s n x).nextOp = s.nextOp := rfl
@[simp] theorem setStope_free : (setStope s n x).free = s.free := rfl
@[simp] theorem setStope_out : (setStope s n x).out = s.out := rfl
@[simp] theorem setStope_pending : (setStope s n x).pending = s.pending := rfl
end

section
variable (s : State) (n : Nat) (x : Bank)
@[simp] theorem setBank_regs : (setBank s n x).regs = s.regs := rfl
@[simp] theorem setBank_staged : (setBank s n x).staged = s.staged := rfl
@[simp] theorem setBank_commits : (setBank s n x).commits = s.commits := rfl
@[simp] theorem setBank_mem : (setBank s n x).mem = s.mem := rfl
@[simp] theorem setBank_ue : (setBank s n x).ue = s.ue := rfl
@[simp] theorem setBank_stopes : (setBank s n x).stopes = s.stopes := rfl
@[simp] theorem setBank_stackTab : (setBank s n x).stackTab = s.stackTab := rfl
@[simp] theorem setBank_engines : (setBank s n x).engines = s.engines := rfl
@[simp] theorem setBank_channels : (setBank s n x).channels = s.channels := rfl
@[simp] theorem setBank_layers : (setBank s n x).layers = s.layers := rfl
@[simp] theorem setBank_routers : (setBank s n x).routers = s.routers := rfl
@[simp] theorem setBank_ports : (setBank s n x).ports = s.ports := rfl
@[simp] theorem setBank_times : (setBank s n x).times = s.times := rfl
@[simp] theorem setBank_buckets : (setBank s n x).buckets = s.buckets := rfl
@[simp] theorem setBank_host : (setBank s n x).host = s.host := rfl
@[simp] theorem setBank_mailboxes : (setBank s n x).mailboxes = s.mailboxes := rfl
@[simp] theorem setBank_history : (setBank s n x).history = s.history := rfl
@[simp] theorem setBank_security : (setBank s n x).security = s.security := rfl
@[simp] theorem setBank_boot : (setBank s n x).boot = s.boot := rfl
@[simp] theorem setBank_foremen : (setBank s n x).foremen = s.foremen := rfl
@[simp] theorem setBank_domains : (setBank s n x).domains = s.domains := rfl
@[simp] theorem setBank_halfLevels : (setBank s n x).halfLevels = s.halfLevels := rfl
@[simp] theorem setBank_dvfs : (setBank s n x).dvfs = s.dvfs := rfl
@[simp] theorem setBank_power : (setBank s n x).power = s.power := rfl
@[simp] theorem setBank_pins : (setBank s n x).pins = s.pins := rfl
@[simp] theorem setBank_bridge : (setBank s n x).bridge = s.bridge := rfl
@[simp] theorem setBank_service : (setBank s n x).service = s.service := rfl
@[simp] theorem setBank_split : (setBank s n x).split = s.split := rfl
@[simp] theorem setBank_faulty : (setBank s n x).faulty = s.faulty := rfl
@[simp] theorem setBank_canaries : (setBank s n x).canaries = s.canaries := rfl
@[simp] theorem setBank_undrained : (setBank s n x).undrained = s.undrained := rfl
@[simp] theorem setBank_copying : (setBank s n x).copying = s.copying := rfl
@[simp] theorem setBank_sclk : (setBank s n x).sclk = s.sclk := rfl
@[simp] theorem setBank_ranked : (setBank s n x).ranked = s.ranked := rfl
@[simp] theorem setBank_irqs : (setBank s n x).irqs = s.irqs := rfl
@[simp] theorem setBank_nextOp : (setBank s n x).nextOp = s.nextOp := rfl
@[simp] theorem setBank_free : (setBank s n x).free = s.free := rfl
@[simp] theorem setBank_out : (setBank s n x).out = s.out := rfl
@[simp] theorem setBank_pending : (setBank s n x).pending = s.pending := rfl
end

section
variable (s : State) (n : Nat) (x : Stack)
@[simp] theorem setStack_regs : (setStack s n x).regs = s.regs := rfl
@[simp] theorem setStack_staged : (setStack s n x).staged = s.staged := rfl
@[simp] theorem setStack_commits : (setStack s n x).commits = s.commits := rfl
@[simp] theorem setStack_mem : (setStack s n x).mem = s.mem := rfl
@[simp] theorem setStack_ue : (setStack s n x).ue = s.ue := rfl
@[simp] theorem setStack_stopes : (setStack s n x).stopes = s.stopes := rfl
@[simp] theorem setStack_banks : (setStack s n x).banks = s.banks := rfl
@[simp] theorem setStack_engines : (setStack s n x).engines = s.engines := rfl
@[simp] theorem setStack_channels : (setStack s n x).channels = s.channels := rfl
@[simp] theorem setStack_layers : (setStack s n x).layers = s.layers := rfl
@[simp] theorem setStack_routers : (setStack s n x).routers = s.routers := rfl
@[simp] theorem setStack_ports : (setStack s n x).ports = s.ports := rfl
@[simp] theorem setStack_times : (setStack s n x).times = s.times := rfl
@[simp] theorem setStack_buckets : (setStack s n x).buckets = s.buckets := rfl
@[simp] theorem setStack_host : (setStack s n x).host = s.host := rfl
@[simp] theorem setStack_mailboxes : (setStack s n x).mailboxes = s.mailboxes := rfl
@[simp] theorem setStack_history : (setStack s n x).history = s.history := rfl
@[simp] theorem setStack_security : (setStack s n x).security = s.security := rfl
@[simp] theorem setStack_boot : (setStack s n x).boot = s.boot := rfl
@[simp] theorem setStack_foremen : (setStack s n x).foremen = s.foremen := rfl
@[simp] theorem setStack_domains : (setStack s n x).domains = s.domains := rfl
@[simp] theorem setStack_halfLevels : (setStack s n x).halfLevels = s.halfLevels := rfl
@[simp] theorem setStack_dvfs : (setStack s n x).dvfs = s.dvfs := rfl
@[simp] theorem setStack_power : (setStack s n x).power = s.power := rfl
@[simp] theorem setStack_pins : (setStack s n x).pins = s.pins := rfl
@[simp] theorem setStack_bridge : (setStack s n x).bridge = s.bridge := rfl
@[simp] theorem setStack_service : (setStack s n x).service = s.service := rfl
@[simp] theorem setStack_split : (setStack s n x).split = s.split := rfl
@[simp] theorem setStack_faulty : (setStack s n x).faulty = s.faulty := rfl
@[simp] theorem setStack_canaries : (setStack s n x).canaries = s.canaries := rfl
@[simp] theorem setStack_undrained : (setStack s n x).undrained = s.undrained := rfl
@[simp] theorem setStack_copying : (setStack s n x).copying = s.copying := rfl
@[simp] theorem setStack_sclk : (setStack s n x).sclk = s.sclk := rfl
@[simp] theorem setStack_ranked : (setStack s n x).ranked = s.ranked := rfl
@[simp] theorem setStack_irqs : (setStack s n x).irqs = s.irqs := rfl
@[simp] theorem setStack_nextOp : (setStack s n x).nextOp = s.nextOp := rfl
@[simp] theorem setStack_free : (setStack s n x).free = s.free := rfl
@[simp] theorem setStack_out : (setStack s n x).out = s.out := rfl
@[simp] theorem setStack_pending : (setStack s n x).pending = s.pending := rfl
end

section
variable (s : State) (n : Nat) (x : Engine)
@[simp] theorem setEngine_regs : (setEngine s n x).regs = s.regs := rfl
@[simp] theorem setEngine_staged : (setEngine s n x).staged = s.staged := rfl
@[simp] theorem setEngine_commits : (setEngine s n x).commits = s.commits := rfl
@[simp] theorem setEngine_mem : (setEngine s n x).mem = s.mem := rfl
@[simp] theorem setEngine_ue : (setEngine s n x).ue = s.ue := rfl
@[simp] theorem setEngine_stopes : (setEngine s n x).stopes = s.stopes := rfl
@[simp] theorem setEngine_banks : (setEngine s n x).banks = s.banks := rfl
@[simp] theorem setEngine_stackTab : (setEngine s n x).stackTab = s.stackTab := rfl
@[simp] theorem setEngine_channels : (setEngine s n x).channels = s.channels := rfl
@[simp] theorem setEngine_layers : (setEngine s n x).layers = s.layers := rfl
@[simp] theorem setEngine_routers : (setEngine s n x).routers = s.routers := rfl
@[simp] theorem setEngine_ports : (setEngine s n x).ports = s.ports := rfl
@[simp] theorem setEngine_times : (setEngine s n x).times = s.times := rfl
@[simp] theorem setEngine_buckets : (setEngine s n x).buckets = s.buckets := rfl
@[simp] theorem setEngine_host : (setEngine s n x).host = s.host := rfl
@[simp] theorem setEngine_mailboxes : (setEngine s n x).mailboxes = s.mailboxes := rfl
@[simp] theorem setEngine_history : (setEngine s n x).history = s.history := rfl
@[simp] theorem setEngine_security : (setEngine s n x).security = s.security := rfl
@[simp] theorem setEngine_boot : (setEngine s n x).boot = s.boot := rfl
@[simp] theorem setEngine_foremen : (setEngine s n x).foremen = s.foremen := rfl
@[simp] theorem setEngine_domains : (setEngine s n x).domains = s.domains := rfl
@[simp] theorem setEngine_halfLevels : (setEngine s n x).halfLevels = s.halfLevels := rfl
@[simp] theorem setEngine_dvfs : (setEngine s n x).dvfs = s.dvfs := rfl
@[simp] theorem setEngine_power : (setEngine s n x).power = s.power := rfl
@[simp] theorem setEngine_pins : (setEngine s n x).pins = s.pins := rfl
@[simp] theorem setEngine_bridge : (setEngine s n x).bridge = s.bridge := rfl
@[simp] theorem setEngine_service : (setEngine s n x).service = s.service := rfl
@[simp] theorem setEngine_split : (setEngine s n x).split = s.split := rfl
@[simp] theorem setEngine_faulty : (setEngine s n x).faulty = s.faulty := rfl
@[simp] theorem setEngine_canaries : (setEngine s n x).canaries = s.canaries := rfl
@[simp] theorem setEngine_undrained : (setEngine s n x).undrained = s.undrained := rfl
@[simp] theorem setEngine_copying : (setEngine s n x).copying = s.copying := rfl
@[simp] theorem setEngine_sclk : (setEngine s n x).sclk = s.sclk := rfl
@[simp] theorem setEngine_ranked : (setEngine s n x).ranked = s.ranked := rfl
@[simp] theorem setEngine_irqs : (setEngine s n x).irqs = s.irqs := rfl
@[simp] theorem setEngine_nextOp : (setEngine s n x).nextOp = s.nextOp := rfl
@[simp] theorem setEngine_free : (setEngine s n x).free = s.free := rfl
@[simp] theorem setEngine_out : (setEngine s n x).out = s.out := rfl
@[simp] theorem setEngine_pending : (setEngine s n x).pending = s.pending := rfl
end

section
variable (s : State) (n : Nat) (x : Channel)
@[simp] theorem setChannel_regs : (setChannel s n x).regs = s.regs := rfl
@[simp] theorem setChannel_staged : (setChannel s n x).staged = s.staged := rfl
@[simp] theorem setChannel_commits : (setChannel s n x).commits = s.commits := rfl
@[simp] theorem setChannel_mem : (setChannel s n x).mem = s.mem := rfl
@[simp] theorem setChannel_ue : (setChannel s n x).ue = s.ue := rfl
@[simp] theorem setChannel_stopes : (setChannel s n x).stopes = s.stopes := rfl
@[simp] theorem setChannel_banks : (setChannel s n x).banks = s.banks := rfl
@[simp] theorem setChannel_stackTab : (setChannel s n x).stackTab = s.stackTab := rfl
@[simp] theorem setChannel_engines : (setChannel s n x).engines = s.engines := rfl
@[simp] theorem setChannel_layers : (setChannel s n x).layers = s.layers := rfl
@[simp] theorem setChannel_routers : (setChannel s n x).routers = s.routers := rfl
@[simp] theorem setChannel_ports : (setChannel s n x).ports = s.ports := rfl
@[simp] theorem setChannel_times : (setChannel s n x).times = s.times := rfl
@[simp] theorem setChannel_buckets : (setChannel s n x).buckets = s.buckets := rfl
@[simp] theorem setChannel_host : (setChannel s n x).host = s.host := rfl
@[simp] theorem setChannel_mailboxes : (setChannel s n x).mailboxes = s.mailboxes := rfl
@[simp] theorem setChannel_history : (setChannel s n x).history = s.history := rfl
@[simp] theorem setChannel_security : (setChannel s n x).security = s.security := rfl
@[simp] theorem setChannel_boot : (setChannel s n x).boot = s.boot := rfl
@[simp] theorem setChannel_foremen : (setChannel s n x).foremen = s.foremen := rfl
@[simp] theorem setChannel_domains : (setChannel s n x).domains = s.domains := rfl
@[simp] theorem setChannel_halfLevels : (setChannel s n x).halfLevels = s.halfLevels := rfl
@[simp] theorem setChannel_dvfs : (setChannel s n x).dvfs = s.dvfs := rfl
@[simp] theorem setChannel_power : (setChannel s n x).power = s.power := rfl
@[simp] theorem setChannel_pins : (setChannel s n x).pins = s.pins := rfl
@[simp] theorem setChannel_bridge : (setChannel s n x).bridge = s.bridge := rfl
@[simp] theorem setChannel_service : (setChannel s n x).service = s.service := rfl
@[simp] theorem setChannel_split : (setChannel s n x).split = s.split := rfl
@[simp] theorem setChannel_faulty : (setChannel s n x).faulty = s.faulty := rfl
@[simp] theorem setChannel_canaries : (setChannel s n x).canaries = s.canaries := rfl
@[simp] theorem setChannel_undrained : (setChannel s n x).undrained = s.undrained := rfl
@[simp] theorem setChannel_copying : (setChannel s n x).copying = s.copying := rfl
@[simp] theorem setChannel_sclk : (setChannel s n x).sclk = s.sclk := rfl
@[simp] theorem setChannel_ranked : (setChannel s n x).ranked = s.ranked := rfl
@[simp] theorem setChannel_irqs : (setChannel s n x).irqs = s.irqs := rfl
@[simp] theorem setChannel_nextOp : (setChannel s n x).nextOp = s.nextOp := rfl
@[simp] theorem setChannel_free : (setChannel s n x).free = s.free := rfl
@[simp] theorem setChannel_out : (setChannel s n x).out = s.out := rfl
@[simp] theorem setChannel_pending : (setChannel s n x).pending = s.pending := rfl
end

section
variable (s : State) (n : Nat) (x : RemoteLayer)
@[simp] theorem setLayer_regs : (setLayer s n x).regs = s.regs := rfl
@[simp] theorem setLayer_staged : (setLayer s n x).staged = s.staged := rfl
@[simp] theorem setLayer_commits : (setLayer s n x).commits = s.commits := rfl
@[simp] theorem setLayer_mem : (setLayer s n x).mem = s.mem := rfl
@[simp] theorem setLayer_ue : (setLayer s n x).ue = s.ue := rfl
@[simp] theorem setLayer_stopes : (setLayer s n x).stopes = s.stopes := rfl
@[simp] theorem setLayer_banks : (setLayer s n x).banks = s.banks := rfl
@[simp] theorem setLayer_stackTab : (setLayer s n x).stackTab = s.stackTab := rfl
@[simp] theorem setLayer_engines : (setLayer s n x).engines = s.engines := rfl
@[simp] theorem setLayer_channels : (setLayer s n x).channels = s.channels := rfl
@[simp] theorem setLayer_routers : (setLayer s n x).routers = s.routers := rfl
@[simp] theorem setLayer_ports : (setLayer s n x).ports = s.ports := rfl
@[simp] theorem setLayer_times : (setLayer s n x).times = s.times := rfl
@[simp] theorem setLayer_buckets : (setLayer s n x).buckets = s.buckets := rfl
@[simp] theorem setLayer_host : (setLayer s n x).host = s.host := rfl
@[simp] theorem setLayer_mailboxes : (setLayer s n x).mailboxes = s.mailboxes := rfl
@[simp] theorem setLayer_history : (setLayer s n x).history = s.history := rfl
@[simp] theorem setLayer_security : (setLayer s n x).security = s.security := rfl
@[simp] theorem setLayer_boot : (setLayer s n x).boot = s.boot := rfl
@[simp] theorem setLayer_foremen : (setLayer s n x).foremen = s.foremen := rfl
@[simp] theorem setLayer_domains : (setLayer s n x).domains = s.domains := rfl
@[simp] theorem setLayer_halfLevels : (setLayer s n x).halfLevels = s.halfLevels := rfl
@[simp] theorem setLayer_dvfs : (setLayer s n x).dvfs = s.dvfs := rfl
@[simp] theorem setLayer_power : (setLayer s n x).power = s.power := rfl
@[simp] theorem setLayer_pins : (setLayer s n x).pins = s.pins := rfl
@[simp] theorem setLayer_bridge : (setLayer s n x).bridge = s.bridge := rfl
@[simp] theorem setLayer_service : (setLayer s n x).service = s.service := rfl
@[simp] theorem setLayer_split : (setLayer s n x).split = s.split := rfl
@[simp] theorem setLayer_faulty : (setLayer s n x).faulty = s.faulty := rfl
@[simp] theorem setLayer_canaries : (setLayer s n x).canaries = s.canaries := rfl
@[simp] theorem setLayer_undrained : (setLayer s n x).undrained = s.undrained := rfl
@[simp] theorem setLayer_copying : (setLayer s n x).copying = s.copying := rfl
@[simp] theorem setLayer_sclk : (setLayer s n x).sclk = s.sclk := rfl
@[simp] theorem setLayer_ranked : (setLayer s n x).ranked = s.ranked := rfl
@[simp] theorem setLayer_irqs : (setLayer s n x).irqs = s.irqs := rfl
@[simp] theorem setLayer_nextOp : (setLayer s n x).nextOp = s.nextOp := rfl
@[simp] theorem setLayer_free : (setLayer s n x).free = s.free := rfl
@[simp] theorem setLayer_out : (setLayer s n x).out = s.out := rfl
@[simp] theorem setLayer_pending : (setLayer s n x).pending = s.pending := rfl
end

section
variable (s : State) (n : Nat) (x : Router)
@[simp] theorem setRouter_regs : (setRouter s n x).regs = s.regs := rfl
@[simp] theorem setRouter_staged : (setRouter s n x).staged = s.staged := rfl
@[simp] theorem setRouter_commits : (setRouter s n x).commits = s.commits := rfl
@[simp] theorem setRouter_mem : (setRouter s n x).mem = s.mem := rfl
@[simp] theorem setRouter_ue : (setRouter s n x).ue = s.ue := rfl
@[simp] theorem setRouter_stopes : (setRouter s n x).stopes = s.stopes := rfl
@[simp] theorem setRouter_banks : (setRouter s n x).banks = s.banks := rfl
@[simp] theorem setRouter_stackTab : (setRouter s n x).stackTab = s.stackTab := rfl
@[simp] theorem setRouter_engines : (setRouter s n x).engines = s.engines := rfl
@[simp] theorem setRouter_channels : (setRouter s n x).channels = s.channels := rfl
@[simp] theorem setRouter_layers : (setRouter s n x).layers = s.layers := rfl
@[simp] theorem setRouter_ports : (setRouter s n x).ports = s.ports := rfl
@[simp] theorem setRouter_times : (setRouter s n x).times = s.times := rfl
@[simp] theorem setRouter_buckets : (setRouter s n x).buckets = s.buckets := rfl
@[simp] theorem setRouter_host : (setRouter s n x).host = s.host := rfl
@[simp] theorem setRouter_mailboxes : (setRouter s n x).mailboxes = s.mailboxes := rfl
@[simp] theorem setRouter_history : (setRouter s n x).history = s.history := rfl
@[simp] theorem setRouter_security : (setRouter s n x).security = s.security := rfl
@[simp] theorem setRouter_boot : (setRouter s n x).boot = s.boot := rfl
@[simp] theorem setRouter_foremen : (setRouter s n x).foremen = s.foremen := rfl
@[simp] theorem setRouter_domains : (setRouter s n x).domains = s.domains := rfl
@[simp] theorem setRouter_halfLevels : (setRouter s n x).halfLevels = s.halfLevels := rfl
@[simp] theorem setRouter_dvfs : (setRouter s n x).dvfs = s.dvfs := rfl
@[simp] theorem setRouter_power : (setRouter s n x).power = s.power := rfl
@[simp] theorem setRouter_pins : (setRouter s n x).pins = s.pins := rfl
@[simp] theorem setRouter_bridge : (setRouter s n x).bridge = s.bridge := rfl
@[simp] theorem setRouter_service : (setRouter s n x).service = s.service := rfl
@[simp] theorem setRouter_split : (setRouter s n x).split = s.split := rfl
@[simp] theorem setRouter_faulty : (setRouter s n x).faulty = s.faulty := rfl
@[simp] theorem setRouter_canaries : (setRouter s n x).canaries = s.canaries := rfl
@[simp] theorem setRouter_undrained : (setRouter s n x).undrained = s.undrained := rfl
@[simp] theorem setRouter_copying : (setRouter s n x).copying = s.copying := rfl
@[simp] theorem setRouter_sclk : (setRouter s n x).sclk = s.sclk := rfl
@[simp] theorem setRouter_ranked : (setRouter s n x).ranked = s.ranked := rfl
@[simp] theorem setRouter_irqs : (setRouter s n x).irqs = s.irqs := rfl
@[simp] theorem setRouter_nextOp : (setRouter s n x).nextOp = s.nextOp := rfl
@[simp] theorem setRouter_free : (setRouter s n x).free = s.free := rfl
@[simp] theorem setRouter_out : (setRouter s n x).out = s.out := rfl
@[simp] theorem setRouter_pending : (setRouter s n x).pending = s.pending := rfl
end

section
variable (s : State) (n : Nat) (x : Port)
@[simp] theorem setPort_regs : (setPort s n x).regs = s.regs := rfl
@[simp] theorem setPort_staged : (setPort s n x).staged = s.staged := rfl
@[simp] theorem setPort_commits : (setPort s n x).commits = s.commits := rfl
@[simp] theorem setPort_mem : (setPort s n x).mem = s.mem := rfl
@[simp] theorem setPort_ue : (setPort s n x).ue = s.ue := rfl
@[simp] theorem setPort_stopes : (setPort s n x).stopes = s.stopes := rfl
@[simp] theorem setPort_banks : (setPort s n x).banks = s.banks := rfl
@[simp] theorem setPort_stackTab : (setPort s n x).stackTab = s.stackTab := rfl
@[simp] theorem setPort_engines : (setPort s n x).engines = s.engines := rfl
@[simp] theorem setPort_channels : (setPort s n x).channels = s.channels := rfl
@[simp] theorem setPort_layers : (setPort s n x).layers = s.layers := rfl
@[simp] theorem setPort_routers : (setPort s n x).routers = s.routers := rfl
@[simp] theorem setPort_times : (setPort s n x).times = s.times := rfl
@[simp] theorem setPort_buckets : (setPort s n x).buckets = s.buckets := rfl
@[simp] theorem setPort_host : (setPort s n x).host = s.host := rfl
@[simp] theorem setPort_mailboxes : (setPort s n x).mailboxes = s.mailboxes := rfl
@[simp] theorem setPort_history : (setPort s n x).history = s.history := rfl
@[simp] theorem setPort_security : (setPort s n x).security = s.security := rfl
@[simp] theorem setPort_boot : (setPort s n x).boot = s.boot := rfl
@[simp] theorem setPort_foremen : (setPort s n x).foremen = s.foremen := rfl
@[simp] theorem setPort_domains : (setPort s n x).domains = s.domains := rfl
@[simp] theorem setPort_halfLevels : (setPort s n x).halfLevels = s.halfLevels := rfl
@[simp] theorem setPort_dvfs : (setPort s n x).dvfs = s.dvfs := rfl
@[simp] theorem setPort_power : (setPort s n x).power = s.power := rfl
@[simp] theorem setPort_pins : (setPort s n x).pins = s.pins := rfl
@[simp] theorem setPort_bridge : (setPort s n x).bridge = s.bridge := rfl
@[simp] theorem setPort_service : (setPort s n x).service = s.service := rfl
@[simp] theorem setPort_split : (setPort s n x).split = s.split := rfl
@[simp] theorem setPort_faulty : (setPort s n x).faulty = s.faulty := rfl
@[simp] theorem setPort_canaries : (setPort s n x).canaries = s.canaries := rfl
@[simp] theorem setPort_undrained : (setPort s n x).undrained = s.undrained := rfl
@[simp] theorem setPort_copying : (setPort s n x).copying = s.copying := rfl
@[simp] theorem setPort_sclk : (setPort s n x).sclk = s.sclk := rfl
@[simp] theorem setPort_ranked : (setPort s n x).ranked = s.ranked := rfl
@[simp] theorem setPort_irqs : (setPort s n x).irqs = s.irqs := rfl
@[simp] theorem setPort_nextOp : (setPort s n x).nextOp = s.nextOp := rfl
@[simp] theorem setPort_free : (setPort s n x).free = s.free := rfl
@[simp] theorem setPort_out : (setPort s n x).out = s.out := rfl
@[simp] theorem setPort_pending : (setPort s n x).pending = s.pending := rfl
end

section
variable (s : State) (n : Nat) (x : TimeBlk)
@[simp] theorem setTime_regs : (setTime s n x).regs = s.regs := rfl
@[simp] theorem setTime_staged : (setTime s n x).staged = s.staged := rfl
@[simp] theorem setTime_commits : (setTime s n x).commits = s.commits := rfl
@[simp] theorem setTime_mem : (setTime s n x).mem = s.mem := rfl
@[simp] theorem setTime_ue : (setTime s n x).ue = s.ue := rfl
@[simp] theorem setTime_stopes : (setTime s n x).stopes = s.stopes := rfl
@[simp] theorem setTime_banks : (setTime s n x).banks = s.banks := rfl
@[simp] theorem setTime_stackTab : (setTime s n x).stackTab = s.stackTab := rfl
@[simp] theorem setTime_engines : (setTime s n x).engines = s.engines := rfl
@[simp] theorem setTime_channels : (setTime s n x).channels = s.channels := rfl
@[simp] theorem setTime_layers : (setTime s n x).layers = s.layers := rfl
@[simp] theorem setTime_routers : (setTime s n x).routers = s.routers := rfl
@[simp] theorem setTime_ports : (setTime s n x).ports = s.ports := rfl
@[simp] theorem setTime_buckets : (setTime s n x).buckets = s.buckets := rfl
@[simp] theorem setTime_host : (setTime s n x).host = s.host := rfl
@[simp] theorem setTime_mailboxes : (setTime s n x).mailboxes = s.mailboxes := rfl
@[simp] theorem setTime_history : (setTime s n x).history = s.history := rfl
@[simp] theorem setTime_security : (setTime s n x).security = s.security := rfl
@[simp] theorem setTime_boot : (setTime s n x).boot = s.boot := rfl
@[simp] theorem setTime_foremen : (setTime s n x).foremen = s.foremen := rfl
@[simp] theorem setTime_domains : (setTime s n x).domains = s.domains := rfl
@[simp] theorem setTime_halfLevels : (setTime s n x).halfLevels = s.halfLevels := rfl
@[simp] theorem setTime_dvfs : (setTime s n x).dvfs = s.dvfs := rfl
@[simp] theorem setTime_power : (setTime s n x).power = s.power := rfl
@[simp] theorem setTime_pins : (setTime s n x).pins = s.pins := rfl
@[simp] theorem setTime_bridge : (setTime s n x).bridge = s.bridge := rfl
@[simp] theorem setTime_service : (setTime s n x).service = s.service := rfl
@[simp] theorem setTime_split : (setTime s n x).split = s.split := rfl
@[simp] theorem setTime_faulty : (setTime s n x).faulty = s.faulty := rfl
@[simp] theorem setTime_canaries : (setTime s n x).canaries = s.canaries := rfl
@[simp] theorem setTime_undrained : (setTime s n x).undrained = s.undrained := rfl
@[simp] theorem setTime_copying : (setTime s n x).copying = s.copying := rfl
@[simp] theorem setTime_sclk : (setTime s n x).sclk = s.sclk := rfl
@[simp] theorem setTime_ranked : (setTime s n x).ranked = s.ranked := rfl
@[simp] theorem setTime_irqs : (setTime s n x).irqs = s.irqs := rfl
@[simp] theorem setTime_nextOp : (setTime s n x).nextOp = s.nextOp := rfl
@[simp] theorem setTime_free : (setTime s n x).free = s.free := rfl
@[simp] theorem setTime_out : (setTime s n x).out = s.out := rfl
@[simp] theorem setTime_pending : (setTime s n x).pending = s.pending := rfl
end

section
variable (s : State) (n : Nat) (x : History)
@[simp] theorem setHistory_regs : (setHistory s n x).regs = s.regs := rfl
@[simp] theorem setHistory_staged : (setHistory s n x).staged = s.staged := rfl
@[simp] theorem setHistory_commits : (setHistory s n x).commits = s.commits := rfl
@[simp] theorem setHistory_mem : (setHistory s n x).mem = s.mem := rfl
@[simp] theorem setHistory_ue : (setHistory s n x).ue = s.ue := rfl
@[simp] theorem setHistory_stopes : (setHistory s n x).stopes = s.stopes := rfl
@[simp] theorem setHistory_banks : (setHistory s n x).banks = s.banks := rfl
@[simp] theorem setHistory_stackTab : (setHistory s n x).stackTab = s.stackTab := rfl
@[simp] theorem setHistory_engines : (setHistory s n x).engines = s.engines := rfl
@[simp] theorem setHistory_channels : (setHistory s n x).channels = s.channels := rfl
@[simp] theorem setHistory_layers : (setHistory s n x).layers = s.layers := rfl
@[simp] theorem setHistory_routers : (setHistory s n x).routers = s.routers := rfl
@[simp] theorem setHistory_ports : (setHistory s n x).ports = s.ports := rfl
@[simp] theorem setHistory_times : (setHistory s n x).times = s.times := rfl
@[simp] theorem setHistory_buckets : (setHistory s n x).buckets = s.buckets := rfl
@[simp] theorem setHistory_host : (setHistory s n x).host = s.host := rfl
@[simp] theorem setHistory_mailboxes : (setHistory s n x).mailboxes = s.mailboxes := rfl
@[simp] theorem setHistory_security : (setHistory s n x).security = s.security := rfl
@[simp] theorem setHistory_boot : (setHistory s n x).boot = s.boot := rfl
@[simp] theorem setHistory_foremen : (setHistory s n x).foremen = s.foremen := rfl
@[simp] theorem setHistory_domains : (setHistory s n x).domains = s.domains := rfl
@[simp] theorem setHistory_halfLevels : (setHistory s n x).halfLevels = s.halfLevels := rfl
@[simp] theorem setHistory_dvfs : (setHistory s n x).dvfs = s.dvfs := rfl
@[simp] theorem setHistory_power : (setHistory s n x).power = s.power := rfl
@[simp] theorem setHistory_pins : (setHistory s n x).pins = s.pins := rfl
@[simp] theorem setHistory_bridge : (setHistory s n x).bridge = s.bridge := rfl
@[simp] theorem setHistory_service : (setHistory s n x).service = s.service := rfl
@[simp] theorem setHistory_split : (setHistory s n x).split = s.split := rfl
@[simp] theorem setHistory_faulty : (setHistory s n x).faulty = s.faulty := rfl
@[simp] theorem setHistory_canaries : (setHistory s n x).canaries = s.canaries := rfl
@[simp] theorem setHistory_undrained : (setHistory s n x).undrained = s.undrained := rfl
@[simp] theorem setHistory_copying : (setHistory s n x).copying = s.copying := rfl
@[simp] theorem setHistory_sclk : (setHistory s n x).sclk = s.sclk := rfl
@[simp] theorem setHistory_ranked : (setHistory s n x).ranked = s.ranked := rfl
@[simp] theorem setHistory_irqs : (setHistory s n x).irqs = s.irqs := rfl
@[simp] theorem setHistory_nextOp : (setHistory s n x).nextOp = s.nextOp := rfl
@[simp] theorem setHistory_free : (setHistory s n x).free = s.free := rfl
@[simp] theorem setHistory_out : (setHistory s n x).out = s.out := rfl
@[simp] theorem setHistory_pending : (setHistory s n x).pending = s.pending := rfl
end

section
variable (s : State) (n : Nat) (x : Foreman)
@[simp] theorem setForeman_regs : (setForeman s n x).regs = s.regs := rfl
@[simp] theorem setForeman_staged : (setForeman s n x).staged = s.staged := rfl
@[simp] theorem setForeman_commits : (setForeman s n x).commits = s.commits := rfl
@[simp] theorem setForeman_mem : (setForeman s n x).mem = s.mem := rfl
@[simp] theorem setForeman_ue : (setForeman s n x).ue = s.ue := rfl
@[simp] theorem setForeman_stopes : (setForeman s n x).stopes = s.stopes := rfl
@[simp] theorem setForeman_banks : (setForeman s n x).banks = s.banks := rfl
@[simp] theorem setForeman_stackTab : (setForeman s n x).stackTab = s.stackTab := rfl
@[simp] theorem setForeman_engines : (setForeman s n x).engines = s.engines := rfl
@[simp] theorem setForeman_channels : (setForeman s n x).channels = s.channels := rfl
@[simp] theorem setForeman_layers : (setForeman s n x).layers = s.layers := rfl
@[simp] theorem setForeman_routers : (setForeman s n x).routers = s.routers := rfl
@[simp] theorem setForeman_ports : (setForeman s n x).ports = s.ports := rfl
@[simp] theorem setForeman_times : (setForeman s n x).times = s.times := rfl
@[simp] theorem setForeman_buckets : (setForeman s n x).buckets = s.buckets := rfl
@[simp] theorem setForeman_host : (setForeman s n x).host = s.host := rfl
@[simp] theorem setForeman_mailboxes : (setForeman s n x).mailboxes = s.mailboxes := rfl
@[simp] theorem setForeman_history : (setForeman s n x).history = s.history := rfl
@[simp] theorem setForeman_security : (setForeman s n x).security = s.security := rfl
@[simp] theorem setForeman_boot : (setForeman s n x).boot = s.boot := rfl
@[simp] theorem setForeman_domains : (setForeman s n x).domains = s.domains := rfl
@[simp] theorem setForeman_halfLevels : (setForeman s n x).halfLevels = s.halfLevels := rfl
@[simp] theorem setForeman_dvfs : (setForeman s n x).dvfs = s.dvfs := rfl
@[simp] theorem setForeman_power : (setForeman s n x).power = s.power := rfl
@[simp] theorem setForeman_pins : (setForeman s n x).pins = s.pins := rfl
@[simp] theorem setForeman_bridge : (setForeman s n x).bridge = s.bridge := rfl
@[simp] theorem setForeman_service : (setForeman s n x).service = s.service := rfl
@[simp] theorem setForeman_split : (setForeman s n x).split = s.split := rfl
@[simp] theorem setForeman_faulty : (setForeman s n x).faulty = s.faulty := rfl
@[simp] theorem setForeman_canaries : (setForeman s n x).canaries = s.canaries := rfl
@[simp] theorem setForeman_undrained : (setForeman s n x).undrained = s.undrained := rfl
@[simp] theorem setForeman_copying : (setForeman s n x).copying = s.copying := rfl
@[simp] theorem setForeman_sclk : (setForeman s n x).sclk = s.sclk := rfl
@[simp] theorem setForeman_ranked : (setForeman s n x).ranked = s.ranked := rfl
@[simp] theorem setForeman_irqs : (setForeman s n x).irqs = s.irqs := rfl
@[simp] theorem setForeman_nextOp : (setForeman s n x).nextOp = s.nextOp := rfl
@[simp] theorem setForeman_free : (setForeman s n x).free = s.free := rfl
@[simp] theorem setForeman_out : (setForeman s n x).out = s.out := rfl
@[simp] theorem setForeman_pending : (setForeman s n x).pending = s.pending := rfl
end

section
variable (s : State) (n : Nat) (x : Service)
@[simp] theorem setService_regs : (setService s n x).regs = s.regs := rfl
@[simp] theorem setService_staged : (setService s n x).staged = s.staged := rfl
@[simp] theorem setService_commits : (setService s n x).commits = s.commits := rfl
@[simp] theorem setService_mem : (setService s n x).mem = s.mem := rfl
@[simp] theorem setService_ue : (setService s n x).ue = s.ue := rfl
@[simp] theorem setService_stopes : (setService s n x).stopes = s.stopes := rfl
@[simp] theorem setService_banks : (setService s n x).banks = s.banks := rfl
@[simp] theorem setService_stackTab : (setService s n x).stackTab = s.stackTab := rfl
@[simp] theorem setService_engines : (setService s n x).engines = s.engines := rfl
@[simp] theorem setService_channels : (setService s n x).channels = s.channels := rfl
@[simp] theorem setService_layers : (setService s n x).layers = s.layers := rfl
@[simp] theorem setService_routers : (setService s n x).routers = s.routers := rfl
@[simp] theorem setService_ports : (setService s n x).ports = s.ports := rfl
@[simp] theorem setService_times : (setService s n x).times = s.times := rfl
@[simp] theorem setService_buckets : (setService s n x).buckets = s.buckets := rfl
@[simp] theorem setService_host : (setService s n x).host = s.host := rfl
@[simp] theorem setService_mailboxes : (setService s n x).mailboxes = s.mailboxes := rfl
@[simp] theorem setService_history : (setService s n x).history = s.history := rfl
@[simp] theorem setService_security : (setService s n x).security = s.security := rfl
@[simp] theorem setService_boot : (setService s n x).boot = s.boot := rfl
@[simp] theorem setService_foremen : (setService s n x).foremen = s.foremen := rfl
@[simp] theorem setService_domains : (setService s n x).domains = s.domains := rfl
@[simp] theorem setService_halfLevels : (setService s n x).halfLevels = s.halfLevels := rfl
@[simp] theorem setService_dvfs : (setService s n x).dvfs = s.dvfs := rfl
@[simp] theorem setService_power : (setService s n x).power = s.power := rfl
@[simp] theorem setService_pins : (setService s n x).pins = s.pins := rfl
@[simp] theorem setService_bridge : (setService s n x).bridge = s.bridge := rfl
@[simp] theorem setService_split : (setService s n x).split = s.split := rfl
@[simp] theorem setService_faulty : (setService s n x).faulty = s.faulty := rfl
@[simp] theorem setService_canaries : (setService s n x).canaries = s.canaries := rfl
@[simp] theorem setService_undrained : (setService s n x).undrained = s.undrained := rfl
@[simp] theorem setService_copying : (setService s n x).copying = s.copying := rfl
@[simp] theorem setService_sclk : (setService s n x).sclk = s.sclk := rfl
@[simp] theorem setService_ranked : (setService s n x).ranked = s.ranked := rfl
@[simp] theorem setService_irqs : (setService s n x).irqs = s.irqs := rfl
@[simp] theorem setService_nextOp : (setService s n x).nextOp = s.nextOp := rfl
@[simp] theorem setService_free : (setService s n x).free = s.free := rfl
@[simp] theorem setService_out : (setService s n x).out = s.out := rfl
@[simp] theorem setService_pending : (setService s n x).pending = s.pending := rfl
end

section
variable (s : State) (n : Nat) (x : HalfLevel)
@[simp] theorem setHalfLevel_regs : (setHalfLevel s n x).regs = s.regs := rfl
@[simp] theorem setHalfLevel_staged : (setHalfLevel s n x).staged = s.staged := rfl
@[simp] theorem setHalfLevel_commits : (setHalfLevel s n x).commits = s.commits := rfl
@[simp] theorem setHalfLevel_mem : (setHalfLevel s n x).mem = s.mem := rfl
@[simp] theorem setHalfLevel_ue : (setHalfLevel s n x).ue = s.ue := rfl
@[simp] theorem setHalfLevel_stopes : (setHalfLevel s n x).stopes = s.stopes := rfl
@[simp] theorem setHalfLevel_banks : (setHalfLevel s n x).banks = s.banks := rfl
@[simp] theorem setHalfLevel_stackTab : (setHalfLevel s n x).stackTab = s.stackTab := rfl
@[simp] theorem setHalfLevel_engines : (setHalfLevel s n x).engines = s.engines := rfl
@[simp] theorem setHalfLevel_channels : (setHalfLevel s n x).channels = s.channels := rfl
@[simp] theorem setHalfLevel_layers : (setHalfLevel s n x).layers = s.layers := rfl
@[simp] theorem setHalfLevel_routers : (setHalfLevel s n x).routers = s.routers := rfl
@[simp] theorem setHalfLevel_ports : (setHalfLevel s n x).ports = s.ports := rfl
@[simp] theorem setHalfLevel_times : (setHalfLevel s n x).times = s.times := rfl
@[simp] theorem setHalfLevel_buckets : (setHalfLevel s n x).buckets = s.buckets := rfl
@[simp] theorem setHalfLevel_host : (setHalfLevel s n x).host = s.host := rfl
@[simp] theorem setHalfLevel_mailboxes : (setHalfLevel s n x).mailboxes = s.mailboxes := rfl
@[simp] theorem setHalfLevel_history : (setHalfLevel s n x).history = s.history := rfl
@[simp] theorem setHalfLevel_security : (setHalfLevel s n x).security = s.security := rfl
@[simp] theorem setHalfLevel_boot : (setHalfLevel s n x).boot = s.boot := rfl
@[simp] theorem setHalfLevel_foremen : (setHalfLevel s n x).foremen = s.foremen := rfl
@[simp] theorem setHalfLevel_domains : (setHalfLevel s n x).domains = s.domains := rfl
@[simp] theorem setHalfLevel_dvfs : (setHalfLevel s n x).dvfs = s.dvfs := rfl
@[simp] theorem setHalfLevel_power : (setHalfLevel s n x).power = s.power := rfl
@[simp] theorem setHalfLevel_pins : (setHalfLevel s n x).pins = s.pins := rfl
@[simp] theorem setHalfLevel_bridge : (setHalfLevel s n x).bridge = s.bridge := rfl
@[simp] theorem setHalfLevel_service : (setHalfLevel s n x).service = s.service := rfl
@[simp] theorem setHalfLevel_split : (setHalfLevel s n x).split = s.split := rfl
@[simp] theorem setHalfLevel_faulty : (setHalfLevel s n x).faulty = s.faulty := rfl
@[simp] theorem setHalfLevel_canaries : (setHalfLevel s n x).canaries = s.canaries := rfl
@[simp] theorem setHalfLevel_undrained : (setHalfLevel s n x).undrained = s.undrained := rfl
@[simp] theorem setHalfLevel_copying : (setHalfLevel s n x).copying = s.copying := rfl
@[simp] theorem setHalfLevel_sclk : (setHalfLevel s n x).sclk = s.sclk := rfl
@[simp] theorem setHalfLevel_ranked : (setHalfLevel s n x).ranked = s.ranked := rfl
@[simp] theorem setHalfLevel_irqs : (setHalfLevel s n x).irqs = s.irqs := rfl
@[simp] theorem setHalfLevel_nextOp : (setHalfLevel s n x).nextOp = s.nextOp := rfl
@[simp] theorem setHalfLevel_free : (setHalfLevel s n x).free = s.free := rfl
@[simp] theorem setHalfLevel_out : (setHalfLevel s n x).out = s.out := rfl
@[simp] theorem setHalfLevel_pending : (setHalfLevel s n x).pending = s.pending := rfl
end

section
variable (s : State) (n : Nat) (x : Dvfs)
@[simp] theorem setDvfs_regs : (setDvfs s n x).regs = s.regs := rfl
@[simp] theorem setDvfs_staged : (setDvfs s n x).staged = s.staged := rfl
@[simp] theorem setDvfs_commits : (setDvfs s n x).commits = s.commits := rfl
@[simp] theorem setDvfs_mem : (setDvfs s n x).mem = s.mem := rfl
@[simp] theorem setDvfs_ue : (setDvfs s n x).ue = s.ue := rfl
@[simp] theorem setDvfs_stopes : (setDvfs s n x).stopes = s.stopes := rfl
@[simp] theorem setDvfs_banks : (setDvfs s n x).banks = s.banks := rfl
@[simp] theorem setDvfs_stackTab : (setDvfs s n x).stackTab = s.stackTab := rfl
@[simp] theorem setDvfs_engines : (setDvfs s n x).engines = s.engines := rfl
@[simp] theorem setDvfs_channels : (setDvfs s n x).channels = s.channels := rfl
@[simp] theorem setDvfs_layers : (setDvfs s n x).layers = s.layers := rfl
@[simp] theorem setDvfs_routers : (setDvfs s n x).routers = s.routers := rfl
@[simp] theorem setDvfs_ports : (setDvfs s n x).ports = s.ports := rfl
@[simp] theorem setDvfs_times : (setDvfs s n x).times = s.times := rfl
@[simp] theorem setDvfs_buckets : (setDvfs s n x).buckets = s.buckets := rfl
@[simp] theorem setDvfs_host : (setDvfs s n x).host = s.host := rfl
@[simp] theorem setDvfs_mailboxes : (setDvfs s n x).mailboxes = s.mailboxes := rfl
@[simp] theorem setDvfs_history : (setDvfs s n x).history = s.history := rfl
@[simp] theorem setDvfs_security : (setDvfs s n x).security = s.security := rfl
@[simp] theorem setDvfs_boot : (setDvfs s n x).boot = s.boot := rfl
@[simp] theorem setDvfs_foremen : (setDvfs s n x).foremen = s.foremen := rfl
@[simp] theorem setDvfs_domains : (setDvfs s n x).domains = s.domains := rfl
@[simp] theorem setDvfs_halfLevels : (setDvfs s n x).halfLevels = s.halfLevels := rfl
@[simp] theorem setDvfs_power : (setDvfs s n x).power = s.power := rfl
@[simp] theorem setDvfs_pins : (setDvfs s n x).pins = s.pins := rfl
@[simp] theorem setDvfs_bridge : (setDvfs s n x).bridge = s.bridge := rfl
@[simp] theorem setDvfs_service : (setDvfs s n x).service = s.service := rfl
@[simp] theorem setDvfs_split : (setDvfs s n x).split = s.split := rfl
@[simp] theorem setDvfs_faulty : (setDvfs s n x).faulty = s.faulty := rfl
@[simp] theorem setDvfs_canaries : (setDvfs s n x).canaries = s.canaries := rfl
@[simp] theorem setDvfs_undrained : (setDvfs s n x).undrained = s.undrained := rfl
@[simp] theorem setDvfs_copying : (setDvfs s n x).copying = s.copying := rfl
@[simp] theorem setDvfs_sclk : (setDvfs s n x).sclk = s.sclk := rfl
@[simp] theorem setDvfs_ranked : (setDvfs s n x).ranked = s.ranked := rfl
@[simp] theorem setDvfs_irqs : (setDvfs s n x).irqs = s.irqs := rfl
@[simp] theorem setDvfs_nextOp : (setDvfs s n x).nextOp = s.nextOp := rfl
@[simp] theorem setDvfs_free : (setDvfs s n x).free = s.free := rfl
@[simp] theorem setDvfs_out : (setDvfs s n x).out = s.out := rfl
@[simp] theorem setDvfs_pending : (setDvfs s n x).pending = s.pending := rfl
end

section
variable (s : State) (n : Nat) (x : Nat)
@[simp] theorem setDomain_regs : (setDomain s n x).regs = s.regs := rfl
@[simp] theorem setDomain_staged : (setDomain s n x).staged = s.staged := rfl
@[simp] theorem setDomain_commits : (setDomain s n x).commits = s.commits := rfl
@[simp] theorem setDomain_mem : (setDomain s n x).mem = s.mem := rfl
@[simp] theorem setDomain_ue : (setDomain s n x).ue = s.ue := rfl
@[simp] theorem setDomain_stopes : (setDomain s n x).stopes = s.stopes := rfl
@[simp] theorem setDomain_banks : (setDomain s n x).banks = s.banks := rfl
@[simp] theorem setDomain_stackTab : (setDomain s n x).stackTab = s.stackTab := rfl
@[simp] theorem setDomain_engines : (setDomain s n x).engines = s.engines := rfl
@[simp] theorem setDomain_channels : (setDomain s n x).channels = s.channels := rfl
@[simp] theorem setDomain_layers : (setDomain s n x).layers = s.layers := rfl
@[simp] theorem setDomain_routers : (setDomain s n x).routers = s.routers := rfl
@[simp] theorem setDomain_ports : (setDomain s n x).ports = s.ports := rfl
@[simp] theorem setDomain_times : (setDomain s n x).times = s.times := rfl
@[simp] theorem setDomain_buckets : (setDomain s n x).buckets = s.buckets := rfl
@[simp] theorem setDomain_host : (setDomain s n x).host = s.host := rfl
@[simp] theorem setDomain_mailboxes : (setDomain s n x).mailboxes = s.mailboxes := rfl
@[simp] theorem setDomain_history : (setDomain s n x).history = s.history := rfl
@[simp] theorem setDomain_security : (setDomain s n x).security = s.security := rfl
@[simp] theorem setDomain_boot : (setDomain s n x).boot = s.boot := rfl
@[simp] theorem setDomain_foremen : (setDomain s n x).foremen = s.foremen := rfl
@[simp] theorem setDomain_halfLevels : (setDomain s n x).halfLevels = s.halfLevels := rfl
@[simp] theorem setDomain_dvfs : (setDomain s n x).dvfs = s.dvfs := rfl
@[simp] theorem setDomain_power : (setDomain s n x).power = s.power := rfl
@[simp] theorem setDomain_pins : (setDomain s n x).pins = s.pins := rfl
@[simp] theorem setDomain_bridge : (setDomain s n x).bridge = s.bridge := rfl
@[simp] theorem setDomain_service : (setDomain s n x).service = s.service := rfl
@[simp] theorem setDomain_split : (setDomain s n x).split = s.split := rfl
@[simp] theorem setDomain_faulty : (setDomain s n x).faulty = s.faulty := rfl
@[simp] theorem setDomain_canaries : (setDomain s n x).canaries = s.canaries := rfl
@[simp] theorem setDomain_undrained : (setDomain s n x).undrained = s.undrained := rfl
@[simp] theorem setDomain_copying : (setDomain s n x).copying = s.copying := rfl
@[simp] theorem setDomain_sclk : (setDomain s n x).sclk = s.sclk := rfl
@[simp] theorem setDomain_ranked : (setDomain s n x).ranked = s.ranked := rfl
@[simp] theorem setDomain_irqs : (setDomain s n x).irqs = s.irqs := rfl
@[simp] theorem setDomain_nextOp : (setDomain s n x).nextOp = s.nextOp := rfl
@[simp] theorem setDomain_free : (setDomain s n x).free = s.free := rfl
@[simp] theorem setDomain_out : (setDomain s n x).out = s.out := rfl
@[simp] theorem setDomain_pending : (setDomain s n x).pending = s.pending := rfl
end

section
variable (s : State) (n : Nat) (x : List (List Byte))
@[simp] theorem setMailbox_regs : (setMailbox s n x).regs = s.regs := rfl
@[simp] theorem setMailbox_staged : (setMailbox s n x).staged = s.staged := rfl
@[simp] theorem setMailbox_commits : (setMailbox s n x).commits = s.commits := rfl
@[simp] theorem setMailbox_mem : (setMailbox s n x).mem = s.mem := rfl
@[simp] theorem setMailbox_ue : (setMailbox s n x).ue = s.ue := rfl
@[simp] theorem setMailbox_stopes : (setMailbox s n x).stopes = s.stopes := rfl
@[simp] theorem setMailbox_banks : (setMailbox s n x).banks = s.banks := rfl
@[simp] theorem setMailbox_stackTab : (setMailbox s n x).stackTab = s.stackTab := rfl
@[simp] theorem setMailbox_engines : (setMailbox s n x).engines = s.engines := rfl
@[simp] theorem setMailbox_channels : (setMailbox s n x).channels = s.channels := rfl
@[simp] theorem setMailbox_layers : (setMailbox s n x).layers = s.layers := rfl
@[simp] theorem setMailbox_routers : (setMailbox s n x).routers = s.routers := rfl
@[simp] theorem setMailbox_ports : (setMailbox s n x).ports = s.ports := rfl
@[simp] theorem setMailbox_times : (setMailbox s n x).times = s.times := rfl
@[simp] theorem setMailbox_buckets : (setMailbox s n x).buckets = s.buckets := rfl
@[simp] theorem setMailbox_host : (setMailbox s n x).host = s.host := rfl
@[simp] theorem setMailbox_history : (setMailbox s n x).history = s.history := rfl
@[simp] theorem setMailbox_security : (setMailbox s n x).security = s.security := rfl
@[simp] theorem setMailbox_boot : (setMailbox s n x).boot = s.boot := rfl
@[simp] theorem setMailbox_foremen : (setMailbox s n x).foremen = s.foremen := rfl
@[simp] theorem setMailbox_domains : (setMailbox s n x).domains = s.domains := rfl
@[simp] theorem setMailbox_halfLevels : (setMailbox s n x).halfLevels = s.halfLevels := rfl
@[simp] theorem setMailbox_dvfs : (setMailbox s n x).dvfs = s.dvfs := rfl
@[simp] theorem setMailbox_power : (setMailbox s n x).power = s.power := rfl
@[simp] theorem setMailbox_pins : (setMailbox s n x).pins = s.pins := rfl
@[simp] theorem setMailbox_bridge : (setMailbox s n x).bridge = s.bridge := rfl
@[simp] theorem setMailbox_service : (setMailbox s n x).service = s.service := rfl
@[simp] theorem setMailbox_split : (setMailbox s n x).split = s.split := rfl
@[simp] theorem setMailbox_faulty : (setMailbox s n x).faulty = s.faulty := rfl
@[simp] theorem setMailbox_canaries : (setMailbox s n x).canaries = s.canaries := rfl
@[simp] theorem setMailbox_undrained : (setMailbox s n x).undrained = s.undrained := rfl
@[simp] theorem setMailbox_copying : (setMailbox s n x).copying = s.copying := rfl
@[simp] theorem setMailbox_sclk : (setMailbox s n x).sclk = s.sclk := rfl
@[simp] theorem setMailbox_ranked : (setMailbox s n x).ranked = s.ranked := rfl
@[simp] theorem setMailbox_irqs : (setMailbox s n x).irqs = s.irqs := rfl
@[simp] theorem setMailbox_nextOp : (setMailbox s n x).nextOp = s.nextOp := rfl
@[simp] theorem setMailbox_free : (setMailbox s n x).free = s.free := rfl
@[simp] theorem setMailbox_out : (setMailbox s n x).out = s.out := rfl
@[simp] theorem setMailbox_pending : (setMailbox s n x).pending = s.pending := rfl
end

section
variable (s : State) (pg off : Nat) (v : W32)
@[simp] theorem wr_staged : (wr s pg off v).staged = s.staged := rfl
@[simp] theorem wr_commits : (wr s pg off v).commits = s.commits := rfl
@[simp] theorem wr_mem : (wr s pg off v).mem = s.mem := rfl
@[simp] theorem wr_ue : (wr s pg off v).ue = s.ue := rfl
@[simp] theorem wr_stopes : (wr s pg off v).stopes = s.stopes := rfl
@[simp] theorem wr_banks : (wr s pg off v).banks = s.banks := rfl
@[simp] theorem wr_stackTab : (wr s pg off v).stackTab = s.stackTab := rfl
@[simp] theorem wr_engines : (wr s pg off v).engines = s.engines := rfl
@[simp] theorem wr_channels : (wr s pg off v).channels = s.channels := rfl
@[simp] theorem wr_layers : (wr s pg off v).layers = s.layers := rfl
@[simp] theorem wr_routers : (wr s pg off v).routers = s.routers := rfl
@[simp] theorem wr_ports : (wr s pg off v).ports = s.ports := rfl
@[simp] theorem wr_times : (wr s pg off v).times = s.times := rfl
@[simp] theorem wr_buckets : (wr s pg off v).buckets = s.buckets := rfl
@[simp] theorem wr_host : (wr s pg off v).host = s.host := rfl
@[simp] theorem wr_mailboxes : (wr s pg off v).mailboxes = s.mailboxes := rfl
@[simp] theorem wr_history : (wr s pg off v).history = s.history := rfl
@[simp] theorem wr_security : (wr s pg off v).security = s.security := rfl
@[simp] theorem wr_boot : (wr s pg off v).boot = s.boot := rfl
@[simp] theorem wr_foremen : (wr s pg off v).foremen = s.foremen := rfl
@[simp] theorem wr_domains : (wr s pg off v).domains = s.domains := rfl
@[simp] theorem wr_halfLevels : (wr s pg off v).halfLevels = s.halfLevels := rfl
@[simp] theorem wr_dvfs : (wr s pg off v).dvfs = s.dvfs := rfl
@[simp] theorem wr_power : (wr s pg off v).power = s.power := rfl
@[simp] theorem wr_pins : (wr s pg off v).pins = s.pins := rfl
@[simp] theorem wr_bridge : (wr s pg off v).bridge = s.bridge := rfl
@[simp] theorem wr_service : (wr s pg off v).service = s.service := rfl
@[simp] theorem wr_split : (wr s pg off v).split = s.split := rfl
@[simp] theorem wr_faulty : (wr s pg off v).faulty = s.faulty := rfl
@[simp] theorem wr_canaries : (wr s pg off v).canaries = s.canaries := rfl
@[simp] theorem wr_undrained : (wr s pg off v).undrained = s.undrained := rfl
@[simp] theorem wr_copying : (wr s pg off v).copying = s.copying := rfl
@[simp] theorem wr_sclk : (wr s pg off v).sclk = s.sclk := rfl
@[simp] theorem wr_ranked : (wr s pg off v).ranked = s.ranked := rfl
@[simp] theorem wr_irqs : (wr s pg off v).irqs = s.irqs := rfl
@[simp] theorem wr_nextOp : (wr s pg off v).nextOp = s.nextOp := rfl
@[simp] theorem wr_free : (wr s pg off v).free = s.free := rfl
@[simp] theorem wr_out : (wr s pg off v).out = s.out := rfl
@[simp] theorem wr_pending : (wr s pg off v).pending = s.pending := rfl
end

section
variable (s : State) (pg off : Nat) (v : W32)
@[simp] theorem wrStaged_regs : (wrStaged s pg off v).regs = s.regs := rfl
@[simp] theorem wrStaged_commits : (wrStaged s pg off v).commits = s.commits := rfl
@[simp] theorem wrStaged_mem : (wrStaged s pg off v).mem = s.mem := rfl
@[simp] theorem wrStaged_ue : (wrStaged s pg off v).ue = s.ue := rfl
@[simp] theorem wrStaged_stopes : (wrStaged s pg off v).stopes = s.stopes := rfl
@[simp] theorem wrStaged_banks : (wrStaged s pg off v).banks = s.banks := rfl
@[simp] theorem wrStaged_stackTab : (wrStaged s pg off v).stackTab = s.stackTab := rfl
@[simp] theorem wrStaged_engines : (wrStaged s pg off v).engines = s.engines := rfl
@[simp] theorem wrStaged_channels : (wrStaged s pg off v).channels = s.channels := rfl
@[simp] theorem wrStaged_layers : (wrStaged s pg off v).layers = s.layers := rfl
@[simp] theorem wrStaged_routers : (wrStaged s pg off v).routers = s.routers := rfl
@[simp] theorem wrStaged_ports : (wrStaged s pg off v).ports = s.ports := rfl
@[simp] theorem wrStaged_times : (wrStaged s pg off v).times = s.times := rfl
@[simp] theorem wrStaged_buckets : (wrStaged s pg off v).buckets = s.buckets := rfl
@[simp] theorem wrStaged_host : (wrStaged s pg off v).host = s.host := rfl
@[simp] theorem wrStaged_mailboxes : (wrStaged s pg off v).mailboxes = s.mailboxes := rfl
@[simp] theorem wrStaged_history : (wrStaged s pg off v).history = s.history := rfl
@[simp] theorem wrStaged_security : (wrStaged s pg off v).security = s.security := rfl
@[simp] theorem wrStaged_boot : (wrStaged s pg off v).boot = s.boot := rfl
@[simp] theorem wrStaged_foremen : (wrStaged s pg off v).foremen = s.foremen := rfl
@[simp] theorem wrStaged_domains : (wrStaged s pg off v).domains = s.domains := rfl
@[simp] theorem wrStaged_halfLevels : (wrStaged s pg off v).halfLevels = s.halfLevels := rfl
@[simp] theorem wrStaged_dvfs : (wrStaged s pg off v).dvfs = s.dvfs := rfl
@[simp] theorem wrStaged_power : (wrStaged s pg off v).power = s.power := rfl
@[simp] theorem wrStaged_pins : (wrStaged s pg off v).pins = s.pins := rfl
@[simp] theorem wrStaged_bridge : (wrStaged s pg off v).bridge = s.bridge := rfl
@[simp] theorem wrStaged_service : (wrStaged s pg off v).service = s.service := rfl
@[simp] theorem wrStaged_split : (wrStaged s pg off v).split = s.split := rfl
@[simp] theorem wrStaged_faulty : (wrStaged s pg off v).faulty = s.faulty := rfl
@[simp] theorem wrStaged_canaries : (wrStaged s pg off v).canaries = s.canaries := rfl
@[simp] theorem wrStaged_undrained : (wrStaged s pg off v).undrained = s.undrained := rfl
@[simp] theorem wrStaged_copying : (wrStaged s pg off v).copying = s.copying := rfl
@[simp] theorem wrStaged_sclk : (wrStaged s pg off v).sclk = s.sclk := rfl
@[simp] theorem wrStaged_ranked : (wrStaged s pg off v).ranked = s.ranked := rfl
@[simp] theorem wrStaged_irqs : (wrStaged s pg off v).irqs = s.irqs := rfl
@[simp] theorem wrStaged_nextOp : (wrStaged s pg off v).nextOp = s.nextOp := rfl
@[simp] theorem wrStaged_free : (wrStaged s pg off v).free = s.free := rfl
@[simp] theorem wrStaged_out : (wrStaged s pg off v).out = s.out := rfl
@[simp] theorem wrStaged_pending : (wrStaged s pg off v).pending = s.pending := rfl
end

section
variable (s : State) (a : Nat) (bs : List Byte)
@[simp] theorem writeMem_regs : (writeMem s a bs).regs = s.regs := rfl
@[simp] theorem writeMem_staged : (writeMem s a bs).staged = s.staged := rfl
@[simp] theorem writeMem_commits : (writeMem s a bs).commits = s.commits := rfl
@[simp] theorem writeMem_ue : (writeMem s a bs).ue = s.ue := rfl
@[simp] theorem writeMem_stopes : (writeMem s a bs).stopes = s.stopes := rfl
@[simp] theorem writeMem_banks : (writeMem s a bs).banks = s.banks := rfl
@[simp] theorem writeMem_stackTab : (writeMem s a bs).stackTab = s.stackTab := rfl
@[simp] theorem writeMem_engines : (writeMem s a bs).engines = s.engines := rfl
@[simp] theorem writeMem_channels : (writeMem s a bs).channels = s.channels := rfl
@[simp] theorem writeMem_layers : (writeMem s a bs).layers = s.layers := rfl
@[simp] theorem writeMem_routers : (writeMem s a bs).routers = s.routers := rfl
@[simp] theorem writeMem_ports : (writeMem s a bs).ports = s.ports := rfl
@[simp] theorem writeMem_times : (writeMem s a bs).times = s.times := rfl
@[simp] theorem writeMem_buckets : (writeMem s a bs).buckets = s.buckets := rfl
@[simp] theorem writeMem_host : (writeMem s a bs).host = s.host := rfl
@[simp] theorem writeMem_mailboxes : (writeMem s a bs).mailboxes = s.mailboxes := rfl
@[simp] theorem writeMem_history : (writeMem s a bs).history = s.history := rfl
@[simp] theorem writeMem_security : (writeMem s a bs).security = s.security := rfl
@[simp] theorem writeMem_boot : (writeMem s a bs).boot = s.boot := rfl
@[simp] theorem writeMem_foremen : (writeMem s a bs).foremen = s.foremen := rfl
@[simp] theorem writeMem_domains : (writeMem s a bs).domains = s.domains := rfl
@[simp] theorem writeMem_halfLevels : (writeMem s a bs).halfLevels = s.halfLevels := rfl
@[simp] theorem writeMem_dvfs : (writeMem s a bs).dvfs = s.dvfs := rfl
@[simp] theorem writeMem_power : (writeMem s a bs).power = s.power := rfl
@[simp] theorem writeMem_pins : (writeMem s a bs).pins = s.pins := rfl
@[simp] theorem writeMem_bridge : (writeMem s a bs).bridge = s.bridge := rfl
@[simp] theorem writeMem_service : (writeMem s a bs).service = s.service := rfl
@[simp] theorem writeMem_split : (writeMem s a bs).split = s.split := rfl
@[simp] theorem writeMem_faulty : (writeMem s a bs).faulty = s.faulty := rfl
@[simp] theorem writeMem_canaries : (writeMem s a bs).canaries = s.canaries := rfl
@[simp] theorem writeMem_undrained : (writeMem s a bs).undrained = s.undrained := rfl
@[simp] theorem writeMem_copying : (writeMem s a bs).copying = s.copying := rfl
@[simp] theorem writeMem_sclk : (writeMem s a bs).sclk = s.sclk := rfl
@[simp] theorem writeMem_ranked : (writeMem s a bs).ranked = s.ranked := rfl
@[simp] theorem writeMem_irqs : (writeMem s a bs).irqs = s.irqs := rfl
@[simp] theorem writeMem_nextOp : (writeMem s a bs).nextOp = s.nextOp := rfl
@[simp] theorem writeMem_free : (writeMem s a bs).free = s.free := rfl
@[simp] theorem writeMem_out : (writeMem s a bs).out = s.out := rfl
@[simp] theorem writeMem_pending : (writeMem s a bs).pending = s.pending := rfl
end

section
variable (s : State) (o : Output)
@[simp] theorem emit_regs : (emit s o).regs = s.regs := rfl
@[simp] theorem emit_staged : (emit s o).staged = s.staged := rfl
@[simp] theorem emit_commits : (emit s o).commits = s.commits := rfl
@[simp] theorem emit_mem : (emit s o).mem = s.mem := rfl
@[simp] theorem emit_ue : (emit s o).ue = s.ue := rfl
@[simp] theorem emit_stopes : (emit s o).stopes = s.stopes := rfl
@[simp] theorem emit_banks : (emit s o).banks = s.banks := rfl
@[simp] theorem emit_stackTab : (emit s o).stackTab = s.stackTab := rfl
@[simp] theorem emit_engines : (emit s o).engines = s.engines := rfl
@[simp] theorem emit_channels : (emit s o).channels = s.channels := rfl
@[simp] theorem emit_layers : (emit s o).layers = s.layers := rfl
@[simp] theorem emit_routers : (emit s o).routers = s.routers := rfl
@[simp] theorem emit_ports : (emit s o).ports = s.ports := rfl
@[simp] theorem emit_times : (emit s o).times = s.times := rfl
@[simp] theorem emit_buckets : (emit s o).buckets = s.buckets := rfl
@[simp] theorem emit_host : (emit s o).host = s.host := rfl
@[simp] theorem emit_mailboxes : (emit s o).mailboxes = s.mailboxes := rfl
@[simp] theorem emit_history : (emit s o).history = s.history := rfl
@[simp] theorem emit_security : (emit s o).security = s.security := rfl
@[simp] theorem emit_boot : (emit s o).boot = s.boot := rfl
@[simp] theorem emit_foremen : (emit s o).foremen = s.foremen := rfl
@[simp] theorem emit_domains : (emit s o).domains = s.domains := rfl
@[simp] theorem emit_halfLevels : (emit s o).halfLevels = s.halfLevels := rfl
@[simp] theorem emit_dvfs : (emit s o).dvfs = s.dvfs := rfl
@[simp] theorem emit_power : (emit s o).power = s.power := rfl
@[simp] theorem emit_pins : (emit s o).pins = s.pins := rfl
@[simp] theorem emit_bridge : (emit s o).bridge = s.bridge := rfl
@[simp] theorem emit_service : (emit s o).service = s.service := rfl
@[simp] theorem emit_split : (emit s o).split = s.split := rfl
@[simp] theorem emit_faulty : (emit s o).faulty = s.faulty := rfl
@[simp] theorem emit_canaries : (emit s o).canaries = s.canaries := rfl
@[simp] theorem emit_undrained : (emit s o).undrained = s.undrained := rfl
@[simp] theorem emit_copying : (emit s o).copying = s.copying := rfl
@[simp] theorem emit_sclk : (emit s o).sclk = s.sclk := rfl
@[simp] theorem emit_ranked : (emit s o).ranked = s.ranked := rfl
@[simp] theorem emit_irqs : (emit s o).irqs = s.irqs := rfl
@[simp] theorem emit_nextOp : (emit s o).nextOp = s.nextOp := rfl
@[simp] theorem emit_free : (emit s o).free = s.free := rfl
@[simp] theorem emit_pending : (emit s o).pending = s.pending := rfl
end

end Sys2Proof.Machine
end

