-- ==== Sys2Proof/Laws/Accessors.lean ====
section
/-!
SUPPORT. What each named update of the state leaves of the parts by number, of registers and of bytes: every part but its own.
-/

namespace Sys2Proof.Machine

section
variable (s : State) (n : Nat) (x : Stope) (k j : Nat)
@[simp] theorem bank_setStope : bank (setStope s n x) k = bank s k := rfl
@[simp] theorem stack_setStope : stack (setStope s n x) k = stack s k := rfl
@[simp] theorem engine_setStope : engine (setStope s n x) k = engine s k := rfl
@[simp] theorem channel_setStope : channel (setStope s n x) k = channel s k := rfl
@[simp] theorem layer_setStope : layer (setStope s n x) k = layer s k := rfl
@[simp] theorem router_setStope : router (setStope s n x) k = router s k := rfl
@[simp] theorem port_setStope : port (setStope s n x) k = port s k := rfl
@[simp] theorem timeBlk_setStope : timeBlk (setStope s n x) k = timeBlk s k := rfl
@[simp] theorem history_setStope : history (setStope s n x) k = history s k := rfl
@[simp] theorem foreman_setStope : foreman (setStope s n x) k = foreman s k := rfl
@[simp] theorem service_setStope : service (setStope s n x) k = service s k := rfl
@[simp] theorem halfLevel_setStope : halfLevel (setStope s n x) k = halfLevel s k := rfl
@[simp] theorem dvfs_setStope : dvfs (setStope s n x) k = dvfs s k := rfl
@[simp] theorem domain_setStope : domain (setStope s n x) k = domain s k := rfl
@[simp] theorem mailbox_setStope : mailbox (setStope s n x) k = mailbox s k := rfl
@[simp] theorem now_setStope : now (setStope s n x) k = now s k := rfl
@[simp] theorem rd_setStope : rd (setStope s n x) k j = rd s k j := rfl
@[simp] theorem rdStaged_setStope : rdStaged (setStope s n x) k j = rdStaged s k j := rfl
@[simp] theorem readByte_setStope : readByte (setStope s n x) k = readByte s k := rfl
@[simp] theorem readMem_setStope : readMem (setStope s n x) k j = readMem s k j := rfl
@[simp] theorem isSafe_setStope : isSafe (setStope s n x) k = isSafe s k := rfl
end

section
variable (s : State) (n : Nat) (x : Bank) (k j : Nat)
@[simp] theorem stope_setBank : stope (setBank s n x) k = stope s k := rfl
@[simp] theorem stack_setBank : stack (setBank s n x) k = stack s k := rfl
@[simp] theorem engine_setBank : engine (setBank s n x) k = engine s k := rfl
@[simp] theorem channel_setBank : channel (setBank s n x) k = channel s k := rfl
@[simp] theorem layer_setBank : layer (setBank s n x) k = layer s k := rfl
@[simp] theorem router_setBank : router (setBank s n x) k = router s k := rfl
@[simp] theorem port_setBank : port (setBank s n x) k = port s k := rfl
@[simp] theorem timeBlk_setBank : timeBlk (setBank s n x) k = timeBlk s k := rfl
@[simp] theorem history_setBank : history (setBank s n x) k = history s k := rfl
@[simp] theorem foreman_setBank : foreman (setBank s n x) k = foreman s k := rfl
@[simp] theorem service_setBank : service (setBank s n x) k = service s k := rfl
@[simp] theorem halfLevel_setBank : halfLevel (setBank s n x) k = halfLevel s k := rfl
@[simp] theorem dvfs_setBank : dvfs (setBank s n x) k = dvfs s k := rfl
@[simp] theorem domain_setBank : domain (setBank s n x) k = domain s k := rfl
@[simp] theorem mailbox_setBank : mailbox (setBank s n x) k = mailbox s k := rfl
@[simp] theorem now_setBank : now (setBank s n x) k = now s k := rfl
@[simp] theorem rd_setBank : rd (setBank s n x) k j = rd s k j := rfl
@[simp] theorem rdStaged_setBank : rdStaged (setBank s n x) k j = rdStaged s k j := rfl
@[simp] theorem readByte_setBank : readByte (setBank s n x) k = readByte s k := rfl
@[simp] theorem readMem_setBank : readMem (setBank s n x) k j = readMem s k j := rfl
@[simp] theorem isSafe_setBank : isSafe (setBank s n x) k = isSafe s k := rfl
end

section
variable (s : State) (n : Nat) (x : Stack) (k j : Nat)
@[simp] theorem stope_setStack : stope (setStack s n x) k = stope s k := rfl
@[simp] theorem bank_setStack : bank (setStack s n x) k = bank s k := rfl
@[simp] theorem engine_setStack : engine (setStack s n x) k = engine s k := rfl
@[simp] theorem channel_setStack : channel (setStack s n x) k = channel s k := rfl
@[simp] theorem layer_setStack : layer (setStack s n x) k = layer s k := rfl
@[simp] theorem router_setStack : router (setStack s n x) k = router s k := rfl
@[simp] theorem port_setStack : port (setStack s n x) k = port s k := rfl
@[simp] theorem timeBlk_setStack : timeBlk (setStack s n x) k = timeBlk s k := rfl
@[simp] theorem history_setStack : history (setStack s n x) k = history s k := rfl
@[simp] theorem foreman_setStack : foreman (setStack s n x) k = foreman s k := rfl
@[simp] theorem service_setStack : service (setStack s n x) k = service s k := rfl
@[simp] theorem halfLevel_setStack : halfLevel (setStack s n x) k = halfLevel s k := rfl
@[simp] theorem dvfs_setStack : dvfs (setStack s n x) k = dvfs s k := rfl
@[simp] theorem domain_setStack : domain (setStack s n x) k = domain s k := rfl
@[simp] theorem mailbox_setStack : mailbox (setStack s n x) k = mailbox s k := rfl
@[simp] theorem now_setStack : now (setStack s n x) k = now s k := rfl
@[simp] theorem rd_setStack : rd (setStack s n x) k j = rd s k j := rfl
@[simp] theorem rdStaged_setStack : rdStaged (setStack s n x) k j = rdStaged s k j := rfl
@[simp] theorem readByte_setStack : readByte (setStack s n x) k = readByte s k := rfl
@[simp] theorem readMem_setStack : readMem (setStack s n x) k j = readMem s k j := rfl
@[simp] theorem isSafe_setStack : isSafe (setStack s n x) k = isSafe s k := rfl
end

section
variable (s : State) (n : Nat) (x : Engine) (k j : Nat)
@[simp] theorem stope_setEngine : stope (setEngine s n x) k = stope s k := rfl
@[simp] theorem bank_setEngine : bank (setEngine s n x) k = bank s k := rfl
@[simp] theorem stack_setEngine : stack (setEngine s n x) k = stack s k := rfl
@[simp] theorem channel_setEngine : channel (setEngine s n x) k = channel s k := rfl
@[simp] theorem layer_setEngine : layer (setEngine s n x) k = layer s k := rfl
@[simp] theorem router_setEngine : router (setEngine s n x) k = router s k := rfl
@[simp] theorem port_setEngine : port (setEngine s n x) k = port s k := rfl
@[simp] theorem timeBlk_setEngine : timeBlk (setEngine s n x) k = timeBlk s k := rfl
@[simp] theorem history_setEngine : history (setEngine s n x) k = history s k := rfl
@[simp] theorem foreman_setEngine : foreman (setEngine s n x) k = foreman s k := rfl
@[simp] theorem service_setEngine : service (setEngine s n x) k = service s k := rfl
@[simp] theorem halfLevel_setEngine : halfLevel (setEngine s n x) k = halfLevel s k := rfl
@[simp] theorem dvfs_setEngine : dvfs (setEngine s n x) k = dvfs s k := rfl
@[simp] theorem domain_setEngine : domain (setEngine s n x) k = domain s k := rfl
@[simp] theorem mailbox_setEngine : mailbox (setEngine s n x) k = mailbox s k := rfl
@[simp] theorem now_setEngine : now (setEngine s n x) k = now s k := rfl
@[simp] theorem rd_setEngine : rd (setEngine s n x) k j = rd s k j := rfl
@[simp] theorem rdStaged_setEngine : rdStaged (setEngine s n x) k j = rdStaged s k j := rfl
@[simp] theorem readByte_setEngine : readByte (setEngine s n x) k = readByte s k := rfl
@[simp] theorem readMem_setEngine : readMem (setEngine s n x) k j = readMem s k j := rfl
@[simp] theorem isSafe_setEngine : isSafe (setEngine s n x) k = isSafe s k := rfl
end

section
variable (s : State) (n : Nat) (x : Channel) (k j : Nat)
@[simp] theorem stope_setChannel : stope (setChannel s n x) k = stope s k := rfl
@[simp] theorem bank_setChannel : bank (setChannel s n x) k = bank s k := rfl
@[simp] theorem stack_setChannel : stack (setChannel s n x) k = stack s k := rfl
@[simp] theorem engine_setChannel : engine (setChannel s n x) k = engine s k := rfl
@[simp] theorem layer_setChannel : layer (setChannel s n x) k = layer s k := rfl
@[simp] theorem router_setChannel : router (setChannel s n x) k = router s k := rfl
@[simp] theorem port_setChannel : port (setChannel s n x) k = port s k := rfl
@[simp] theorem timeBlk_setChannel : timeBlk (setChannel s n x) k = timeBlk s k := rfl
@[simp] theorem history_setChannel : history (setChannel s n x) k = history s k := rfl
@[simp] theorem foreman_setChannel : foreman (setChannel s n x) k = foreman s k := rfl
@[simp] theorem service_setChannel : service (setChannel s n x) k = service s k := rfl
@[simp] theorem halfLevel_setChannel : halfLevel (setChannel s n x) k = halfLevel s k := rfl
@[simp] theorem dvfs_setChannel : dvfs (setChannel s n x) k = dvfs s k := rfl
@[simp] theorem domain_setChannel : domain (setChannel s n x) k = domain s k := rfl
@[simp] theorem mailbox_setChannel : mailbox (setChannel s n x) k = mailbox s k := rfl
@[simp] theorem now_setChannel : now (setChannel s n x) k = now s k := rfl
@[simp] theorem rd_setChannel : rd (setChannel s n x) k j = rd s k j := rfl
@[simp] theorem rdStaged_setChannel : rdStaged (setChannel s n x) k j = rdStaged s k j := rfl
@[simp] theorem readByte_setChannel : readByte (setChannel s n x) k = readByte s k := rfl
@[simp] theorem readMem_setChannel : readMem (setChannel s n x) k j = readMem s k j := rfl
@[simp] theorem isSafe_setChannel : isSafe (setChannel s n x) k = isSafe s k := rfl
end

section
variable (s : State) (n : Nat) (x : RemoteLayer) (k j : Nat)
@[simp] theorem stope_setLayer : stope (setLayer s n x) k = stope s k := rfl
@[simp] theorem bank_setLayer : bank (setLayer s n x) k = bank s k := rfl
@[simp] theorem stack_setLayer : stack (setLayer s n x) k = stack s k := rfl
@[simp] theorem engine_setLayer : engine (setLayer s n x) k = engine s k := rfl
@[simp] theorem channel_setLayer : channel (setLayer s n x) k = channel s k := rfl
@[simp] theorem router_setLayer : router (setLayer s n x) k = router s k := rfl
@[simp] theorem port_setLayer : port (setLayer s n x) k = port s k := rfl
@[simp] theorem timeBlk_setLayer : timeBlk (setLayer s n x) k = timeBlk s k := rfl
@[simp] theorem history_setLayer : history (setLayer s n x) k = history s k := rfl
@[simp] theorem foreman_setLayer : foreman (setLayer s n x) k = foreman s k := rfl
@[simp] theorem service_setLayer : service (setLayer s n x) k = service s k := rfl
@[simp] theorem halfLevel_setLayer : halfLevel (setLayer s n x) k = halfLevel s k := rfl
@[simp] theorem dvfs_setLayer : dvfs (setLayer s n x) k = dvfs s k := rfl
@[simp] theorem domain_setLayer : domain (setLayer s n x) k = domain s k := rfl
@[simp] theorem mailbox_setLayer : mailbox (setLayer s n x) k = mailbox s k := rfl
@[simp] theorem now_setLayer : now (setLayer s n x) k = now s k := rfl
@[simp] theorem rd_setLayer : rd (setLayer s n x) k j = rd s k j := rfl
@[simp] theorem rdStaged_setLayer : rdStaged (setLayer s n x) k j = rdStaged s k j := rfl
@[simp] theorem readByte_setLayer : readByte (setLayer s n x) k = readByte s k := rfl
@[simp] theorem readMem_setLayer : readMem (setLayer s n x) k j = readMem s k j := rfl
@[simp] theorem isSafe_setLayer : isSafe (setLayer s n x) k = isSafe s k := rfl
end

section
variable (s : State) (n : Nat) (x : Router) (k j : Nat)
@[simp] theorem stope_setRouter : stope (setRouter s n x) k = stope s k := rfl
@[simp] theorem bank_setRouter : bank (setRouter s n x) k = bank s k := rfl
@[simp] theorem stack_setRouter : stack (setRouter s n x) k = stack s k := rfl
@[simp] theorem engine_setRouter : engine (setRouter s n x) k = engine s k := rfl
@[simp] theorem channel_setRouter : channel (setRouter s n x) k = channel s k := rfl
@[simp] theorem layer_setRouter : layer (setRouter s n x) k = layer s k := rfl
@[simp] theorem port_setRouter : port (setRouter s n x) k = port s k := rfl
@[simp] theorem timeBlk_setRouter : timeBlk (setRouter s n x) k = timeBlk s k := rfl
@[simp] theorem history_setRouter : history (setRouter s n x) k = history s k := rfl
@[simp] theorem foreman_setRouter : foreman (setRouter s n x) k = foreman s k := rfl
@[simp] theorem service_setRouter : service (setRouter s n x) k = service s k := rfl
@[simp] theorem halfLevel_setRouter : halfLevel (setRouter s n x) k = halfLevel s k := rfl
@[simp] theorem dvfs_setRouter : dvfs (setRouter s n x) k = dvfs s k := rfl
@[simp] theorem domain_setRouter : domain (setRouter s n x) k = domain s k := rfl
@[simp] theorem mailbox_setRouter : mailbox (setRouter s n x) k = mailbox s k := rfl
@[simp] theorem now_setRouter : now (setRouter s n x) k = now s k := rfl
@[simp] theorem rd_setRouter : rd (setRouter s n x) k j = rd s k j := rfl
@[simp] theorem rdStaged_setRouter : rdStaged (setRouter s n x) k j = rdStaged s k j := rfl
@[simp] theorem readByte_setRouter : readByte (setRouter s n x) k = readByte s k := rfl
@[simp] theorem readMem_setRouter : readMem (setRouter s n x) k j = readMem s k j := rfl
@[simp] theorem isSafe_setRouter : isSafe (setRouter s n x) k = isSafe s k := rfl
end

section
variable (s : State) (n : Nat) (x : Port) (k j : Nat)
@[simp] theorem stope_setPort : stope (setPort s n x) k = stope s k := rfl
@[simp] theorem bank_setPort : bank (setPort s n x) k = bank s k := rfl
@[simp] theorem stack_setPort : stack (setPort s n x) k = stack s k := rfl
@[simp] theorem engine_setPort : engine (setPort s n x) k = engine s k := rfl
@[simp] theorem channel_setPort : channel (setPort s n x) k = channel s k := rfl
@[simp] theorem layer_setPort : layer (setPort s n x) k = layer s k := rfl
@[simp] theorem router_setPort : router (setPort s n x) k = router s k := rfl
@[simp] theorem timeBlk_setPort : timeBlk (setPort s n x) k = timeBlk s k := rfl
@[simp] theorem history_setPort : history (setPort s n x) k = history s k := rfl
@[simp] theorem foreman_setPort : foreman (setPort s n x) k = foreman s k := rfl
@[simp] theorem service_setPort : service (setPort s n x) k = service s k := rfl
@[simp] theorem halfLevel_setPort : halfLevel (setPort s n x) k = halfLevel s k := rfl
@[simp] theorem dvfs_setPort : dvfs (setPort s n x) k = dvfs s k := rfl
@[simp] theorem domain_setPort : domain (setPort s n x) k = domain s k := rfl
@[simp] theorem mailbox_setPort : mailbox (setPort s n x) k = mailbox s k := rfl
@[simp] theorem now_setPort : now (setPort s n x) k = now s k := rfl
@[simp] theorem rd_setPort : rd (setPort s n x) k j = rd s k j := rfl
@[simp] theorem rdStaged_setPort : rdStaged (setPort s n x) k j = rdStaged s k j := rfl
@[simp] theorem readByte_setPort : readByte (setPort s n x) k = readByte s k := rfl
@[simp] theorem readMem_setPort : readMem (setPort s n x) k j = readMem s k j := rfl
@[simp] theorem isSafe_setPort : isSafe (setPort s n x) k = isSafe s k := rfl
end

section
variable (s : State) (n : Nat) (x : TimeBlk) (k j : Nat)
@[simp] theorem stope_setTime : stope (setTime s n x) k = stope s k := rfl
@[simp] theorem bank_setTime : bank (setTime s n x) k = bank s k := rfl
@[simp] theorem stack_setTime : stack (setTime s n x) k = stack s k := rfl
@[simp] theorem engine_setTime : engine (setTime s n x) k = engine s k := rfl
@[simp] theorem channel_setTime : channel (setTime s n x) k = channel s k := rfl
@[simp] theorem layer_setTime : layer (setTime s n x) k = layer s k := rfl
@[simp] theorem router_setTime : router (setTime s n x) k = router s k := rfl
@[simp] theorem port_setTime : port (setTime s n x) k = port s k := rfl
@[simp] theorem history_setTime : history (setTime s n x) k = history s k := rfl
@[simp] theorem foreman_setTime : foreman (setTime s n x) k = foreman s k := rfl
@[simp] theorem service_setTime : service (setTime s n x) k = service s k := rfl
@[simp] theorem halfLevel_setTime : halfLevel (setTime s n x) k = halfLevel s k := rfl
@[simp] theorem dvfs_setTime : dvfs (setTime s n x) k = dvfs s k := rfl
@[simp] theorem domain_setTime : domain (setTime s n x) k = domain s k := rfl
@[simp] theorem mailbox_setTime : mailbox (setTime s n x) k = mailbox s k := rfl
@[simp] theorem rd_setTime : rd (setTime s n x) k j = rd s k j := rfl
@[simp] theorem rdStaged_setTime : rdStaged (setTime s n x) k j = rdStaged s k j := rfl
@[simp] theorem readByte_setTime : readByte (setTime s n x) k = readByte s k := rfl
@[simp] theorem readMem_setTime : readMem (setTime s n x) k j = readMem s k j := rfl
@[simp] theorem isSafe_setTime : isSafe (setTime s n x) k = isSafe s k := rfl
end

section
variable (s : State) (n : Nat) (x : History) (k j : Nat)
@[simp] theorem stope_setHistory : stope (setHistory s n x) k = stope s k := rfl
@[simp] theorem bank_setHistory : bank (setHistory s n x) k = bank s k := rfl
@[simp] theorem stack_setHistory : stack (setHistory s n x) k = stack s k := rfl
@[simp] theorem engine_setHistory : engine (setHistory s n x) k = engine s k := rfl
@[simp] theorem channel_setHistory : channel (setHistory s n x) k = channel s k := rfl
@[simp] theorem layer_setHistory : layer (setHistory s n x) k = layer s k := rfl
@[simp] theorem router_setHistory : router (setHistory s n x) k = router s k := rfl
@[simp] theorem port_setHistory : port (setHistory s n x) k = port s k := rfl
@[simp] theorem timeBlk_setHistory : timeBlk (setHistory s n x) k = timeBlk s k := rfl
@[simp] theorem foreman_setHistory : foreman (setHistory s n x) k = foreman s k := rfl
@[simp] theorem service_setHistory : service (setHistory s n x) k = service s k := rfl
@[simp] theorem halfLevel_setHistory : halfLevel (setHistory s n x) k = halfLevel s k := rfl
@[simp] theorem dvfs_setHistory : dvfs (setHistory s n x) k = dvfs s k := rfl
@[simp] theorem domain_setHistory : domain (setHistory s n x) k = domain s k := rfl
@[simp] theorem mailbox_setHistory : mailbox (setHistory s n x) k = mailbox s k := rfl
@[simp] theorem now_setHistory : now (setHistory s n x) k = now s k := rfl
@[simp] theorem rd_setHistory : rd (setHistory s n x) k j = rd s k j := rfl
@[simp] theorem rdStaged_setHistory : rdStaged (setHistory s n x) k j = rdStaged s k j := rfl
@[simp] theorem readByte_setHistory : readByte (setHistory s n x) k = readByte s k := rfl
@[simp] theorem readMem_setHistory : readMem (setHistory s n x) k j = readMem s k j := rfl
@[simp] theorem isSafe_setHistory : isSafe (setHistory s n x) k = isSafe s k := rfl
end

section
variable (s : State) (n : Nat) (x : Foreman) (k j : Nat)
@[simp] theorem stope_setForeman : stope (setForeman s n x) k = stope s k := rfl
@[simp] theorem bank_setForeman : bank (setForeman s n x) k = bank s k := rfl
@[simp] theorem stack_setForeman : stack (setForeman s n x) k = stack s k := rfl
@[simp] theorem engine_setForeman : engine (setForeman s n x) k = engine s k := rfl
@[simp] theorem channel_setForeman : channel (setForeman s n x) k = channel s k := rfl
@[simp] theorem layer_setForeman : layer (setForeman s n x) k = layer s k := rfl
@[simp] theorem router_setForeman : router (setForeman s n x) k = router s k := rfl
@[simp] theorem port_setForeman : port (setForeman s n x) k = port s k := rfl
@[simp] theorem timeBlk_setForeman : timeBlk (setForeman s n x) k = timeBlk s k := rfl
@[simp] theorem history_setForeman : history (setForeman s n x) k = history s k := rfl
@[simp] theorem service_setForeman : service (setForeman s n x) k = service s k := rfl
@[simp] theorem halfLevel_setForeman : halfLevel (setForeman s n x) k = halfLevel s k := rfl
@[simp] theorem dvfs_setForeman : dvfs (setForeman s n x) k = dvfs s k := rfl
@[simp] theorem domain_setForeman : domain (setForeman s n x) k = domain s k := rfl
@[simp] theorem mailbox_setForeman : mailbox (setForeman s n x) k = mailbox s k := rfl
@[simp] theorem now_setForeman : now (setForeman s n x) k = now s k := rfl
@[simp] theorem rd_setForeman : rd (setForeman s n x) k j = rd s k j := rfl
@[simp] theorem rdStaged_setForeman : rdStaged (setForeman s n x) k j = rdStaged s k j := rfl
@[simp] theorem readByte_setForeman : readByte (setForeman s n x) k = readByte s k := rfl
@[simp] theorem readMem_setForeman : readMem (setForeman s n x) k j = readMem s k j := rfl
@[simp] theorem isSafe_setForeman : isSafe (setForeman s n x) k = isSafe s k := rfl
end

section
variable (s : State) (n : Nat) (x : Service) (k j : Nat)
@[simp] theorem stope_setService : stope (setService s n x) k = stope s k := rfl
@[simp] theorem bank_setService : bank (setService s n x) k = bank s k := rfl
@[simp] theorem stack_setService : stack (setService s n x) k = stack s k := rfl
@[simp] theorem engine_setService : engine (setService s n x) k = engine s k := rfl
@[simp] theorem channel_setService : channel (setService s n x) k = channel s k := rfl
@[simp] theorem layer_setService : layer (setService s n x) k = layer s k := rfl
@[simp] theorem router_setService : router (setService s n x) k = router s k := rfl
@[simp] theorem port_setService : port (setService s n x) k = port s k := rfl
@[simp] theorem timeBlk_setService : timeBlk (setService s n x) k = timeBlk s k := rfl
@[simp] theorem history_setService : history (setService s n x) k = history s k := rfl
@[simp] theorem foreman_setService : foreman (setService s n x) k = foreman s k := rfl
@[simp] theorem halfLevel_setService : halfLevel (setService s n x) k = halfLevel s k := rfl
@[simp] theorem dvfs_setService : dvfs (setService s n x) k = dvfs s k := rfl
@[simp] theorem domain_setService : domain (setService s n x) k = domain s k := rfl
@[simp] theorem mailbox_setService : mailbox (setService s n x) k = mailbox s k := rfl
@[simp] theorem now_setService : now (setService s n x) k = now s k := rfl
@[simp] theorem rd_setService : rd (setService s n x) k j = rd s k j := rfl
@[simp] theorem rdStaged_setService : rdStaged (setService s n x) k j = rdStaged s k j := rfl
@[simp] theorem readByte_setService : readByte (setService s n x) k = readByte s k := rfl
@[simp] theorem readMem_setService : readMem (setService s n x) k j = readMem s k j := rfl
end

section
variable (s : State) (n : Nat) (x : HalfLevel) (k j : Nat)
@[simp] theorem stope_setHalfLevel : stope (setHalfLevel s n x) k = stope s k := rfl
@[simp] theorem bank_setHalfLevel : bank (setHalfLevel s n x) k = bank s k := rfl
@[simp] theorem stack_setHalfLevel : stack (setHalfLevel s n x) k = stack s k := rfl
@[simp] theorem engine_setHalfLevel : engine (setHalfLevel s n x) k = engine s k := rfl
@[simp] theorem channel_setHalfLevel : channel (setHalfLevel s n x) k = channel s k := rfl
@[simp] theorem layer_setHalfLevel : layer (setHalfLevel s n x) k = layer s k := rfl
@[simp] theorem router_setHalfLevel : router (setHalfLevel s n x) k = router s k := rfl
@[simp] theorem port_setHalfLevel : port (setHalfLevel s n x) k = port s k := rfl
@[simp] theorem timeBlk_setHalfLevel : timeBlk (setHalfLevel s n x) k = timeBlk s k := rfl
@[simp] theorem history_setHalfLevel : history (setHalfLevel s n x) k = history s k := rfl
@[simp] theorem foreman_setHalfLevel : foreman (setHalfLevel s n x) k = foreman s k := rfl
@[simp] theorem service_setHalfLevel : service (setHalfLevel s n x) k = service s k := rfl
@[simp] theorem dvfs_setHalfLevel : dvfs (setHalfLevel s n x) k = dvfs s k := rfl
@[simp] theorem domain_setHalfLevel : domain (setHalfLevel s n x) k = domain s k := rfl
@[simp] theorem mailbox_setHalfLevel : mailbox (setHalfLevel s n x) k = mailbox s k := rfl
@[simp] theorem now_setHalfLevel : now (setHalfLevel s n x) k = now s k := rfl
@[simp] theorem rd_setHalfLevel : rd (setHalfLevel s n x) k j = rd s k j := rfl
@[simp] theorem rdStaged_setHalfLevel : rdStaged (setHalfLevel s n x) k j = rdStaged s k j := rfl
@[simp] theorem readByte_setHalfLevel : readByte (setHalfLevel s n x) k = readByte s k := rfl
@[simp] theorem readMem_setHalfLevel : readMem (setHalfLevel s n x) k j = readMem s k j := rfl
@[simp] theorem isSafe_setHalfLevel : isSafe (setHalfLevel s n x) k = isSafe s k := rfl
end

section
variable (s : State) (n : Nat) (x : Dvfs) (k j : Nat)
@[simp] theorem stope_setDvfs : stope (setDvfs s n x) k = stope s k := rfl
@[simp] theorem bank_setDvfs : bank (setDvfs s n x) k = bank s k := rfl
@[simp] theorem stack_setDvfs : stack (setDvfs s n x) k = stack s k := rfl
@[simp] theorem engine_setDvfs : engine (setDvfs s n x) k = engine s k := rfl
@[simp] theorem channel_setDvfs : channel (setDvfs s n x) k = channel s k := rfl
@[simp] theorem layer_setDvfs : layer (setDvfs s n x) k = layer s k := rfl
@[simp] theorem router_setDvfs : router (setDvfs s n x) k = router s k := rfl
@[simp] theorem port_setDvfs : port (setDvfs s n x) k = port s k := rfl
@[simp] theorem timeBlk_setDvfs : timeBlk (setDvfs s n x) k = timeBlk s k := rfl
@[simp] theorem history_setDvfs : history (setDvfs s n x) k = history s k := rfl
@[simp] theorem foreman_setDvfs : foreman (setDvfs s n x) k = foreman s k := rfl
@[simp] theorem service_setDvfs : service (setDvfs s n x) k = service s k := rfl
@[simp] theorem halfLevel_setDvfs : halfLevel (setDvfs s n x) k = halfLevel s k := rfl
@[simp] theorem domain_setDvfs : domain (setDvfs s n x) k = domain s k := rfl
@[simp] theorem mailbox_setDvfs : mailbox (setDvfs s n x) k = mailbox s k := rfl
@[simp] theorem now_setDvfs : now (setDvfs s n x) k = now s k := rfl
@[simp] theorem rd_setDvfs : rd (setDvfs s n x) k j = rd s k j := rfl
@[simp] theorem rdStaged_setDvfs : rdStaged (setDvfs s n x) k j = rdStaged s k j := rfl
@[simp] theorem readByte_setDvfs : readByte (setDvfs s n x) k = readByte s k := rfl
@[simp] theorem readMem_setDvfs : readMem (setDvfs s n x) k j = readMem s k j := rfl
@[simp] theorem isSafe_setDvfs : isSafe (setDvfs s n x) k = isSafe s k := rfl
end

section
variable (s : State) (n : Nat) (x : Nat) (k j : Nat)
@[simp] theorem stope_setDomain : stope (setDomain s n x) k = stope s k := rfl
@[simp] theorem bank_setDomain : bank (setDomain s n x) k = bank s k := rfl
@[simp] theorem stack_setDomain : stack (setDomain s n x) k = stack s k := rfl
@[simp] theorem engine_setDomain : engine (setDomain s n x) k = engine s k := rfl
@[simp] theorem channel_setDomain : channel (setDomain s n x) k = channel s k := rfl
@[simp] theorem layer_setDomain : layer (setDomain s n x) k = layer s k := rfl
@[simp] theorem router_setDomain : router (setDomain s n x) k = router s k := rfl
@[simp] theorem port_setDomain : port (setDomain s n x) k = port s k := rfl
@[simp] theorem timeBlk_setDomain : timeBlk (setDomain s n x) k = timeBlk s k := rfl
@[simp] theorem history_setDomain : history (setDomain s n x) k = history s k := rfl
@[simp] theorem foreman_setDomain : foreman (setDomain s n x) k = foreman s k := rfl
@[simp] theorem service_setDomain : service (setDomain s n x) k = service s k := rfl
@[simp] theorem halfLevel_setDomain : halfLevel (setDomain s n x) k = halfLevel s k := rfl
@[simp] theorem dvfs_setDomain : dvfs (setDomain s n x) k = dvfs s k := rfl
@[simp] theorem mailbox_setDomain : mailbox (setDomain s n x) k = mailbox s k := rfl
@[simp] theorem now_setDomain : now (setDomain s n x) k = now s k := rfl
@[simp] theorem rd_setDomain : rd (setDomain s n x) k j = rd s k j := rfl
@[simp] theorem rdStaged_setDomain : rdStaged (setDomain s n x) k j = rdStaged s k j := rfl
@[simp] theorem readByte_setDomain : readByte (setDomain s n x) k = readByte s k := rfl
@[simp] theorem readMem_setDomain : readMem (setDomain s n x) k j = readMem s k j := rfl
@[simp] theorem isSafe_setDomain : isSafe (setDomain s n x) k = isSafe s k := rfl
end

section
variable (s : State) (n : Nat) (x : List (List Byte)) (k j : Nat)
@[simp] theorem stope_setMailbox : stope (setMailbox s n x) k = stope s k := rfl
@[simp] theorem bank_setMailbox : bank (setMailbox s n x) k = bank s k := rfl
@[simp] theorem stack_setMailbox : stack (setMailbox s n x) k = stack s k := rfl
@[simp] theorem engine_setMailbox : engine (setMailbox s n x) k = engine s k := rfl
@[simp] theorem channel_setMailbox : channel (setMailbox s n x) k = channel s k := rfl
@[simp] theorem layer_setMailbox : layer (setMailbox s n x) k = layer s k := rfl
@[simp] theorem router_setMailbox : router (setMailbox s n x) k = router s k := rfl
@[simp] theorem port_setMailbox : port (setMailbox s n x) k = port s k := rfl
@[simp] theorem timeBlk_setMailbox : timeBlk (setMailbox s n x) k = timeBlk s k := rfl
@[simp] theorem history_setMailbox : history (setMailbox s n x) k = history s k := rfl
@[simp] theorem foreman_setMailbox : foreman (setMailbox s n x) k = foreman s k := rfl
@[simp] theorem service_setMailbox : service (setMailbox s n x) k = service s k := rfl
@[simp] theorem halfLevel_setMailbox : halfLevel (setMailbox s n x) k = halfLevel s k := rfl
@[simp] theorem dvfs_setMailbox : dvfs (setMailbox s n x) k = dvfs s k := rfl
@[simp] theorem domain_setMailbox : domain (setMailbox s n x) k = domain s k := rfl
@[simp] theorem now_setMailbox : now (setMailbox s n x) k = now s k := rfl
@[simp] theorem rd_setMailbox : rd (setMailbox s n x) k j = rd s k j := rfl
@[simp] theorem rdStaged_setMailbox : rdStaged (setMailbox s n x) k j = rdStaged s k j := rfl
@[simp] theorem readByte_setMailbox : readByte (setMailbox s n x) k = readByte s k := rfl
@[simp] theorem readMem_setMailbox : readMem (setMailbox s n x) k j = readMem s k j := rfl
@[simp] theorem isSafe_setMailbox : isSafe (setMailbox s n x) k = isSafe s k := rfl
end

section
variable (s : State) (pg off : Nat) (v : W32) (k j : Nat)
@[simp] theorem stope_wr : stope (wr s pg off v) k = stope s k := rfl
@[simp] theorem bank_wr : bank (wr s pg off v) k = bank s k := rfl
@[simp] theorem stack_wr : stack (wr s pg off v) k = stack s k := rfl
@[simp] theorem engine_wr : engine (wr s pg off v) k = engine s k := rfl
@[simp] theorem channel_wr : channel (wr s pg off v) k = channel s k := rfl
@[simp] theorem layer_wr : layer (wr s pg off v) k = layer s k := rfl
@[simp] theorem router_wr : router (wr s pg off v) k = router s k := rfl
@[simp] theorem port_wr : port (wr s pg off v) k = port s k := rfl
@[simp] theorem timeBlk_wr : timeBlk (wr s pg off v) k = timeBlk s k := rfl
@[simp] theorem history_wr : history (wr s pg off v) k = history s k := rfl
@[simp] theorem foreman_wr : foreman (wr s pg off v) k = foreman s k := rfl
@[simp] theorem service_wr : service (wr s pg off v) k = service s k := rfl
@[simp] theorem halfLevel_wr : halfLevel (wr s pg off v) k = halfLevel s k := rfl
@[simp] theorem dvfs_wr : dvfs (wr s pg off v) k = dvfs s k := rfl
@[simp] theorem domain_wr : domain (wr s pg off v) k = domain s k := rfl
@[simp] theorem mailbox_wr : mailbox (wr s pg off v) k = mailbox s k := rfl
@[simp] theorem now_wr : now (wr s pg off v) k = now s k := rfl
@[simp] theorem readByte_wr : readByte (wr s pg off v) k = readByte s k := rfl
@[simp] theorem readMem_wr : readMem (wr s pg off v) k j = readMem s k j := rfl
@[simp] theorem isSafe_wr : isSafe (wr s pg off v) k = isSafe s k := rfl
end

section
variable (s : State) (pg off : Nat) (v : W32) (k j : Nat)
@[simp] theorem stope_wrStaged : stope (wrStaged s pg off v) k = stope s k := rfl
@[simp] theorem bank_wrStaged : bank (wrStaged s pg off v) k = bank s k := rfl
@[simp] theorem stack_wrStaged : stack (wrStaged s pg off v) k = stack s k := rfl
@[simp] theorem engine_wrStaged : engine (wrStaged s pg off v) k = engine s k := rfl
@[simp] theorem channel_wrStaged : channel (wrStaged s pg off v) k = channel s k := rfl
@[simp] theorem layer_wrStaged : layer (wrStaged s pg off v) k = layer s k := rfl
@[simp] theorem router_wrStaged : router (wrStaged s pg off v) k = router s k := rfl
@[simp] theorem port_wrStaged : port (wrStaged s pg off v) k = port s k := rfl
@[simp] theorem timeBlk_wrStaged : timeBlk (wrStaged s pg off v) k = timeBlk s k := rfl
@[simp] theorem history_wrStaged : history (wrStaged s pg off v) k = history s k := rfl
@[simp] theorem foreman_wrStaged : foreman (wrStaged s pg off v) k = foreman s k := rfl
@[simp] theorem service_wrStaged : service (wrStaged s pg off v) k = service s k := rfl
@[simp] theorem halfLevel_wrStaged : halfLevel (wrStaged s pg off v) k = halfLevel s k := rfl
@[simp] theorem dvfs_wrStaged : dvfs (wrStaged s pg off v) k = dvfs s k := rfl
@[simp] theorem domain_wrStaged : domain (wrStaged s pg off v) k = domain s k := rfl
@[simp] theorem mailbox_wrStaged : mailbox (wrStaged s pg off v) k = mailbox s k := rfl
@[simp] theorem now_wrStaged : now (wrStaged s pg off v) k = now s k := rfl
@[simp] theorem rd_wrStaged : rd (wrStaged s pg off v) k j = rd s k j := rfl
@[simp] theorem readByte_wrStaged : readByte (wrStaged s pg off v) k = readByte s k := rfl
@[simp] theorem readMem_wrStaged : readMem (wrStaged s pg off v) k j = readMem s k j := rfl
@[simp] theorem isSafe_wrStaged : isSafe (wrStaged s pg off v) k = isSafe s k := rfl
end

section
variable (s : State) (a : Nat) (bs : List Byte) (k j : Nat)
@[simp] theorem stope_writeMem : stope (writeMem s a bs) k = stope s k := rfl
@[simp] theorem bank_writeMem : bank (writeMem s a bs) k = bank s k := rfl
@[simp] theorem stack_writeMem : stack (writeMem s a bs) k = stack s k := rfl
@[simp] theorem engine_writeMem : engine (writeMem s a bs) k = engine s k := rfl
@[simp] theorem channel_writeMem : channel (writeMem s a bs) k = channel s k := rfl
@[simp] theorem layer_writeMem : layer (writeMem s a bs) k = layer s k := rfl
@[simp] theorem router_writeMem : router (writeMem s a bs) k = router s k := rfl
@[simp] theorem port_writeMem : port (writeMem s a bs) k = port s k := rfl
@[simp] theorem timeBlk_writeMem : timeBlk (writeMem s a bs) k = timeBlk s k := rfl
@[simp] theorem history_writeMem : history (writeMem s a bs) k = history s k := rfl
@[simp] theorem foreman_writeMem : foreman (writeMem s a bs) k = foreman s k := rfl
@[simp] theorem service_writeMem : service (writeMem s a bs) k = service s k := rfl
@[simp] theorem halfLevel_writeMem : halfLevel (writeMem s a bs) k = halfLevel s k := rfl
@[simp] theorem dvfs_writeMem : dvfs (writeMem s a bs) k = dvfs s k := rfl
@[simp] theorem domain_writeMem : domain (writeMem s a bs) k = domain s k := rfl
@[simp] theorem mailbox_writeMem : mailbox (writeMem s a bs) k = mailbox s k := rfl
@[simp] theorem now_writeMem : now (writeMem s a bs) k = now s k := rfl
@[simp] theorem rd_writeMem : rd (writeMem s a bs) k j = rd s k j := rfl
@[simp] theorem rdStaged_writeMem : rdStaged (writeMem s a bs) k j = rdStaged s k j := rfl
@[simp] theorem isSafe_writeMem : isSafe (writeMem s a bs) k = isSafe s k := rfl
end

section
variable (s : State) (o : Output) (k j : Nat)
@[simp] theorem stope_emit : stope (emit s o) k = stope s k := rfl
@[simp] theorem bank_emit : bank (emit s o) k = bank s k := rfl
@[simp] theorem stack_emit : stack (emit s o) k = stack s k := rfl
@[simp] theorem engine_emit : engine (emit s o) k = engine s k := rfl
@[simp] theorem channel_emit : channel (emit s o) k = channel s k := rfl
@[simp] theorem layer_emit : layer (emit s o) k = layer s k := rfl
@[simp] theorem router_emit : router (emit s o) k = router s k := rfl
@[simp] theorem port_emit : port (emit s o) k = port s k := rfl
@[simp] theorem timeBlk_emit : timeBlk (emit s o) k = timeBlk s k := rfl
@[simp] theorem history_emit : history (emit s o) k = history s k := rfl
@[simp] theorem foreman_emit : foreman (emit s o) k = foreman s k := rfl
@[simp] theorem service_emit : service (emit s o) k = service s k := rfl
@[simp] theorem halfLevel_emit : halfLevel (emit s o) k = halfLevel s k := rfl
@[simp] theorem dvfs_emit : dvfs (emit s o) k = dvfs s k := rfl
@[simp] theorem domain_emit : domain (emit s o) k = domain s k := rfl
@[simp] theorem mailbox_emit : mailbox (emit s o) k = mailbox s k := rfl
@[simp] theorem now_emit : now (emit s o) k = now s k := rfl
@[simp] theorem rd_emit : rd (emit s o) k j = rd s k j := rfl
@[simp] theorem rdStaged_emit : rdStaged (emit s o) k j = rdStaged s k j := rfl
@[simp] theorem readByte_emit : readByte (emit s o) k = readByte s k := rfl
@[simp] theorem readMem_emit : readMem (emit s o) k j = readMem s k j := rfl
@[simp] theorem isSafe_emit : isSafe (emit s o) k = isSafe s k := rfl
end

end Sys2Proof.Machine
end

