-- ==== Sys2Proof/Laws/Bytes.lean ====
section
/-!
SUPPORT. Bytes and numbers: little-endian strings, their slices and their fields.
-/

namespace Sys2Proof

@[simp] theorem length_toLE (n v : Nat) : (toLE n v).length = n := by
  induction n generalizing v with
  | zero => rfl
  | succ n ih => simp [toLE, ih]

/-- Little-endian bytes spell the number they were made from, below its width. -/
theorem leNat_toLE (n v : Nat) : leNat (toLE n v) = v % 256 ^ n := by
  induction n generalizing v with
  | zero => simp [toLE, leNat, Nat.mod_one]
  | succ n ih =>
    rw [Nat.pow_succ, Nat.mul_comm (256 ^ n) 256, Nat.mod_mul, toLE, leNat, ih, BitVec.toNat_ofNat]

theorem leNat_append (a b : List Byte) : leNat (a ++ b) = leNat a + 256 ^ a.length * leNat b := by
  induction a with
  | nil => simp [leNat]
  | cons x rest ih => simp only [List.cons_append, leNat, ih, List.length_cons, Nat.pow_succ]; rw [Nat.mul_add]; ac_rfl

theorem leNat_lt (a : List Byte) : leNat a < 256 ^ a.length := by
  induction a with
  | nil => simp [leNat]
  | cons x rest ih =>
    have := x.isLt
    simp only [leNat, List.length_cons, Nat.pow_succ]
    omega

/-- A slice that lies inside a string is that part of it. -/
theorem sliceB_inside (bs : List Byte) (o n : Nat) (h : o + n ≤ bs.length) : sliceB bs o n = (bs.drop o).take n := by
  have : ((bs.drop o).take n).length = n := by simp; omega
  simp [sliceB, this]

/-- A slice of the first or of the second of two strings. -/
theorem sliceB_left (a b : List Byte) (o n : Nat) (h : o + n ≤ a.length) : sliceB (a ++ b) o n = sliceB a o n := by
  rw [sliceB_inside _ _ _ (by simp; omega), sliceB_inside _ _ _ h, List.drop_append_of_le_length (by omega),
    List.take_append_of_le_length (by simp; omega)]

theorem sliceB_right (a b : List Byte) (o n : Nat) (h : a.length ≤ o) : sliceB (a ++ b) o n = sliceB b (o - a.length) n := by
  simp [sliceB, List.drop_append, List.drop_eq_nil_of_le h]

theorem leAt_left (a b : List Byte) (o n : Nat) (h : o + n ≤ a.length) : leAt (a ++ b) o n = leAt a o n := by
  simp [leAt, sliceB_left a b o n h]

theorem leAt_right (a b : List Byte) (o n : Nat) (h : a.length ≤ o) : leAt (a ++ b) o n = leAt b (o - a.length) n := by
  simp [leAt, sliceB_right a b o n h]

/-- The whole of a little-endian field. -/
theorem leAt_toLE (n v : Nat) : leAt (toLE n v) 0 n = v % 256 ^ n := by
  rw [leAt, sliceB_inside _ _ _ (by simp)]
  simp [List.take_of_length_le, leNat_toLE]

/-- A field of a number is its quotient and remainder. -/
theorem bitsOf_eq (x hi lo : Nat) : bitsOf x hi lo = x / 2 ^ lo % 2 ^ (hi + 1 - lo) := by
  simp [bitsOf, Nat.shiftRight_eq_div_pow]

theorem bitsOf_lt (x hi lo : Nat) : bitsOf x hi lo < 2 ^ (hi + 1 - lo) := Nat.mod_lt _ (Nat.two_pow_pos _)

end Sys2Proof
end

