-- ==== Sys2Proof/Laws/Sparse.lean ====
section
/-!
SUPPORT. Reading after writing in a finite map, and its canonical form, which every write and every selection of entries keeps.
-/

namespace Sys2Proof.Sparse

variable {α : Type} [DecidableEq α] (d : α)

/-- A write leaves what every other key reads as. -/
theorem get_set_ne (m : Sparse α) (k j : Nat) (v : α) (h : j ≠ k) : get d (set d m k v) j = get d m j := by
  induction m with
  | nil => by_cases hv : v = d <;> simp [set, get, hv, Ne.symm h]
  | cons e rest ih =>
    obtain ⟨a, w⟩ := e
    by_cases h1 : a < k
    · simp [set, h1, get, ih]
    · by_cases h2 : a = k
      · subst h2; by_cases hv : v = d <;> simp [set, get, hv, Ne.symm h]
      · by_cases hv : v = d <;> simp [set, h1, h2, get, hv, Ne.symm h]

/-- A value that is not the default is what its key reads as after it is written. -/
theorem get_set_same (m : Sparse α) (k : Nat) (v : α) (h : v ≠ d) : get d (set d m k v) k = v := by
  induction m with
  | nil => simp [set, get, h]
  | cons e rest ih =>
    obtain ⟨a, w⟩ := e
    by_cases h1 : a < k
    · simp [set, h1, get, ih, Nat.ne_of_lt h1]
    · by_cases h2 : a = k <;> simp [set, h1, h2, get, h]

/-- A key below every listed one reads as the default. -/
theorem get_of_wfFrom (m : Sparse α) (lo k : Nat) (h : wfFrom d lo m = true) (hk : k < lo) : get d m k = d := by
  induction m generalizing lo with
  | nil => rfl
  | cons e rest ih =>
    obtain ⟨a, w⟩ := e
    simp only [wfFrom, Bool.and_eq_true, decide_eq_true_eq] at h
    have : a ≠ k := by omega
    simp only [get, this, if_false]
    exact ih (a + 1) h.2 (by omega)

/-- The canonical form above a bound holds above every lower bound. -/
theorem wfFrom_mono (m : Sparse α) (lo lo' : Nat) (h : wfFrom d lo m = true) (hl : lo' ≤ lo) : wfFrom d lo' m = true := by
  cases m with
  | nil => rfl
  | cons e rest =>
    obtain ⟨a, w⟩ := e
    simp only [wfFrom, Bool.and_eq_true, decide_eq_true_eq] at h ⊢
    exact ⟨⟨by omega, h.1.2⟩, h.2⟩

/-- In canonical form every key reads as what was last written there. -/
theorem get_set_eq (m : Sparse α) (lo k : Nat) (v : α) (h : wfFrom d lo m = true) : get d (set d m k v) k = v := by
  by_cases hv : v = d
  · induction m generalizing lo with
    | nil => simp [set, get, hv]
    | cons e rest ih =>
      obtain ⟨a, w⟩ := e
      simp only [wfFrom, Bool.and_eq_true, decide_eq_true_eq] at h
      by_cases h1 : a < k
      · simp [set, h1, get, ih (a + 1) h.2, Nat.ne_of_lt h1]
      · by_cases h2 : a = k
        · subst h2
          simpa [set, hv] using get_of_wfFrom d rest (a + 1) a h.2 (by omega)
        · simpa [set, h1, h2, hv, get] using get_of_wfFrom d rest (a + 1) k h.2 (by omega)
  · exact get_set_same d m k v hv

/-- A write keeps the canonical form, above a bound that its key reaches. -/
theorem wfFrom_set (m : Sparse α) (lo k : Nat) (v : α) (h : wfFrom d lo m = true) (hk : lo ≤ k) : wfFrom d lo (set d m k v) = true := by
  induction m generalizing lo with
  | nil => by_cases hv : v = d <;> simp [set, wfFrom, hv, hk]
  | cons e rest ih =>
    obtain ⟨a, w⟩ := e
    simp only [wfFrom, Bool.and_eq_true, decide_eq_true_eq] at h
    obtain ⟨⟨hlo, hw⟩, hr⟩ := h
    by_cases h1 : a < k
    · simp [set, h1, wfFrom, hlo, hw, ih (a + 1) hr h1]
    · by_cases h2 : a = k
      · subst h2
        by_cases hv : v = d
        · simpa [set, hv] using wfFrom_mono d rest (a + 1) lo hr (by omega)
        · simp [set, hv, wfFrom, hlo, hr]
      · by_cases hv : v = d
        · simp [set, h1, h2, hv, wfFrom, hlo, hw, hr]
        · have : k + 1 ≤ a := by omega
          simp [set, h1, h2, hv, wfFrom, hk, this, hw, hr]

/-- A write keeps the canonical form. -/
theorem wf_set (m : Sparse α) (k : Nat) (v : α) (h : wf d m = true) : wf d (set d m k v) = true :=
  wfFrom_set d m 0 k v h (Nat.zero_le k)

/-- A selection of entries keeps the canonical form. -/
theorem wfFrom_filter (m : Sparse α) (p : Nat × α → Bool) (lo : Nat) (h : wfFrom d lo m = true) : wfFrom d lo (m.filter p) = true := by
  induction m generalizing lo with
  | nil => rfl
  | cons e rest ih =>
    obtain ⟨a, w⟩ := e
    simp only [wfFrom, Bool.and_eq_true, decide_eq_true_eq] at h
    have ht := ih (a + 1) h.2
    by_cases hp : p (a, w) = true
    · simp [List.filter, hp, wfFrom, h.1.1, h.1.2, ht]
    · simpa [List.filter, hp] using wfFrom_mono d _ (a + 1) lo ht (by omega)

theorem wf_filter (m : Sparse α) (p : Nat × α → Bool) (h : wf d m = true) : wf d (m.filter p) = true := wfFrom_filter d m p 0 h

end Sys2Proof.Sparse
end

