-- ==== Sys2Proof/Laws/Memory.lean ====
section
/-!
SUPPORT. Memory and registers: what a read gives after a write, and that every operation keeps memory's canonical form.
-/

namespace Sys2Proof.Machine

-- bytes ------------------------------------------------------------------------------------------------------------------

theorem Memory.write_wf (m : List Host.Cell) (a : Nat) (v : Byte) (h : Memory.wf m = true) : Memory.wf (Memory.write m a v) = true :=
  Sparse.wf_set 0 m (low50 a) v h

theorem Memory.writeAll_wf (m : List Host.Cell) (a : Nat) (bs : List Byte) (h : Memory.wf m = true) :
    Memory.wf (Memory.writeAll m a bs) = true := by
  induction bs generalizing m a with
  | nil => exact h
  | cons b rest ih => exact ih _ _ (Memory.write_wf m a b h)

theorem Memory.filter_wf (m : List Host.Cell) (p : Host.Cell → Bool) (h : Memory.wf m = true) : Memory.wf (m.filter p) = true :=
  Sparse.wf_filter 0 m p h

theorem Memory.reset_wf : Memory.wf State.reset.mem = true := rfl

theorem writeMem_wf (s : State) (a : Nat) (bs : List Byte) (h : Memory.wf s.mem = true) : Memory.wf (writeMem s a bs).mem = true :=
  Memory.writeAll_wf s.mem a bs h

theorem writePiece_wf (s : State) (a : Nat) (bs : List Byte) (h : Memory.wf s.mem = true) : Memory.wf (writePiece s a bs).1.mem = true := by
  unfold writePiece
  split
  · exact writeMem_wf _ _ _ h
  · split
    · exact h
    · exact writeMem_wf _ _ _ h

theorem writeWords_wf (fuel : Nat) (s : State) (a : Nat) (bs : List Byte) (h : Memory.wf s.mem = true) :
    Memory.wf (writeWords fuel s a bs).1.mem = true := by
  induction fuel generalizing s a bs with
  | zero => exact h
  | succ n ih =>
    unfold writeWords
    split
    · exact h
    · exact ih _ _ _ (writePiece_wf s a _ h)

theorem store_wf (s : State) (a : Nat) (bs : List Byte) (h : Memory.wf s.mem = true) : Memory.wf (store s a bs).1.mem = true :=
  writeWords_wf _ s a bs h

/-- A byte written reads back, in canonical memory. -/
theorem Memory.get_write_same (m : List Host.Cell) (a : Nat) (v : Byte) (h : Memory.wf m = true) :
    Sparse.get 0 (Memory.write m a v) (low50 a) = v := Sparse.get_set_eq 0 m 0 (low50 a) v h

/-- A byte elsewhere reads as before. -/
theorem Memory.get_write_other (m : List Host.Cell) (a b : Nat) (v : Byte) (h : low50 b ≠ low50 a) :
    Sparse.get 0 (Memory.write m a v) (low50 b) = Sparse.get 0 m (low50 b) := Sparse.get_set_ne 0 m (low50 a) (low50 b) v h

/-- Bytes outside those written read as before. -/
theorem Memory.get_writeAll_other (m : List Host.Cell) (a b : Nat) (bs : List Byte) (h : ∀ i, i < bs.length → low50 b ≠ low50 (a + i)) :
    Sparse.get 0 (Memory.writeAll m a bs) (low50 b) = Sparse.get 0 m (low50 b) := by
  induction bs generalizing m a with
  | nil => rfl
  | cons v rest ih =>
    rw [Memory.writeAll, ih]
    · exact Memory.get_write_other m a b v (by simpa using h 0 (by simp))
    · intro i hi
      have := h (i + 1) (by simpa using hi)
      rwa [show a + (i + 1) = a + 1 + i by omega] at this

theorem readByte_writeMem_other (s : State) (a b : Nat) (bs : List Byte) (h : ∀ i, i < bs.length → low50 b ≠ low50 (a + i)) :
    readByte (writeMem s a bs) b = readByte s b := Memory.get_writeAll_other s.mem a b bs h

theorem readByte_writePiece_other (s : State) (a b : Nat) (bs : List Byte) (h : ∀ i, i < bs.length → low50 b ≠ low50 (a + i)) :
    readByte (writePiece s a bs).1 b = readByte s b := by
  unfold writePiece
  split
  · exact readByte_writeMem_other _ a b bs h
  · split
    · rfl
    · exact readByte_writeMem_other _ a b bs h

theorem readByte_writeWords_other (fuel : Nat) (s : State) (a b : Nat) (bs : List Byte)
    (h : ∀ i, i < bs.length → low50 b ≠ low50 (a + i)) : readByte (writeWords fuel s a bs).1 b = readByte s b := by
  induction fuel generalizing s a bs with
  | zero => rfl
  | succ n ih =>
    unfold writeWords
    split
    · rfl
    · dsimp only
      rw [ih, readByte_writePiece_other]
      · intro i hi
        exact h i (Nat.lt_of_lt_of_le hi (by simp <;> omega))
      · intro i hi
        rw [Nat.add_assoc]
        exact h _ (by simp at hi; omega)

/-- A store changes no byte but those it stores. -/
theorem readByte_store_other (s : State) (a b : Nat) (bs : List Byte) (h : ∀ i, i < bs.length → low50 b ≠ low50 (a + i)) :
    readByte (store s a bs).1 b = readByte s b := readByte_writeWords_other _ s a b bs h

-- registers --------------------------------------------------------------------------------------------------------------

/-- A register written reads back. -/
@[simp] theorem rd_wr_same (s : State) (pg off : Nat) (v : W32) : rd (wr s pg off v) pg off = v := by
  simp [rd, wr, Sparse.get_set_same]

/-- A register elsewhere reads as before. -/
theorem rd_wr_other (s : State) (pg off p q : Nat) (v : W32) (h : rkey p q ≠ rkey pg off) : rd (wr s pg off v) p q = rd s p q := by
  simp [rd, wr, Sparse.get_set_ne none s.regs (rkey pg off) (rkey p q) (some v) h]

/-- Two registers of one place of the register file read alike where their pages and words agree. -/
theorem rkey_inj (pg off p q : Nat) (ho : off < 4096) (hq : q < 4096) (h : rkey pg off = rkey p q) : pg = p ∧ off / 4 = q / 4 := by
  simp only [rkey] at h
  omega

@[simp] theorem rdStaged_wrStaged_same (s : State) (pg off : Nat) (v : W32) : rdStaged (wrStaged s pg off v) pg off = v := by
  simp [rdStaged, wrStaged, Sparse.get_set_same]

theorem bump_eq (s : State) (pg off n : Nat) : bump s pg off n = { s with regs := (bump s pg off n).regs } := rfl
theorem setBits_eq (s : State) (pg off n : Nat) : setBits s pg off n = { s with regs := (setBits s pg off n).regs } := rfl

theorem rd_bump_same (s : State) (pg off n : Nat) :
    rd (bump s pg off n) pg off = BitVec.ofNat 32 (Nat.min 0xFFFFFFFF ((rd s pg off).toNat + n)) := rd_wr_same ..

theorem rd_bump_other (s : State) (pg off n p q : Nat) (h : rkey p q ≠ rkey pg off) : rd (bump s pg off n) p q = rd s p q :=
  rd_wr_other _ _ _ _ _ _ h

theorem rd_setBits_same (s : State) (pg off n : Nat) : rd (setBits s pg off n) pg off = BitVec.ofNat 32 ((rd s pg off).toNat ||| n) :=
  rd_wr_same ..

theorem rd_setBits_other (s : State) (pg off n p q : Nat) (h : rkey p q ≠ rkey pg off) : rd (setBits s pg off n) p q = rd s p q :=
  rd_wr_other _ _ _ _ _ _ h

/-- Status bits set change registers, and the interrupts raised. -/
theorem setIrq_eq (s : State) (pg bits : Nat) :
    setIrq s pg bits = { s with regs := (setIrq s pg bits).regs, irqs := (setIrq s pg bits).irqs } := rfl
theorem event_eq (s : State) (pg : Nat) : event s pg = { s with regs := (event s pg).regs, irqs := (event s pg).irqs } := rfl

/-- Raising an interrupt leaves every register as setting the status bits leaves it. -/
@[simp] theorem rd_setIrq (s : State) (pg bits p q : Nat) :
    rd (setIrq s pg bits) p q = rd (setBits s pg BLK_IRQ_STATUS bits) p q := rfl

/-- An error bit changes registers, and the interrupts raised. -/
theorem blkErr_eq (s : State) (pg bit : Nat) : ∃ r q, blkErr s pg bit = { s with regs := r, irqs := q } := by
  unfold blkErr
  split
  · exact ⟨s.regs, s.irqs, rfl⟩
  · exact ⟨_, _, rfl⟩

/-- A refused write changes registers, and the interrupts raised. -/
theorem refuseWrite_eq (s : State) (w : Agent) (pg off : Nat) : ∃ r q, refuseWrite s w pg off = { s with regs := r, irqs := q } := by
  obtain ⟨r, q, h⟩ := blkErr_eq s (if isTable (pageKind (pg / 8192) (pg % 8192)).1 then pgRouter (pg / 8192) else pg) 0
  exact ⟨_, q, by simp only [refuseWrite, h]; rfl⟩

end Sys2Proof.Machine
end

