-- ==== Sys2Proof/Laws/Engines.lean ====
section
/-!
SUPPORT. What the shared operations of tallies, stacks and the stopes' engines can do.
-/

namespace Sys2Proof.Machine

-- writes in pieces, and values left open -------------------------------------------------------------------------------------

theorem writePieces_wf (ps : List (Nat × List Byte)) (s : State) (h : Memory.wf s.mem = true) :
    Memory.wf (writePieces s ps).1.mem = true := by
  induction ps generalizing s with
  | nil => exact h
  | cons p rest ih => exact ih _ (writePiece_wf s p.1 p.2 h)

/-- Pieces change no byte but their own. -/
theorem readByte_writePieces_other (ps : List (Nat × List Byte)) (s : State) (b : Nat)
    (h : ∀ p ∈ ps, ∀ i, i < p.2.length → low50 b ≠ low50 (p.1 + i)) : readByte (writePieces s ps).1 b = readByte s b := by
  induction ps generalizing s with
  | nil => rfl
  | cons p rest ih =>
    show readByte (writePieces (writePiece s p.1 p.2).1 rest).1 b = _
    rw [ih _ (fun q hq => h q (List.mem_cons_of_mem _ hq)), readByte_writePiece_other s p.1 b p.2 (h p List.mem_cons_self)]

theorem spoil_wf (rs : List (Nat × Nat)) (s : State) (h : Memory.wf s.mem = true) : Memory.wf (spoil s rs).mem = true := by
  unfold spoil
  induction rs generalizing s with
  | nil => exact h
  | cons r rest ih => exact ih _ (Memory.writeAll_wf _ _ _ h)

/-- What is left open in a range changes memory and the count of free values taken. -/
theorem spoil_eq (rs : List (Nat × Nat)) (s : State) : spoil s rs = { s with mem := (spoil s rs).mem, free := (spoil s rs).free } := by
  unfold spoil
  induction rs generalizing s with
  | nil => rfl
  | cons r rest ih => simp only [List.foldl_cons]; rw [ih]

theorem zeroStack_wf (s : State) (k : Nat) (h : Memory.wf s.mem = true) : Memory.wf (zeroStack s k).mem = true :=
  Memory.filter_wf _ _ h

-- the head of a stope's queue ------------------------------------------------------------------------------------------------

/-- An operation that has not begun has run no cycle (R119). -/
theorem hasRun_of_waiting (s : State) (n : Nat) (o : LongOp) (c : Nat) (h : o.started = none) : hasRun s n o c = false := by
  simp only [hasRun, h]

/-- One that began at `t0` has run `c` cycles once they and its stalls have passed (R63, R144). -/
theorem hasRun_of_started (s : State) (n : Nat) (o : LongOp) (c t0 : Nat) (h : o.started = some t0) :
    hasRun s n o c = decide (t0 + runNs [(c + o.reReads + o.stalls, o.mhz)] ≤ now s (n / 256)) := by
  simp only [hasRun, h]

/-- The pass that is due is of the tile at the head of the queue. -/
theorem passDue_head (s : State) (n : Nat) (o : LongOp) (fb : Bool) (h : passDue s n = some (o, fb)) :
    o.kind = .face ∧ ∃ rest, (stope s n).queue = o :: rest := by
  unfold passDue at h
  split at h
  · rename_i p rest hq
    split at h
    · rename_i hk
      split at h
      · cases h; exact ⟨hk, rest, hq⟩
      · split at h
        · cases h; exact ⟨hk, rest, hq⟩
        · cases h
    · cases h
  · cases h

-- tallies and ranked writes --------------------------------------------------------------------------------------------------

/-- A lease whose end has not come stays (R301). -/
theorem dueEnd_running (s : State) (r : Res) (h : leaseOver s r = false) : dueEnd s r = s := by simp [dueEnd, h]

/-- A ranked write that is noted changes nothing but the note (R17). -/
theorem noteRanked_eq (s : State) (w : Agent) (pg off : Nat) (saved : List Undo) (t : State) :
    noteRanked s w pg off saved t = { t with ranked := (noteRanked s w pg off saved t).ranked } := rfl

-- stacks ---------------------------------------------------------------------------------------------------------------------

/-- A request taken in turn is the next of the strict sequence (R161). -/
theorem stackTakes_inTurn (st : Stack) (t : Ns) : stackTakes st t false = stackNext st := rfl

/-- What a queue serves next stands in it (R140, R161, R263). -/
theorem edfHead_mem (q : List Access) (x : Access) (h : edfHead q = some x) : x ∈ q := by
  induction q with
  | nil => cases h
  | cons y rest ih =>
    unfold edfHead at h
    split at h
    · cases h; exact List.mem_cons_self
    · rename_i z hz
      split at h
      · cases h; exact List.mem_cons_of_mem _ (ih hz)
      · cases h; exact List.mem_cons_self

/-- A request taken ahead of its turn is of an open row, and no request that it passes over has waited for 32 HCLK cycles (R161, R381). -/
theorem stackAhead_open (st : Stack) (t : Ns) (x : Access) (h : stackAhead st t = some x) :
    rowOpen st x = true ∧ ∀ y ∈ rankedBefore x st.free, ∀ t0, y.passed = some t0 → t < t0 + 26 := by
  have m := edfHead_mem _ _ h
  simp only [List.mem_filter, Bool.and_eq_true, List.all_eq_true] at m
  refine ⟨m.2.1.1, fun y hy t0 hp => ?_⟩
  have := m.2.2 y hy
  rw [hp] at this
  simpa using this

/-- A request that is taken leaves the queue. -/
theorem stackTake_gone (st : Stack) (t : Ns) (x : Access) : ∀ y ∈ (stackTake st t x).queue, y.id ≠ x.id := by
  intro y hy
  simp only [stackTake, List.mem_map, List.mem_filter, decide_eq_true_eq] at hy
  obtain ⟨z, ⟨_, hz⟩, rfl⟩ := hy
  split <;> exact hz

end Sys2Proof.Machine
end

