-- ==== Sys2Proof/Laws/Parts.lean ====
section
/-!
SUPPORT. Reading a part by number after writing it, and after writing another of its kind.
-/

namespace Sys2Proof.Machine

theorem stope_setStope_same (s : State) (n : Nat) (x : Stope) (h : x ≠ Stope.reset) : stope (setStope s n x) n = x :=
  Sparse.get_set_same Stope.reset s.stopes n x h
theorem stope_setStope_other (s : State) (n k : Nat) (x : Stope) (h : k ≠ n) : stope (setStope s n x) k = stope s k :=
  Sparse.get_set_ne Stope.reset s.stopes n k x h

theorem bank_setBank_same (s : State) (n : Nat) (x : Bank) (h : x ≠ Bank.reset) : bank (setBank s n x) n = x :=
  Sparse.get_set_same Bank.reset s.banks n x h
theorem bank_setBank_other (s : State) (n k : Nat) (x : Bank) (h : k ≠ n) : bank (setBank s n x) k = bank s k :=
  Sparse.get_set_ne Bank.reset s.banks n k x h

theorem stack_setStack_same (s : State) (n : Nat) (x : Stack) (h : x ≠ Stack.reset) : stack (setStack s n x) n = x :=
  Sparse.get_set_same Stack.reset s.stackTab n x h
theorem stack_setStack_other (s : State) (n k : Nat) (x : Stack) (h : k ≠ n) : stack (setStack s n x) k = stack s k :=
  Sparse.get_set_ne Stack.reset s.stackTab n k x h

theorem engine_setEngine_same (s : State) (n : Nat) (x : Engine) (h : x ≠ Engine.reset) : engine (setEngine s n x) n = x :=
  Sparse.get_set_same Engine.reset s.engines n x h
theorem engine_setEngine_other (s : State) (n k : Nat) (x : Engine) (h : k ≠ n) : engine (setEngine s n x) k = engine s k :=
  Sparse.get_set_ne Engine.reset s.engines n k x h

theorem channel_setChannel_same (s : State) (n : Nat) (x : Channel) (h : x ≠ Channel.reset) : channel (setChannel s n x) n = x :=
  Sparse.get_set_same Channel.reset s.channels n x h
theorem channel_setChannel_other (s : State) (n k : Nat) (x : Channel) (h : k ≠ n) : channel (setChannel s n x) k = channel s k :=
  Sparse.get_set_ne Channel.reset s.channels n k x h

theorem layer_setLayer_same (s : State) (n : Nat) (x : RemoteLayer) (h : x ≠ RemoteLayer.reset) : layer (setLayer s n x) n = x :=
  Sparse.get_set_same RemoteLayer.reset s.layers n x h
theorem layer_setLayer_other (s : State) (n k : Nat) (x : RemoteLayer) (h : k ≠ n) : layer (setLayer s n x) k = layer s k :=
  Sparse.get_set_ne RemoteLayer.reset s.layers n k x h

theorem router_setRouter_same (s : State) (n : Nat) (x : Router) (h : x ≠ Router.reset) : router (setRouter s n x) n = x :=
  Sparse.get_set_same Router.reset s.routers n x h
theorem router_setRouter_other (s : State) (n k : Nat) (x : Router) (h : k ≠ n) : router (setRouter s n x) k = router s k :=
  Sparse.get_set_ne Router.reset s.routers n k x h

theorem port_setPort_same (s : State) (n : Nat) (x : Port) (h : x ≠ Port.reset) : port (setPort s n x) n = x :=
  Sparse.get_set_same Port.reset s.ports n x h
theorem port_setPort_other (s : State) (n k : Nat) (x : Port) (h : k ≠ n) : port (setPort s n x) k = port s k :=
  Sparse.get_set_ne Port.reset s.ports n k x h

theorem timeBlk_setTime_same (s : State) (n : Nat) (x : TimeBlk) (h : x ≠ TimeBlk.reset) : timeBlk (setTime s n x) n = x :=
  Sparse.get_set_same TimeBlk.reset s.times n x h
theorem timeBlk_setTime_other (s : State) (n k : Nat) (x : TimeBlk) (h : k ≠ n) : timeBlk (setTime s n x) k = timeBlk s k :=
  Sparse.get_set_ne TimeBlk.reset s.times n k x h

theorem history_setHistory_same (s : State) (n : Nat) (x : History) (h : x ≠ History.new) : history (setHistory s n x) n = x :=
  Sparse.get_set_same History.new s.history n x h
theorem history_setHistory_other (s : State) (n k : Nat) (x : History) (h : k ≠ n) : history (setHistory s n x) k = history s k :=
  Sparse.get_set_ne History.new s.history n k x h

theorem foreman_setForeman_same (s : State) (n : Nat) (x : Foreman) (h : x ≠ Foreman.reset) : foreman (setForeman s n x) n = x :=
  Sparse.get_set_same Foreman.reset s.foremen n x h
theorem foreman_setForeman_other (s : State) (n k : Nat) (x : Foreman) (h : k ≠ n) : foreman (setForeman s n x) k = foreman s k :=
  Sparse.get_set_ne Foreman.reset s.foremen n k x h

theorem service_setService_same (s : State) (n : Nat) (x : Service) (h : x ≠ Service.reset) : service (setService s n x) n = x :=
  Sparse.get_set_same Service.reset s.service n x h
theorem service_setService_other (s : State) (n k : Nat) (x : Service) (h : k ≠ n) : service (setService s n x) k = service s k :=
  Sparse.get_set_ne Service.reset s.service n k x h

theorem halfLevel_setHalfLevel_same (s : State) (n : Nat) (x : HalfLevel) (h : x ≠ HalfLevel.reset) : halfLevel (setHalfLevel s n x) n = x :=
  Sparse.get_set_same HalfLevel.reset s.halfLevels n x h
theorem halfLevel_setHalfLevel_other (s : State) (n k : Nat) (x : HalfLevel) (h : k ≠ n) : halfLevel (setHalfLevel s n x) k = halfLevel s k :=
  Sparse.get_set_ne HalfLevel.reset s.halfLevels n k x h

theorem dvfs_setDvfs_same (s : State) (n : Nat) (x : Dvfs) (h : x ≠ Dvfs.reset) : dvfs (setDvfs s n x) n = x :=
  Sparse.get_set_same Dvfs.reset s.dvfs n x h
theorem dvfs_setDvfs_other (s : State) (n k : Nat) (x : Dvfs) (h : k ≠ n) : dvfs (setDvfs s n x) k = dvfs s k :=
  Sparse.get_set_ne Dvfs.reset s.dvfs n k x h

theorem domain_setDomain_same (s : State) (n : Nat) (x : Nat) (h : x ≠ 0) : domain (setDomain s n x) n = x :=
  Sparse.get_set_same 0 s.domains n x h
theorem domain_setDomain_other (s : State) (n k : Nat) (x : Nat) (h : k ≠ n) : domain (setDomain s n x) k = domain s k :=
  Sparse.get_set_ne 0 s.domains n k x h

theorem mailbox_setMailbox_same (s : State) (n : Nat) (x : List (List Byte)) (h : x ≠ []) : mailbox (setMailbox s n x) n = x :=
  Sparse.get_set_same [] s.mailboxes n x h
theorem mailbox_setMailbox_other (s : State) (n k : Nat) (x : List (List Byte)) (h : k ≠ n) : mailbox (setMailbox s n x) k = mailbox s k :=
  Sparse.get_set_ne [] s.mailboxes n k x h

end Sys2Proof.Machine
end

