-- ==== Sys2Proof/Laws/Host.lean ====
section
/-!
SUPPORT. What the shared operations of the host side, of the links and of control pages can do.
-/

namespace Sys2Proof.Machine

/-- A vector is not sent in the safe state, is left pending where it is masked, and is sent otherwise (R276). -/
theorem msix_cases (s : State) (v : Nat) :
    (isSafe s 0 = true ∧ msix s v = s) ∨
    (isSafe s 0 = false ∧ bitsOf s.host.msixMask v v = 1 ∧
      msix s v = { s with host := { s.host with msixPending := s.host.msixPending ||| 2 ^ v } }) ∨
    (isSafe s 0 = false ∧ bitsOf s.host.msixMask v v ≠ 1 ∧ msix s v = emit s (.msix v)) := by
  unfold msix
  by_cases hs : isSafe s 0 = true
  · simp [hs]
  · by_cases hm : bitsOf s.host.msixMask v v = 1 <;> simp [hs, hm]

/-- A vector changes the host port and what is sent. -/
theorem msix_eq (s : State) (v : Nat) : msix s v = { s with host := (msix s v).host, out := (msix s v).out } := by
  rcases msix_cases s v with ⟨_, e⟩ | ⟨_, _, e⟩ | ⟨_, _, e⟩ <;> rw [e]
  rfl

/-- A post's result is a register of its mailbox. -/
theorem mbResult_eq (s : State) (m sender seq status : Nat) :
    mbResult s m sender seq status = { s with regs := (mbResult s m sender seq status).regs } := rfl

/-- A post that is judged changes its mailbox, registers, and what an interrupt changes. -/
theorem mbJudge_eq (s : State) (m : Nat) (bs : List Byte) : ∃ r x h o b,
    (mbJudge s m bs).1 = { s with regs := r, mailboxes := x, host := h, out := o, boot := b } := by
  unfold mbJudge noteIrq
  repeat' split
  all_goals first
    | exact ⟨_, _, _, _, _, rfl⟩
    | (dsimp only
       repeat' split
       all_goals first
         | exact ⟨_, _, _, _, _, rfl⟩
         | (rw [msix_eq]; exact ⟨_, _, _, _, _, rfl⟩))

/-- A post changes no more, beside the note of it that its cycle keeps (R286). -/
theorem mbPost_eq (s : State) (m : Nat) (bs : List Byte) : ∃ r x h o b,
    (mbPost s m bs).1 = { s with regs := r, mailboxes := x, host := h, out := o, boot := b } := by
  obtain ⟨r, x, h, o, b, e⟩ := mbJudge_eq s m bs
  unfold mbPost
  dsimp only
  split
  · exact ⟨r, x, h, o, b, e⟩
  · rw [e]; exact ⟨_, _, _, _, _, rfl⟩

/-- A write to a field of R17 that no other agent has written in the present cycle takes effect, and is kept until the cycle ends. -/
theorem ranked_unrivalled (s : State) (w : Agent) (pg off : Nat) (saved : List Undo) (f : State → State) (h : Unrivalled s w pg off) :
    ranked s w pg off saved f = noteRanked s w pg off saved (f s) := by
  have e : s.ranked.filter (fun e => decide (e.page = pg) && decide (e.off = off) && decide (e.by_ ≠ w) &&
      !(decide (off = THROTTLE) && decide (e.rank = 3 ∧ rankOf s w pg = 3))) = [] := by
    rw [List.filter_eq_nil_iff]
    intro x hx
    have := h x hx
    simp only [Bool.and_eq_true, decide_eq_true_eq]
    intro hc
    exact hc.1.2 (this hc.1.1.1 hc.1.1.2)
  unfold ranked
  simp only [e, List.any_nil, Bool.false_eq_true, if_false, List.foldl_nil]

/-- A frame that a port sends changes that port and what is sent. -/
theorem emitFrame_eq (s : State) (p seq ln hops : Nat) (pl : Payload) (nak : Bool) : ∃ x o,
    emitFrame s p seq ln hops pl nak = { s with ports := x, out := o } := ⟨_, _, rfl⟩

/-- Queueing a frame, and giving buffer back, change one port. -/
theorem queueOwn_eq (s : State) (p : Nat) (pl : Payload) : queueOwn s p pl = { s with ports := (queueOwn s p pl).ports } := rfl
theorem consume_eq (s : State) (p : Nat) (f : RxFrame) : consume s p f = { s with ports := (consume s p f).ports } := rfl

/-- A write to any page but headframe 0's has no effect in the safe state (R292). -/
theorem writeWord_safe (s : State) (w : Agent) (pg off : Nat) (v : W32) (h : isSafe s (servePage s pg / 8192) = true)
    (hp : servePage s pg ≠ pgHeadframe 0) : writeWord s w pg off v = s := by simp [writeWord, safeWrite, h, hp]

/-- A write to a place without a register has no effect outside the safe state (R292). -/
theorem writeWord_reserved (s : State) (w : Agent) (pg off : Nat) (v : W32) (hs : isSafe s (servePage s pg / 8192) = false)
    (h : regOf (servePage s pg) off = none) : writeWord s w pg off v = s := by
  unfold writeWord
  simp only [h, hs, Bool.false_eq_true, if_false]

end Sys2Proof.Machine
end

