-- ==== Sys2Proof/Laws/Stopes.lean ====
section
/-!
SUPPORT. Stopes: their registers, the shape of an instruction, program faults, results and jumps.
-/

namespace Sys2Proof.Machine

-- registers of one stope -------------------------------------------------------------------------------------------------

/-- Another scalar register is as before. -/
theorem Stope.sreg_setS_other (x : Stope) (r q : Nat) (v : W64) (h : q ≠ r) : (x.setS r v).sreg q = x.sreg q := by
  unfold Stope.setS
  split
  · rfl
  · unfold Stope.sreg
    split
    · rfl
    · exact Sparse.get_set_ne 0 x.s r q v h

/-- s0 discards what is written to it. -/
@[simp] theorem Stope.setS_zero (x : Stope) (v : W64) : x.setS 0 v = x := by simp [Stope.setS]

/-- Another vector register is as before. -/
theorem Stope.vreg_setV_other (x : Stope) (r q : Nat) (v : BitVec 4096) (h : q ≠ r) : (x.setV r v).vreg q = x.vreg q :=
  Sparse.get_set_ne 0 x.v r q v h

section
variable (x : Stope) (r : Nat)
@[simp] theorem Stope.setV_sreg (v : BitVec 4096) (q : Nat) : (x.setV r v).sreg q = x.sreg q := rfl
@[simp] theorem Stope.setA_sreg (v : W64) (q : Nat) : (x.setA r v).sreg q = x.sreg q := rfl
@[simp] theorem Stope.setA_vreg (v : W64) (q : Nat) : (x.setA r v).vreg q = x.vreg q := rfl
@[simp] theorem Stope.setV_a (v : BitVec 4096) : (x.setV r v).a = x.a := rfl
@[simp] theorem Stope.setV_out (v : BitVec 4096) : (x.setV r v).out = x.out := rfl
@[simp] theorem Stope.setV_tickets (v : BitVec 4096) : (x.setV r v).tickets = x.tickets := rfl
@[simp] theorem Stope.setV_queue (v : BitVec 4096) : (x.setV r v).queue = x.queue := rfl
@[simp] theorem Stope.setA_out (v : W64) : (x.setA r v).out = x.out := rfl
@[simp] theorem Stope.setA_tickets (v : W64) : (x.setA r v).tickets = x.tickets := rfl
@[simp] theorem Stope.setA_queue (v : W64) : (x.setA r v).queue = x.queue := rfl
end

/-- A write to a scalar register leaves all but the scalar registers. -/
theorem Stope.setS_eq (x : Stope) (r : Nat) (v : W64) : ∃ m, x.setS r v = { x with s := m } := by
  unfold Stope.setS
  split
  · exact ⟨x.s, rfl⟩
  · exact ⟨_, rfl⟩

-- the shape of an instruction ----------------------------------------------------------------------------------------------

/-- An instruction does nothing, faults ILLEGAL, or acts. -/
theorem issue_cases (s : State) (st : Fin 512) (op : Nat) (d a b : Byte) (imm : W32) (act : State → State) :
    issue s st op d a b imm act = s ∨ issue s st op d a b imm act = progFault s st cILLEGAL ∨
      (atWord s st op d a b imm = true ∧ legalFields op d a b imm = true ∧ issue s st op d a b imm act = act s) := by
  unfold issue
  split
  · split
    · exact .inr (.inr ⟨‹_›, ‹_›, rfl⟩)
    · exact .inr (.inl rfl)
  · exact .inl rfl

/-- A program fault changes one stope and registers. -/
theorem progFault_frame (s : State) (n cause : Nat) : OnlyStopesAndRegs s (progFault s n cause) := rfl

theorem progFault_other (s : State) (n cause k : Nat) (h : k ≠ n) : stope (progFault s n cause) k = stope s k :=
  stope_setStope_other s n k _ h

/-- A result for a scalar, an address or a vector register, and a jump, change stopes and registers only. -/
theorem putS_frame (s : State) (n : Nat) (d : Byte) (v : W64) : OnlyStopesAndRegs s (putS s n d v) := rfl
theorem putV_frame (s : State) (n : Nat) (d : Byte) (v : BitVec 4096) : OnlyStopesAndRegs s (putV s n d v) := rfl
theorem putA_frame (s : State) (n : Nat) (d : Byte) (v : W64) : OnlyStopesAndRegs s (putA s n d v) := by
  unfold putA; split <;> rfl
theorem jumpTo_frame (s : State) (n t : Nat) : OnlyStopesAndRegs s (jumpTo s n t) := by
  unfold jumpTo; split <;> rfl

/-- An instruction whose action changes stopes and registers only does no more itself. -/
theorem issue_frame (s : State) (st : Fin 512) (op : Nat) (d a b : Byte) (imm : W32) (act : State → State)
    (h : OnlyStopesAndRegs s (act s)) : OnlyStopesAndRegs s (issue s st op d a b imm act) := by
  rcases issue_cases s st op d a b imm act with e | e | ⟨_, _, e⟩ <;> rw [e]
  · rfl
  · exact progFault_frame s st cILLEGAL
  · exact h

/-- An instruction's stope is the only one it can change, where its action changes no other. -/
theorem issue_other (s : State) (st : Fin 512) (op : Nat) (d a b : Byte) (imm : W32) (act : State → State) (k : Nat) (hk : k ≠ st.val)
    (h : stope (act s) k = stope s k) : stope (issue s st op d a b imm act) k = stope s k := by
  rcases issue_cases s st op d a b imm act with e | e | ⟨_, _, e⟩ <;> rw [e]
  · exact progFault_other s st cILLEGAL k hk
  · exact h

end Sys2Proof.Machine
end

