-- ==== Sys2Proof/Tests/Slice0.lean ====
section
/-!
SUPPORT. Tests: ill-formed commands, words written from Table 06-1 and 06-3, and a witness for every clause of the statements that has
hypotheses.
-/

namespace Sys2Proof.Tests

open Sys2Proof.Machine

set_option Elab.async false

-- states ------------------------------------------------------------------------------------------------------------------

/-- A device that is ready: released, its time agreed, every domain on. -/
def ready : State := { State.reset with
  boot := { Boot.reset with released := true, up := 5000000000, zeroed := true, step := 5, assigned := true, hf0 := ⟨1, false⟩, hf1 := ⟨2, false⟩ }
  service := [(0, { Service.reset with state := 2 }), (1, { Service.reset with state := 2 })]
  times := [(0, { TimeBlk.reset with now := 5000000000, isSet := true, st := 1 }),
    (1, { TimeBlk.reset with now := 5000000000, isSet := true, st := 1 })]
  domains := (List.range 96).map (fun n => (n, 2))
  security := { Security.new with selfTest := true }
  bridge := { Bridge.reset with st := 2 }
  host := { HostPort.reset with linkUp := true }
  power := { Power.reset with inReset := false } }

/-- Stope 0 of a ready device running at this word. -/
def atWord0 (w : W64) : State := { ready with stopes := [(0, { Stope.reset with imem := [(0, w)], codeLen := 4, prog := .running })] }

def atOp (op : Nat) (d a b : Byte) (imm : W32) : State := atWord0 (wordOf op d a b imm)

-- ill-formed commands -----------------------------------------------------------------------------------------------------

theorem test_wf_bankCycle : ∀ f ∈ [Instr.bankPortBAccess 0, .iadd32 0, .iadd64 0, .fadd32 0, .fadd16 0, .swap 0, .cas 0, .flagSet 0, .flagAdd 0],
    ∀ p ∈ [PortA.faceRead 0 (2 ^ 21), .sweepRead 0 (2 ^ 21), .quantRead 0 (2 ^ 22), .outWrite 0 (2 ^ 22), .operandRead 0 (2 ^ 22)],
      (f ⟨[p], false⟩).wf = false ∧ (f ⟨[.faceRead 0 (2 ^ 21 - 1)], false⟩).wf = true := by decide

theorem test_wf_sector : (Instr.stackAccess 0 [⟨1, false⟩]).wf = false := by decide

def msg0 : Msg := ⟨1, 0, 0, 7, 0, 0, 0, 0, 0, 0, 0, 0, 0, 0, 0, 0, 0, [1], false, none⟩

theorem test_wf_message : ∀ f ∈ [Instr.putMessage 0, .heldPutRelease 0, .heldPutDeadline 0, .getMessage 0, .mcput 0, .comp 0, .ack 0, .gets 0,
    .fill 0, .inv 0, .iack 0, .absent 0, .evict 0], (f msg0).wf = false := by decide

theorem test_wf_frame : ∀ f ∈ [Instr.operationFrame 0, .idleFrame 0, .routeNotice 0, .agreeFrame 0, .safeIdleFrame 0, .timeFrame 0,
    .attestationFrame 0], (f (List.replicate 33 0)).wf = false := by decide

theorem test_wf_others : ∀ i ∈ [Instr.requestFetch [0], .apertureRead 0 0, .apertureWrite 0 [], .mailboxPost 0 (List.replicate 65 0),
    .registerWrite ⟨0, 0⟩ .bar 0 2 2 [0, 0, 0, 0], .readAndClear .bar 0 2 4 8, .musterFrame [0], .i3cPrivateWrite 0 [0],
    .domainOn ⟨0, 0⟩ 0 12, .domainOff ⟨0, 0⟩ 0 12], i.wf = false := by decide

theorem test_wf_hostRead : (Instr.hostDataReadDone 0 (.ok (List.replicate 8193 0))).wf = false := by decide +kernel

-- words ---------------------------------------------------------------------------------------------------------------------

/-- Words written out from Table 06-1: the opcode in [63:56], D, A and B below it, IMM in [31:0]. -/
theorem test_words :
    decodeStope 3 0x0105060700000000 = .add 3 5 6 7 0 ∧ decodeStope 0 0x0B01020080000001 = .addi 0 1 2 0 0x80000001 ∧
    decodeStope 0 0x1103040500000008 = .lds 0 3 4 5 8 ∧ decodeStope 0 0x1802030000000009 = .loop 0 2 3 0 9 ∧
    decodeStope 0 0x1B00040500000010 = .blt 0 0 4 5 16 ∧ decodeStope 0 0x2001020000000000 = .face 0 1 2 0 0 ∧
    decodeStope 0 0x331F1E1D0000001C = .vfma 0 31 30 29 28 ∧ decodeStope 0 0x5009020300010A0B = .put 0 9 2 3 0x00010A0B ∧
    decodeStope 0 0x6104020500100006 = .waitf 0 4 2 5 0x00100006 ∧ decodeStope 0 0x7001020300000000 = .hoist 0 1 2 3 0 := by decide +kernel

theorem test_reserved_words : decodeStope 0 0x1700000000000000 = .reservedOpcode 0 0x1700000000000000 ∧
    decodeStope 0 0x0120000000000000 = .reservedOpcode 0 0x0120000000000000 ∧
    decodeStope 0 0x2001020000040000 = .reservedOpcode 0 0x2001020000040000 ∧
    decodeStope 0 0x8000000000000000 = .reservedOpcode 0 0x8000000000000000 := by decide +kernel

-- stopes --------------------------------------------------------------------------------------------------------------------

theorem witness_StepRunsFront : { ready with pending := [.progCmdNone ⟨0, 0⟩ 0] }.pending = [.progCmdNone ⟨0, 0⟩ 0] ∧
    State.reset.pending = [] := by decide

theorem witness_ScalarArithmetic : ∀ op ∈ [0x01, 0x02, 0x03, 0x04, 0x05, 0x06, 0x07, 0x08, 0x09, 0x0A, 0x0B, 0x0C, 0x0D, 0x0E, 0x0F, 0x10],
    AtWord (atOp op 31 31 31 7) 0 op 31 31 31 7 := by decide +kernel

theorem witness_MovesAndTime : ∀ op ∈ [0x00, 0x13, 0x14, 0x15, 0x16],
    AtWord (atOp op 1 15 31 7) 0 op 1 15 31 7 ∧ AtWord (atOp op 15 15 31 7) 0 op 15 15 31 7 := by decide +kernel

theorem witness_ControlFlow : (∀ op ∈ [0x19, 0x1A, 0x1B, 0x1C, 0x1D, 0x1E, 0x1F],
    AtWord (atOp op 0 31 30 3) 0 op 0 31 30 3 ∧ AtWord (atOp op 0 31 30 4) 0 op 0 31 30 4) ∧ AtWord (atOp 0x18 3 31 0 2) 0 0x18 3 31 0 2 ∧
    issueWord (stope (atWord0 0x1700000000000000) 0) = some 0x1700000000000000 ∧ wordIllegal 0x1700000000000000 = true := by decide +kernel

theorem witness_VectorUnit : ∀ op ∈ [0x30, 0x31, 0x32, 0x33, 0x34, 0x35, 0x36, 0x37, 0x38, 0x39, 0x3A, 0x3B, 0x3C],
    AtWord (atOp op 31 31 31 30) 0 op 31 31 31 30 := by decide +kernel

/-- s2 holds an address of stope 0's pillar bank, whose tally the stope holds. -/
def atBank (op : Nat) (d a b : Byte) (imm : W32) (ad : W64) : State :=
  { ready with
    stopes := [(0, { Stope.reset with imem := [(0, wordOf op d a b imm)], codeLen := 4, prog := .running, a := [(a.toNat, ad)] })]
    regs := [(rkey (pgBank 0) BLK_OWNER, some (BitVec.ofNat 32 (65536 * btStope)))] }

theorem witness_LocalAccesses : ∀ q ∈ [(0x11, 8, false), (0x12, 8, true), (0x3D, 512, false), (0x3E, 512, true)],
    let s := atBank q.1 31 15 31 0 (BitVec.ofNat 64 (2 ^ 47))
    AtWord s 0 q.1 31 15 31 0 ∧ portAGate s 0 (areg s 0 15).toNat q.2.1 q.2.2 = .pass 0 ∧ anyBad s (areg s 0 15).toNat q.2.1 = false ∧
    portAGate s 0 (areg (atBank q.1 31 15 31 0 0) 0 15).toNat q.2.1 q.2.2 = .denied none ∧
    (areg (atBank q.1 31 15 31 0 4) 0 15).toNat % accAlign (q.2.1 == 512) ≠ 0 := by decide +kernel

theorem witness_LocalAccesses_bad : ∀ q ∈ [(0x11, 8, false), (0x12, 8, true), (0x3D, 512, false)],
    let s := { atBank q.1 31 15 31 0 (BitVec.ofNat 64 (2 ^ 47)) with ue := [2 ^ 47] }
    AtWord s 0 q.1 31 15 31 0 ∧ portAGate s 0 (areg s 0 15).toNat q.2.1 q.2.2 = .pass 0 ∧ anyBad s (areg s 0 15).toNat q.2.1 = true ∧
    (stope s 0).part = none ∧
    (q.1 = 0x12 → (store (served s 0 0) (areg s 0 15).toNat (storeBytes false (stope s 0) 31)).2 = true) := by decide +kernel

/-- Stope 0 holds its gallery bank and has performed three words of this vector access at the bank's first byte. -/
def inVector (op : Nat) : State :=
  let s := atBank op 31 15 31 0 (BitVec.ofNat 64 (bankBase 512))
  { s with
    stopes := [(0, { stope s 0 with part := some ⟨3, List.replicate 192 0, false, false⟩ })]
    regs := [(rkey (pgBank 512) BLK_OWNER, some (BitVec.ofNat 32 (65536 * btStope)))] }

theorem witness_LocalAccesses_rest : ∀ q ∈ [(0x3D, false), (0x3E, true)],
    AtWord (inVector q.1) 0 q.1 31 15 31 0 ∧ (areg (inVector q.1) 0 15).toNat % accAlign true = 0 ∧
    portAGate (inVector q.1) 0 (areg (inVector q.1) 0 15).toNat 512 q.2 = .pass 512 ∧ (stope (inVector q.1) 0).part ≠ none := by decide +kernel

theorem witness_LocalAccessFrame : ∀ i ∈ [Instr.lds 0 31 15 31 0, .sts 0 31 15 31 0, .vld 0 31 15 31 0, .vst 0 31 15 31 0],
    (∃ t, exec i ready = .next t) ∧ anyBad ready 0 512 = false := by
  intro i hi
  constructor
  · simp only [List.mem_cons, List.not_mem_nil, or_false] at hi
    rcases hi with rfl | rfl | rfl | rfl <;> exact ⟨_, rfl⟩
  · rfl

theorem witness_RegisterFrame : (∃ t, exec (.add 0 1 2 3 0) (atOp 0x01 1 2 3 0) = .next t) ∧
    (∃ t, exec (.amov 0 2 2 0 0) (atOp 0x14 2 2 0 0) = .next t) ∧ (∃ t, exec (.vadd 0 1 2 3 0) (atOp 0x30 1 2 3 0) = .next t) ∧
    (∃ t, exec (.jmp 0 0 0 0 1) (atOp 0x1E 0 0 0 1) = .next t) := ⟨⟨_, rfl⟩, ⟨_, rfl⟩, ⟨_, rfl⟩, ⟨_, rfl⟩⟩

theorem witness_OnlyTheWordAtPc : encodeStope (.add 0 1 2 3 0) = some (0, wordOf 0x01 1 2 3 0) ∧
    issueWord (stope ready 0) ≠ some (wordOf 0x01 1 2 3 0) := by decide +kernel

theorem witness_IllegalWordFaults : encodeStope (.add 0 32 2 3 0) = some (0, wordOf 0x01 32 2 3 0) ∧
    issueWord (stope (atOp 0x01 32 2 3 0) 0) = some (wordOf 0x01 32 2 3 0) ∧ wordIllegal (wordOf 0x01 32 2 3 0) = true := by decide +kernel

/-- Stope 0 waits for this. -/
def waiting0 (w : Waiting) : State := let s := atBank 0x00 0 2 0 0 (BitVec.ofNat 64 (2 ^ 47))
  setStope s 0 { stope s 0 with wait := some w }

theorem witness_Waits : (∀ op ∈ [0x55, 0x60, 0x62, 0x63], AtWord (atOp op 31 31 0 0) 0 op 31 31 0 0) ∧ immOk 0 = true ∧
    (stope (waiting0 (.until 5)) 0).wait = some (.until 5) ∧ 5 ≤ now (waiting0 (.until 5)) 0 ∧
    (stope (waiting0 (.flag 1 2 3 0 9)) 0).wait = some (.flag 1 2 3 0 9) ∧ 9 ≤ now (waiting0 (.flag 1 2 3 0 9)) 0 ∧
    (let s := atBank 0x61 31 15 31 0x0020001F (BitVec.ofNat 64 (2 ^ 47))
     let s1 := setStope s 0 (stope s 0).advance
     AtWord s 0 0x61 31 15 31 0x0020001F ∧ immOk 0x0020001F = true ∧ immC 0x0020001F < 32 ∧ immSub 0x0020001F < 3 ∧
     (areg s 0 15).toNat % 8 = 0 ∧ pollGate s1 0 (areg s 0 15).toNat 8 = .pass 0 ∧ anyBad s (areg s 0 15).toNat 8 = false) ∧
    (let s := waiting0 (.flag 1 (2 ^ 47) 3 0 9)
     (stope s 0).wait = some (.flag 1 (2 ^ 47) 3 0 9) ∧ pollGate s 0 (2 ^ 47) 8 = .pass 0 ∧ anyBad s (2 ^ 47) 8 = false) := by
  decide +kernel

/-- Stope 0 at this word with s2 = 64, a14 = a buffer in its pillar bank and a15 = the target; window 1 lets it multicast. -/
def atRemote (op : Nat) (d a b : Byte) (imm : W32) (ad : W64) : State :=
  let x : Stope := { Stope.reset with imem := [(0, wordOf op d a b imm)], codeLen := 4, prog := .running, s := [(2, 64)] }
  { ready with
    stopes := [(0, { x with a := [(14, BitVec.ofNat 64 (2 ^ 47 + 0x1FFFC0)), (15, ad)] })]
    routers := [(0, { Router.reset with live := { ProfCopy.reset 0 with mc := [(1, 0xC0000000)] } })]
    regs := [(rkey (pgStope 0) (WIN_BASE + 20), some 0x8000), (rkey (pgStope 0) (WIN_BASE + 24), some 512),
      (rkey (pgStope 0) (WIN_BASE + 28), some 0x10)] }

theorem witness_RemoteIssue : ∀ q ∈ [(0x50, 1, 64, 2 ^ 47), (0x51, 2, 64, 2 ^ 47), (0x52, 3, 64, 2 ^ 47), (0x53, 4, 8, 2 ^ 47 + 0x1FFFF8),
      (0x54, 5, 64, 2 ^ 50 + 2 ^ 47)],
    let s := atRemote q.1 31 15 14 2 (BitVec.ofNat 64 q.2.2.2)
    let r : Remote := ⟨q.2.1, 0, 0, 0, (areg s 0 15).toNat, (areg s 0 14).toNat, q.2.2.1, []⟩
    let o := newOp s 0 0 (.stope 0) (newMsg s 0 0 0 q.2.1 0 0 r.addr q.2.2.1 (now s 0 + budgetOf s 0 2) 0 []) r.buf 0
    AtWord s 0 q.1 31 15 14 2 ∧ legalFields q.1 31 15 14 2 = true ∧ asyncStalls (stope s 0) true = false ∧
    freeTicket (stope s 0) = some 1 ∧ remoteOk q.2.1 0 r.addr r.len = true ∧ stopeRights s 0 r = true ∧
    (q.2.1 = 5 → isRoot s 0 (groupOf r.addr) = true) ∧ stopeOpen s 0 = true ∧ windowOpen s 0 o = true ∧
    (admitOp { s with nextOp := s.nextOp + 1 } 0 (.stope 0) q.2.1 0 r.addr q.2.2.1 (budgetOf s 0 2) (budgetCap s 0 0) false).isSome = true := by
  decide +kernel

/-- Bytes in memory from an address on. -/
def bytesAt (a : Nat) (bs : List Byte) : List Host.Cell := (bs.mapIdx (fun i b => (a + i, b))).filter (fun c => c.2 ≠ 0)

/-- Stope 0, holding its pillar bank, at this word with a15 at its bank's first byte, where this descriptor stands. -/
def atDesc (op : Nat) (d a b : Byte) (imm : W32) (desc : List Byte) : State :=
  { atBank op d a b imm (BitVec.ofNat 64 (2 ^ 47)) with mem := bytesAt (2 ^ 47) desc }

/-- A face tile of one E2M1 row and one A4E token of 128 elements (Table 06-5). -/
def faceDesc : List Byte :=
  let p (o : Nat) : List Byte := toLE 8 (2 ^ 47 + o)
  p 0x10000 ++ toLE 8 0 ++ p 0x23000 ++ p 0x20000 ++ toLE 8 0 ++ p 0x21000 ++ toLE 8 0 ++ p 0x24000 ++ p 0x22000 ++ toLE 2 1 ++ toLE 2 1 ++
  toLE 4 128 ++ toLE 4 0x1205 ++ toLE 4 64 ++ toLE 4 4 ++ toLE 4 256 ++ List.replicate 32 0

/-- A W4 header of class SQ8 (Table 02-5). -/
def w4Header : List Byte :=
  let h := toLE 4 7 ++ toLE 4 0x204 ++ toLE 8 16384 ++ (List.range 16).map (BitVec.ofNat 8) ++ toLE 4 0x3F800000 ++ toLE 8 0 ++
    toLE 4 0x7F800000 ++ List.replicate 12 0
  h ++ toLE 4 (crc32c h).toNat

/-- A sweep of one tile (Table 05-3), its headers right behind. -/
def sweepDesc : List Byte :=
  let p (o : Nat) : List Byte := toLE 8 (2 ^ 47 + o)
  p 0x100000 ++ p 0xC0 ++ p 0x10000 ++ p 0x12000 ++ p 0xC0 ++ p 0x18000 ++ p 0x1A000 ++ toLE 8 0 ++ toLE 8 0 ++ toLE 8 0 ++
  p 0x120000 ++ p 0x130000 ++ p 0x140000 ++ toLE 4 0x3F800000 ++ toLE 4 0 ++ List.replicate 16 0 ++ toLE 2 1 ++ List.replicate 62 0 ++
  w4Header

/-- A QUANT of one line of 32 BF16 elements to A8F (Table 06-6). -/
def quantDesc : List Byte :=
  let p (o : Nat) : List Byte := toLE 8 (2 ^ 47 + o)
  p 0x10000 ++ p 0x11000 ++ p 0x12000 ++ List.replicate 40 0 ++ toLE 4 0x7F800000 ++ toLE 2 32 ++ toLE 2 1 ++ toLE 4 64 ++ toLE 4 2 ++ toLE 4 0x14 ++
  toLE 4 32 ++ List.replicate 40 0

/-- What the statement asks of an instruction that is queued. -/
def fitsLong (s : State) (w : Nat) (r : State × Sum W32 Job) : Bool :=
  let x := stope s 0
  let budget := budgetOf s 0 0
  (match r.2 with
    | .inr j => decide (x.queue.length < 4) && longGate s 0 0 && decide (runNs (x.queue.map (fun o => (o.cycles, o.mhz)) ++ [(j.cycles, cclk s 0)]) ≤ budget)
    | .inl _ => false) &&
  decide (issueWord x = some (wordOf w 31 15 0 0)) && legalFields w 31 15 0 0 && !asyncStalls x false && freeTicket x == some 1 &&
  decide (0 < budget) && decide (budget < 2 ^ 32)

theorem witness_LongIssue_face : fitsLong (atDesc 0x20 31 15 0 0 faceDesc) 0x20 (judgeFace (atDesc 0x20 31 15 0 0 faceDesc) 0 (2 ^ 47)) = true ∧
    (judgeFace (atDesc 0x20 31 15 0 0 faceDesc) 0 (2 ^ 47)).1 = atDesc 0x20 31 15 0 0 faceDesc := by decide +kernel

theorem witness_LongIssue_upd : fitsLong (atDesc 0x21 31 15 0 0 sweepDesc) 0x21 (judgeUpd (atDesc 0x21 31 15 0 0 sweepDesc) 0 (2 ^ 47)) = true ∧
    (judgeUpd (atDesc 0x21 31 15 0 0 sweepDesc) 0 (2 ^ 47)).1 = atDesc 0x21 31 15 0 0 sweepDesc := by decide +kernel

theorem witness_LongIssue_quant : fitsLong (atDesc 0x22 31 15 0 0 quantDesc) 0x22 (judgeQuant (atDesc 0x22 31 15 0 0 quantDesc) 0 (2 ^ 47)) = true ∧
    (judgeQuant (atDesc 0x22 31 15 0 0 quantDesc) 0 (2 ^ 47)).1 = atDesc 0x22 31 15 0 0 quantDesc := by decide +kernel

theorem witness_LongIssue_hoist :
    let s := { atBank 0x70 31 15 0 0 (BitVec.ofNat 64 (2 ^ 47)) with
      regs := [(rkey (pgChannel 0) BLK_OWNER, some (BitVec.ofNat 32 (65536 * btStope)))] }
    fitsLong s 0x70 (s, .inr ⟨[], [], [], 0, 0, 0, [], []⟩) = true ∧ ((stope s 0).sreg 0).toNat < 128 ∧
    launchAllowed s 0 ⟨btStope, 0⟩ (stopeWindows s 0) (2 ^ 47) = true ∧ launchRefused s 0 0 (budgetOf s 0 0) false = false ∧
    stopeOpen s 0 = true := by decide +kernel

/-- A device whose stope 0 is in this program state, its stacks open. -/
def inProg (p : ProgState) : State :=
  { ready with
    stopes := [(0, { Stope.reset with prog := p, codeLen := 1 })]
    stackTab := (List.range 8).map (fun k => (k, { Stack.reset with open_ := true })) }

/-- Stope 0 loads, and this much of its image has been read. -/
def loading0 (img : List Byte) (bad : Bool) : State :=
  let s := inProg .loading
  setStope s 0 { stope s 0 with img := img, imgBad := bad }

theorem witness_ProgramControl_load :
    (∀ s ∈ [loading0 [] false, loading0 [] true, loading0 (List.replicate 512 0) false], (stope s 0).prog = .loading) ∧
    (let y := stope (imageNext (loading0 [] false) 0) 0
     y.imgBad = false ∧ y.img.length < y.imageSize) ∧ (stope (imageNext (loading0 [] true) 0) 0).imgBad = true ∧
    (let y := stope (imageNext (loading0 (List.replicate 512 0) false) 0) 0
     y.imgBad = false ∧ y.imageSize ≤ y.img.length) := by decide +kernel

theorem witness_ProgramControl :
    isSafe (inProg .ready) 0 = false ∧ stopeOn (inProg .ready) 0 = true ∧ beforeReady (inProg .ready) = false ∧
    (stope (inProg .ready) 0).busy = false ∧ (stope (inProg .ready) 0).prog = .ready ∧ (stope (inProg .running) 0).prog = .running ∧
    isSafe (inProg .running) 0 = false ∧ (stope (inProg .stopping) 0).prog = .stopping ∧ (stope (inProg .stopping) 0).out = [] ∧
    (stope (inProg .loading) 0).prog = .loading := by decide +kernel

/-- Stope 0 holds its pillar bank and runs this operation, as it has come along. -/
def running0 (k : LongKind) (desc : List Byte) (at_ : LongOp → LongOp) : State :=
  let o : LongOp := {
    op := 7, kind := k, accepted := 0, deadline := 6000000000, cycles := 66, mhz := 2000, descAddr := 2 ^ 47, desc := desc.take 160
    hdrW := if k = .upd then w4Header ++ w4Header else [], hdrX := [], seed := 0, step := 0, init := none, run := none, canary := false
    chk := 0, area := 0, reReads := 0, stalls := 0, started := some 0, fetched := false, scales := [], tiles := 0, outBuf := none, wrote := [] }
  let s := atBank 0 0 0 0 0 0
  { s with stopes := [(0, { Stope.reset with prog := .running, queue := [at_ o] })] }

/-- The operation that `running0` runs. -/
def head0 (s : State) : LongOp := (stope s 0).queue.head?.getD {
  op := 0, kind := .face, accepted := 0, deadline := 0, cycles := 0, mhz := 2000, descAddr := 0, desc := [], hdrW := [], hdrX := [], seed := 0, step := 0
  init := none, run := none, canary := false, chk := 0, area := 0, reReads := 0, stalls := 0, started := none, fetched := false, scales := []
  tiles := 0, outBuf := none, wrote := [] }

/-- Stope 0 may use these ranges of its bank, and their words are readable. -/
def usable (s : State) (reads writes : List (Nat × Nat)) : Bool :=
  reads.all (fun r => !rangeDenied s 0 r.1 r.2 false && !anyBad s r.1 r.2) && writes.all (fun r => !rangeDenied s 0 r.1 r.2 true)

/-- One output word, settled OK. -/
def settled1 : FaceRun := ⟨[0x3F800000], 0, sOK, 0, false⟩

theorem witness_FacePasses_start :
    let s := running0 .face faceDesc id
    let o := head0 s
    let d := FaceDesc.parse o.desc
    (stope s 0).queue = [o] ∧ o.kind = .face ∧ o.started.isSome = true ∧ o.fetched = false ∧
    usable s ((if d.sq8 then [(d.wScl, d.sclLen d.geo)] else []) ++ (if d.acc then [(d.y, 4 * d.rows * d.tokens)] else [])) [] = true := by
  decide +kernel

/-- The bytes of `faceDesc`'s tile: weights and activations 1.0, scales 1.0. -/
def faceMem : List Host.Cell :=
  bytesAt (2 ^ 47 + 0x10000) (List.replicate 64 0x22) ++ bytesAt (2 ^ 47 + 0x20000) (List.replicate 64 0x22) ++
  bytesAt (2 ^ 47 + 0x21000) (List.replicate 4 127) ++ bytesAt (2 ^ 47 + 0x23000) (List.replicate 64 127)

/-- Sums that no tile of this size gives, and that this one might. -/
def wrongSum : List SumErr := [⟨0, 0, 0, 1000000⟩]
def nearSum : List SumErr := [⟨0, 0, 0, 1⟩]

/-- Its only pass is due. -/
def passing (at_ : LongOp → LongOp) : State := { running0 .face faceDesc (fun o => at_ { o with fetched := true }) with mem := faceMem }

theorem witness_FacePasses_pass :
    (∀ s ∈ [passing id, { passing id with regs := [] }, { passing id with ue := [2 ^ 47 + 0x10000] }, passing (fun o => { o with deadline := 0 })],
      (head0 s).fetched = true ∧ passDue s 0 = some (head0 s, false)) ∧
    (let d := FaceDesc.parse (head0 (passing id)).desc
     let denied (s : State) : Bool := (d.passReads false).any (fun r => rangeDenied s 0 r.1 r.2 false) || rangeDenied s 0 d.y (4 * d.rows * d.tokens) true
     let fails (errs : List SumErr) : Bool := (facePass (passing id) 0 (head0 (passing id)) d false errs).fails
     denied (passing id) = false ∧ denied { passing id with regs := [] } = true ∧ denied { passing id with ue := [2 ^ 47 + 0x10000] } = false ∧
     (d.passReads false).any (fun r => anyBad (passing id) r.1 r.2) = false ∧
     (d.passReads false).any (fun r => anyBad { passing id with ue := [2 ^ 47 + 0x10000] } r.1 r.2) = true ∧
     fails [] = false ∧ fails wrongSum = true ∧ replayFits (passing id) 0 (head0 (passing id)) false = true ∧
     replayFits (passing (fun o => { o with deadline := 0 })) 0 (head0 (passing (fun o => { o with deadline := 0 }))) false = false) := by
  decide +kernel

theorem witness_FacePasses_end :
    (∀ q ∈ [(sOK, 6000000000), (sCLIPPED, 6000000000), (sDENIED, 6000000000), (sOK, 0), (sCLIPPED, 0)],
      let s := passing (fun o => { o with run := some { settled1 with status := q.1 }, deadline := q.2 })
      (head0 s).run = some { settled1 with status := q.1 } ∧ settled1.fallback = false ∧ canaryOut s 7 = false ∧ (head0 s).outBuf = none ∧
      decide ((head0 s).deadline < now s 0) = decide (q.2 = 0) ∧ hasRun s 0 (head0 s) (tileCycles (head0 s)) = true) ∧
    (let s := passing (fun o => { o with run := some settled1 })
     (writePieces s (outputPieces (head0 s) settled1)).2 = [] ∧
     (writePieces { s with ue := [2 ^ 47 + 0x22000] } (outputPieces (head0 s) settled1)).2 ≠ []) := by decide +kernel

/-- A canary of `passing`'s tile runs, its copy in the partner's area, and the issuer's face gave this word. -/
def canaried (y : W32) : State :=
  let s := passing (fun o => { o with run := some { settled1 with outs := [y] } })
  { s with canaries := [⟨0, 7, .running, 0⟩], mem := s.mem ++ bytesAt (copyAt s 0 0) faceDesc }

theorem witness_Canaries_copy : findCanary { canaried 0 with canaries := [⟨0, 7, .copying, 0⟩] } 0 = some (⟨0, 7, .copying, 0⟩, head0 (canaried 0)) ∧
    (∀ st ∈ [sOK, sDENIED], let s := { passing (fun o => { o with run := some { settled1 with status := st } }) with canaries := [⟨0, 7, .running, 0⟩] }
      findCanary s 0 = some (⟨0, 7, .running, 0⟩, head0 s) ∧ (head0 s).run = some { settled1 with status := st }) := by decide +kernel

/-- What a face gives for the tile with these wrong sums: the issuer for its own descriptor, the partner for the copy's. -/
def gives (errs : List SumErr) : PassOut := facePass (canaried 0) 0 (head0 (canaried 0)) (FaceDesc.parse faceDesc) false errs

theorem witness_Canaries : findCanary (canaried 0) 0 = some (⟨0, 7, .running, 0⟩, head0 (canaried 0)) ∧
    (FaceDesc.parse (readMem (canaried 0) (copyBase (canaried 0) 0) 128)).sq8 = false ∧ (head0 (canaried 0)).scales = [] ∧
    FaceDesc.parse (readMem (canaried 0) (copyBase (canaried 0) 0) 128) = FaceDesc.parse faceDesc ∧
    (gives []).fails = false ∧ (gives nearSum).fails = false ∧ (gives nearSum).outs ≠ (gives []).outs ∧ (gives []).outs.length = 1 ∧
    (gives []).outs ≠ [0] ∧ (gives nearSum).outs ≠ [0] := by decide +kernel

/-- A sweep of one tile, as it has come along. -/
def sweeping (at_ : LongOp → LongOp) : State := running0 .upd sweepDesc at_

theorem witness_UpdTiles :
    let o (at_ : LongOp → LongOp) : LongOp := head0 (sweeping at_)
    let d := SweepDesc.parse (o id).desc
    (∀ at_ ∈ [id, fun o => { o with fetched := true }, fun o => { o with outBuf := some [(2 ^ 47, [1])] }],
      now (sweeping at_) 0 ≤ (o at_).deadline ∧ headOf (sweeping at_) 0 .upd = some (o at_) ∧ (o at_).status = sOK ∧ (o at_).tiles < d.count ∧
      hasRun (sweeping at_) 0 (o at_) (1 * sweepTileCycles d) = true ∧
      hasRun (sweeping at_) 0 (o at_) (1 * sweepTileCycles d - 64) = true ∧ hasRun (sweeping at_) 0 (o at_) (0 * sweepTileCycles d) = true) ∧
    ((o id).outBuf = none ∧ (o id).fetched = false ∧ usable (sweeping id) (sweepRecords (o id) d 0) [] = true ∧
      (List.range d.count).any (sweepBadScale (sweeping id) (o id) d) = false) ∧
    (let o1 := o (fun o => { o with fetched := true })
     o1.outBuf = none ∧ o1.fetched = true ∧ usable (sweeping (fun o => { o with fetched := true })) (sweepReads o1 d 0)
       (sweepWrites o1 d 0 ++ d.hdrs.map (fun h => (h, 64))) = true) ∧
    (writePieces (spoilScratch (sweeping (fun o => { o with outBuf := some [(2 ^ 47, [1])] })) d) [(2 ^ 47, [1])]).2 = [] := by decide +kernel

theorem witness_UpdEnds :
    let s := sweeping (fun o => { o with tiles := 1 })
    let p := head0 s
    headOf (sweepOn (sweepParts (SweepDesc.parse p.desc).count) s 0) 0 .upd = some p ∧ p.status = sOK ∧
    (SweepDesc.parse p.desc).count ≤ p.tiles := by decide +kernel

theorem witness_QuantEnds :
    (let s := running0 .quant quantDesc id
     let o := head0 s
     let d := o.quantDesc
     now s 0 ≤ o.deadline ∧ headOf s 0 .quant = some o ∧ o.run = none ∧ hasRun s 0 o o.cycles = true ∧
     usable s (d.elemRuns ++ d.reads.drop 1) d.writes = true) ∧
    (let s := running0 .quant quantDesc (fun o => { o with run := some (runEnd 0 sOK 0), outBuf := some [(2 ^ 47, [1])] })
     (head0 s).run = some (runEnd 0 sOK 0) ∧ (writePieces s ((head0 s).outBuf.getD [])).2 = []) := by decide +kernel

theorem witness_CounterClears : isSafe ready 0 = false ∧ 2 ≤ domain ready (domHalf (halfOf 511)) ∧ isSafe ready 1 = false := by decide +kernel

/-- An access of 64 bytes, up to the last byte of pillar bank 0. -/
def access (k : AccKind) : Access := {
  id := 3, kind := k, addr := 2 ^ 47 + 0x1FFFC0, len := 64, data := List.replicate 64 1, deadline := 6000000000, cls := 0, by_ := ⟨btStope, 0⟩
  entered := false, client := .none, done := 0, got := [], coll := false, poison := false, denied := false, passed := none }

theorem witness_PortB : ∀ k ∈ [AccKind.read, .write, .atomic 0, .atomic 1, .atomic 2, .atomic 3, .atomic 4, .atomic 5, .flagSet 31, .flagAdd 31],
    let s := { ready with banks := [(0, { Bank.reset with queue := [access k] })] }
    let x := access k
    edfHead (bank s 0).queue = some x ∧ (bank s 0).toMode = none ∧ now s (aDie x.addr) < x.deadline ∧ inCanaryArea s 0 x.addr x.len = false ∧
    exclDenies s x.by_ x.entered x.addr x.len = false ∧ isBad s (x.addr + x.done) = false := by decide +kernel

/-- Bank 0 in mode `m` with this access at its port B, and stope 0's load or store at its port A, at an address of the bank. -/
def bothPorts (m : W32) (x : Access) (op : Nat) (ad : W64) : State :=
  let s := atBank op 31 15 31 0 ad
  { s with banks := [(0, { Bank.reset with queue := [x] })], regs := (rkey (pgBank 0) MODE, some m) :: s.regs }

/-- The port-A word of `bothPorts`. -/
def portWord (op : Nat) : PortA := .access 0 (wordOf op 31 15 31 0)

theorem witness_PortB_shared : ∀ k ∈ [AccKind.read, .write, .atomic 5, .flagSet 31], ∀ q ∈ [(0x11, false), (0x12, true)],
    (let s := bothPorts 0 (access k) q.1 (BitVec.ofNat 64 (2 ^ 47 + 0x1FFFF8))
     portAUse s 0 (portWord q.1) = some ⟨2 ^ 47 + 0x1FFFF8, 8, q.2⟩ ∧ meets (access k).addr 64 ⟨2 ^ 47 + 0x1FFFF8, 8, q.2⟩ = true ∧
     normalMode s 0 = true ∧ normalMode (bothPorts 3 (access k) q.1 0) 0 = false) ∧
    (let s := bothPorts 0 (access k) q.1 (BitVec.ofNat 64 (2 ^ 47 + 0x1FFFB8))
     portAUse s 0 (portWord q.1) = some ⟨2 ^ 47 + 0x1FFFB8, 8, q.2⟩ ∧ meets (access k).addr 64 ⟨2 ^ 47 + 0x1FFFB8, 8, q.2⟩ = false ∧
     sameSub (access k).addr ⟨2 ^ 47 + 0x1FFFB8, 8, q.2⟩ = true) ∧
    (let s := bothPorts 0 (access k) q.1 (BitVec.ofNat 64 (2 ^ 47))
     portAUse s 0 (portWord q.1) = some ⟨2 ^ 47, 8, q.2⟩ ∧ meets (access k).addr 64 ⟨2 ^ 47, 8, q.2⟩ = false ∧
     sameSub (access k).addr ⟨2 ^ 47, 8, q.2⟩ = false) := by decide +kernel

/-- An access whose second word is its last, its deadline passed: it has begun. -/
def begunAccess (k : AccKind) : Access :=
  { access k with addr := 2 ^ 47 + 0x1FFF80, len := 128, data := List.replicate 128 1, done := 64, deadline := 5000000000 }

theorem witness_PortB_due : ∀ k ∈ [AccKind.read, .write, .atomic 4],
    let x := begunAccess k
    let s := bothPorts 0 x 0x12 (BitVec.ofNat 64 (2 ^ 47 + 0x1FFF80))
    let u : PortAUse := ⟨2 ^ 47 + 0x1FFF80, 8, true⟩
    edfHead (bank s 0).queue = some x ∧ hasBegun s x = true ∧ x.done ≠ 0 ∧ x.deadline ≤ now s (aDie x.addr) ∧ portAUse s 0 (portWord 0x12) = some u ∧
    meets (x.addr + x.done) (wordLen x) u = false ∧ sameSub (x.addr + x.done) u = true := by decide +kernel

/-- Nothing ranked was written in the present cycle. -/
theorem unrivalled_of_none (s : State) (w : Agent) (pg off : Nat) (h : s.ranked = []) : Unrivalled s w pg off := by
  intro e he; rw [h] at he; cases he

/-- Stope 511 holds pillar bank 511, whose array is in mode `m`. -/
def bankHeld (m : W32) (by_ : Agent) : State :=
  { ready with regs := [(rkey (pgBank 511) BLK_OWNER, some (ownerWord by_)), (rkey (pgBank 511) MODE, some m)] }

theorem witness_BankModes :
    let hf : Agent := ⟨btHeadframe, 0⟩
    let s := bankHeld 1 hf
    isSafe s (pgBank 511 / 8192) = false ∧ isParent s hf (pgBank 511) = true ∧ s.ranked = [] ∧
    holder s (pgBank 511) = hf ∧ fld (rd s (pgBank 511) MODE) 1 0 = 1 ∧
    (bank { ready with banks := [(511, { Bank.reset with toMode := some 3 })] } 511).toMode = some 3 := by decide +kernel

theorem witness_BankModes_rival :
    let w : Agent := ⟨btStope, 511⟩
    let e : RankedWrite := ⟨pgBank 511, MODE, ⟨btHeadframe, 0⟩, rankOf ready ⟨btHeadframe, 0⟩ (pgBank 511), []⟩
    let s := { ready with ranked := [e] }
    e ∈ s.ranked ∧ e.page = pgBank 511 ∧ e.off = MODE ∧ e.by_ ≠ w ∧ e.rank < rankOf s w (pgBank 511) := by decide +kernel

/-- Channel 255 held by a stope, its lease ending at `l`. -/
def channelHeld (l : W32) : State :=
  { ready with regs := [(rkey (pgChannel 255) BLK_OWNER, some (ownerWord ⟨btStope, 511⟩)), (rkey (pgChannel 255) BLK_LEASE_END, some l)] }

theorem witness_Leases :
    let r : Res := .channel 255
    let s := channelHeld 0
    let stope : Agent := ⟨btStope, 511⟩
    let host : Agent := ⟨btHost, 0⟩
    let hf : Agent := ⟨btHeadframe, 0⟩
    isSafe s (resPage r / 8192) = false ∧ s.ranked = [] ∧ mayHold s r host = true ∧ writesAsHolder s r stope = true ∧
    host ≠ holder s (resPage r) ∧ writesAsHolder s r hf = false ∧ isParent s hf (resPage r) = true ∧ mayHold s r hf = true ∧
    leaseOver s r = false := by decide +kernel

/-- The lease that stands is as it was where its end has not come. -/
theorem witness_Leases_due : dueEnd (channelHeld 0) (.channel 255) = channelHeld 0 := by
  have h : leaseOver (channelHeld 0) (.channel 255) = false := by decide +kernel
  simp only [dueEnd, h]; rfl

theorem witness_Leases_end :
    (BitVec.ofNat 32 5000001 - nowMicros (channelHeld 0) 1).toNat = 1 ∧
    (BitVec.ofNat 32 1805000000 - nowMicros (channelHeld 0) 1).toNat = 1800000000 := by decide +kernel

theorem witness_Leases_over :
    leaseOver (channelHeld 5000001) (.channel 255) = false ∧ leaseOver (channelHeld 5000000) (.channel 255) = true := by
  decide +kernel

theorem witness_HandoverNamesTheHolder :
    let s := channelHeld 0
    (∀ b, Res.channel 255 ≠ .bank b) ∧ mayHold s (.channel 255) ⟨btHost, 0⟩ = true ∧ writesAsHolder s (.channel 255) ⟨btStope, 511⟩ = true ∧
    leaseOver s (.channel 255) = false ∧ Unrivalled s ⟨btStope, 511⟩ (pgChannel 255) BLK_OWNER ∧
    ∃ t, exec (.handover ⟨btStope, 511⟩ (.channel 255) ⟨btHost, 0⟩) s = .next t := by
  refine ⟨fun b h => (by cases h), by decide +kernel, by decide +kernel, by decide +kernel, unrivalled_of_none _ _ _ _ rfl, ⟨_, rfl⟩⟩

/-- Stack 7 as given. -/
def stack7 (x : Stack) : State := { ready with stackTab := [(7, { x with open_ := true })] }

theorem witness_Stacks :
    (let x : Access := { access .read with addr := 2 ^ 49, kind := .write }
     let s := { ready with stackTab := [(4, { Stack.reset with open_ := true, queue := [x] })] }
     (∀ ahead, stackTakes (stack s 4) (now s 1) ahead = some x) ∧ x.client = .none ∧ now s 1 < x.deadline ∧ (sectorsOf x).all (fun q => !isBad s q) = true ∧
     regionListed s x = false) ∧
    (stack (stack7 { Stack.reset with remapping := [0, 5] }) 7).remapping = [0, 5] ∧
    ((stack (stack7 Stack.reset) 7).thermal = 0 ∧ domain (stack7 Stack.reset) (domStack 7) = 2) ∧
    (∀ c ∈ [(80 : Nat), 81],
     let s := stack7 { Stack.reset with thermal := 2, lastTemp := c, le95 := some 4990000000 }
     isParent s ⟨btForeman, 7⟩ (pgStack 7) = true ∧ isSafe s 1 = false ∧ s.ranked = [] ∧ heldFor (stack s 7).le95 (now s 1) 10000000 = true ∧
     (stack s 7).thermal = 2) ∧
    (stack ready 0).open_ = false ∧ domain ready (domStack 0) = 2 := by decide +kernel

/-- Stack 4 with this one request in its queue, and this layer on die 1. -/
def stack4 (x : Access) (l : RemoteLayer) : State :=
  { ready with stackTab := [(4, { Stack.reset with open_ := true, queue := [x] })], layers := [(1, l)] }

/-- A request for the first 64 bytes of stack 4. -/
def stackReq (k : AccKind) (c : Client) (due : Nat) : Access := { access k with addr := 2 ^ 49, client := c, deadline := due }

/-- A message that no stream carries, to a home on die 1. -/
def plainMsg (opc : BitVec 8) : Msg := ⟨opc, 0, 0, 0, 0, 2 ^ 49, 6000000000, 5, 0, 0, 0, 0, 0, 0, 0, 0, 0, [1], false, none⟩

/-- An operation at its home with pieces left. -/
def homeOp (f : HomeFor) (left : Nat) : HomeOp := ⟨9, plainMsg 2, f, 0, left, false, false, false, false, false, 0, [1]⟩

theorem witness_Stacks_taken :
    (∀ k ∈ [AccKind.read, .write], ∀ c ∈ [Client.none, .source 1 4, .writeBack 1 4, .home 1 9 0],
      (let x := stackReq k c 6000000000
       let s := stack4 x { RemoteLayer.reset with homes := [homeOp .remote 1] }
       (∀ ahead, stackTakes (stack s 4) (now s 1) ahead = some x) ∧ now s 1 < x.deadline ∧
       (sectorsOf x).filter (fun q => isBad s q && readsSector x q) = [] ∧ regionListed s x = false) ∧
      (let x := stackReq k c 5000000000
       let s := stack4 x { RemoteLayer.reset with homes := [homeOp .remote 1] }
       (∀ ahead, stackTakes (stack s 4) (now s 1) ahead = some x) ∧ x.deadline ≤ now s 1 ∧ homeBegun s x = false)) ∧
    (let x := stackReq .read (.home 1 9 0) 6000000000
     let s := { stack4 x RemoteLayer.reset with ue := [2 ^ 49 + 32] }
     (sectorsOf x).filter (fun q => isBad s q && readsSector x q) ≠ [] ∧ now s 1 < x.deadline) ∧
    (let x := stackReq .read (.home 1 9 0) 5000000000
     homeBegun (stack4 x { RemoteLayer.reset with homes := [{ homeOp .remote 1 with begun := true }] }) x = true) := by decide +kernel

theorem witness_Stacks_answers :
    let o : ROp := ⟨4, .stope 0, plainMsg 2, 10, .back 0 0, 0, 4000000000, 1, false⟩
    findOp (stack4 (stackReq .read (.source 1 4) 6000000000) { RemoteLayer.reset with ops := [o] }) 1 4 = some o ∧ o.phase = .back 0 0 ∧
    (∀ f ∈ [HomeFor.remote, .hoist 0 4, .fill true 5000001000, .image 0 0], ∀ left ∈ [1, 2],
      let h := homeOp f left
      let s := stack4 (stackReq .read (.home 1 9 0) 6000000000) { RemoteLayer.reset with homes := [h] }
      (layer s 1).homes.find? (fun h => h.id = 9) = some h ∧ h.late = false ∧ h.denied = false ∧ h.poison = false ∧ h.reason = 0 ∧
      h.coll = false ∧ h.for_ = f ∧ h.left = left) := by decide +kernel

theorem witness_Stacks_heat :
    (∀ th ∈ [0, 1, 2, 3], domain (stack7 { Stack.reset with thermal := th }) (domStack 7) = 2 ∧
      isSafe (stack7 { Stack.reset with thermal := th }) 1 = false ∧ (stack (stack7 { Stack.reset with thermal := th }) 7).thermal = th ∧
      stackCritical (stack7 { Stack.reset with thermal := th }) 7 = decide (th = 2)) ∧
    heldFor (since true 5000000000 (some 4999000000)) 5000000000 1000000 = true ∧
    heldFor (since true 5000000000 (some 4999000001)) 5000000000 1000000 = false := by decide +kernel

/-- A descriptor (Table 10-1) without strides or tensor. -/
def hDesc (w len count src dst param value addr target : Nat) : List Byte :=
  toLE 4 w ++ toLE 2 len ++ toLE 2 count ++ toLE 8 src ++ toLE 8 dst ++ toLE 12 0 ++ toLE 4 param ++ toLE 8 value ++ toLE 8 addr ++ toLE 8 target

/-- Channel 255 runs a script of the acting headframe, whose descriptors have been read, at this descriptor and phase. -/
def scripted (idx : Nat) (phase : HPhase) (descs : List (Nat × List Byte)) (inner : List Inner) (ended : Option (Nat × Nat)) : State :=
  let r := newScript ⟨btHeadframe, 0⟩ 9 0 0 6000000000 allWindows
  { ready with
    stackTab := (List.range 8).map (fun k => (k, { Stack.reset with open_ := true }))
    channels := [(255, { Channel.reset with run := some { r with descs := descs, idx := idx, phase := phase, inner := inner, ended := ended } })] }

/-- The script of channel 255. -/
def script255 (s : State) : Script := (channel s 255).run.getD (newScript ⟨0, 0⟩ 0 0 0 0 [])

/-- What HoistDescriptors asks of a channel in whose script this descriptor, with those after it, has been read. -/
def issues (idx op : Nat) (bs : List (List Byte)) (more : State → Script → HDesc → Bool) : Bool :=
  let s := scripted idx .ready (bs.mapIdx (fun i b => (idx + i, b))) [] none
  let r := script255 s
  let d := HDesc.parse (bs.headD [])
  decide ((channel s 255).run = some r) && decide (r.ended = none) && decide (r.phase = .ready) && !isSafe s 1 && engineTurn s 255 &&
  decide (r.desc r.idx = some d) && d.ok && !d.link && decide (d.op = op) && more s r d &&
  (match fetchDesc s 255 idx with
    | .ok t [] => decide ((channel t 255).run = some r)
    | _ => false)

/-- Its side streams have been read, and the descriptor keeps R201 with them. -/
def withSides (s : State) (r : Script) (d : HDesc) : Bool :=
  match fetchSides 4 s 255 (r.idx + 1) with
  | .ok u [] => decide ((channel u 255).run = some r) && leadOk d (r.sides r.idx)
  | _ => false

/-- Its side streams have been read, and the one at this place is the first that breaks R201. -/
def breaksAt (k : Nat) (s : State) (r : Script) (d : HDesc) : Bool :=
  match fetchSides 4 s 255 (r.idx + 1) with
  | .ok u [] => decide ((channel u 255).run = some r) && !leadOk d (r.sides r.idx) && decide (brokenLink d (r.sides r.idx) = some k)
  | _ => false

def hEnd : List Byte := hDesc 0 0 0 0 0 0 0 0 0

theorem witness_HoistDescriptors :
    issues 0 hHEAD [hDesc 1 0 2 0 (2 ^ 47) 0 5 6 0] (fun _ _ _ => true) = true ∧
    issues 1 hMOVE [hDesc 2 4096 65535 (2 ^ 47) 4096 0 0 0 0, hEnd] withSides = true ∧
    issues 1 hEXPAND [hDesc 3 4096 1 4096 (2 ^ 47) 0 0 0 0, hDesc (2 + 64 + 2 * 2 ^ 18) 8 1 0x100000 0 0 0 0 0, hEnd] withSides = true ∧
    issues 1 hCOMPRESS [hDesc 4 4096 1 (2 ^ 47) 4096 255 0 0 0, hDesc (2 + 64 + 2 * 2 ^ 18) 8 1 0 0x100000 0 0 0 0, hEnd] withSides = true ∧
    issues 1 hTABLE [hDesc (5 + 7 * 2 ^ 20) 0 0 4096 0 0 0 0 0] (fun _ _ _ => true) = true ∧
    issues 1 hKVGATHER [hDesc (6 + 3 * 2 ^ 18) 0 1 4096 (2 ^ 47) 0 0 0 0] (fun _ _ _ => true) = true ∧
    issues 1 hSETB [hDesc 7 0 0 0 0 3 9 0 0] (fun _ _ _ => true) = true ∧
    issues 1 hLOOP [hDesc 8 0 0 1 2 0 3 0 2] (fun _ r d => loopOk r d) = true ∧
    issues 1 hWAIT [hDesc (9 + 2 * 2 ^ 18) 0 0 0 0 100 7 (2 ^ 49 + 2 ^ 47) 0] (fun s _ d => waitPlaceOk s 255 d.addr) = true ∧
    issues 1 hFLAG [hDesc (10 + 2 ^ 18) 0 0 0 0 31 7 (2 ^ 49 + 2 ^ 47) 0] (fun _ _ _ => true) = true ∧
    issues 1 hFENCE [hDesc 11 0 0 0 0 0 0 0 0] (fun _ _ _ => true) = true ∧
    issues 1 hEND [hEnd] (fun _ _ _ => true) = true := by decide +kernel

/-- A LINK of role 2, twice. -/
theorem witness_HoistDescriptors_broken :
    let link := hDesc (2 + 64 + 2 * 2 ^ 18) 8 1 0x100000 0 0 0 0 0
    issues 1 hMOVE [hDesc 2 4096 65535 (2 ^ 47) 4096 0 0 0 0, link, link, hEnd] (breaksAt 0) = true ∧
    issues 1 hEXPAND [hDesc 3 4096 1 4096 (2 ^ 47) 0 0 0 0, link, link, hEnd] (breaksAt 1) = true ∧
    issues 1 hCOMPRESS [hDesc 4 4096 1 (2 ^ 47) 4096 255 0 0 0, hDesc (2 + 64 + 2 * 2 ^ 18) 8 1 0 0x100000 0 0 0 0, hEnd, hEnd] (breaksAt 1) = false ∧
    issues 1 hCOMPRESS [hDesc 4 4096 1 (2 ^ 47) 4096 255 0 0 0, hDesc (2 + 64 + 2 * 2 ^ 18) 8 1 0 0x100000 0 0 0 0,
      hDesc (2 + 64 + 2 * 2 ^ 18) 8 1 0 0x100000 0 0 0 0, hEnd] (breaksAt 1) = true := by decide +kernel

/-- An EXPAND of the slot at 0 with its map entry at 1 MiB, both of which have been read. -/
def expanding (entry slot : List Byte) : State :=
  scripted 0 .run [(0, hDesc 3 4096 1 0 (2 ^ 49 + 2 ^ 47) 0 0 0 0), (1, hDesc (2 + 64 + 2 * 2 ^ 18) 8 1 0x100000 0 0 0 0 0)]
    [⟨uSide 2 0, true, none, some (sOK, 0), entry⟩, ⟨uLead 0, true, none, some (sOK, 0), slot⟩] none

/-- What HoistEvents asks of a block that is read, with the verdict on it. -/
def blockOf (entry slot : List Byte) : Option BlockVerdict :=
  let s := expanding entry slot
  let r := script255 s
  match r.desc 0 with
  | none => none
  | some d =>
    if d.op = hEXPAND ∧ expandPlaceOk s r d = true ∧ r.phase = .run ∧ r.ended = none ∧ engineTurn s 255 = true then
      (match readBlock s 255 r d (r.sides 0) with
        | .ok u stored => some (blockVerdict u 255 r d (r.sides 0) stored)
        | _ => none)
    else none

theorem witness_HoistEvents_fail : blockOf (toLE 8 (2 ^ 45)) [] = some (.fail (checkWord 2 false 0)) := by decide +kernel

theorem rawEntry_fields (c : Nat) (h : c < 2 ^ 32) : entRaw (mapEntry c 0 true 0) = true ∧ entryOk (mapEntry c 0 true 0) = true ∧
    entEpoch (mapEntry c 0 true 0) = 0 ∧ leAt (mapEntry c 0 true 0) 0 4 = c := by
  have hv : leAt (mapEntry c 0 true 0) 0 8 = c + 2 ^ 44 := by
    unfold mapEntry; rw [leAt_toLE, if_pos rfl]; omega
  have h4 (v : Nat) : leAt (toLE 8 v) 0 4 = v % 2 ^ 32 := by
    have e : toLE 8 v = toLE 4 v ++ toLE 4 (v / 256 / 256 / 256 / 256) := rfl
    rw [e, leAt_left _ _ _ _ (by simp), leAt_toLE]; try omega
  have e (hi lo : Nat) : bitsOf (leAt (mapEntry c 0 true 0) 0 8) hi lo = (c + 2 ^ 44) / 2 ^ lo % 2 ^ (hi + 1 - lo) := by rw [hv, bitsOf_eq]
  have hr : entRaw (mapEntry c 0 true 0) = true := by unfold entRaw; rw [e, beq_iff_eq]; omega
  refine ⟨hr, ?_, ?_, ?_⟩
  · unfold entryOk entLen
    rw [hr, if_pos rfl]; simp only [e, Bool.and_eq_true, decide_eq_true_eq]; omega
  · unfold entEpoch; rw [e]; omega
  · unfold mapEntry; rw [h4, if_pos rfl]; omega

/-- A raw block passes with the entry that its CRC makes. -/
theorem witness_HoistEvents_pass (key table : Nat → Option (List Byte)) (fmt slot : Nat) (bs : List Byte) (h : bs.length = 4096) :
    judgeBlock key table fmt slot (mapEntry (crc32c bs).toNat 0 true 0) bs = .pass bs := by
  have f := rawEntry_fields (crc32c bs).toNat (crc32c bs).isLt
  have hs : sliceB bs 0 4096 = bs := by
    rw [sliceB_inside _ _ _ (by omega), List.drop_zero, ← h, List.take_length]
  unfold judgeBlock
  rw [f.1, f.2.1, f.2.2.1, f.2.2.2, hs]
  simp

/-- A WAIT of channel 255, with what it has read. -/
def flagWait (a : Nat) (inner : List Inner) : State := scripted 0 (.waitFlag 5000000000) [(0, hDesc 9 0 0 0 0 100 7 a 0)] inner none

theorem witness_HoistEvents :
    ((waiting (flagWait (2 ^ 49 + 2 ^ 47) []) 255).map (fun x => x.2.2) = some 5000000000 ∧ 5000000000 ≤ now ready 1 ∧
      (match readUnit (flagWait (2 ^ 49 + 2 ^ 47) []) 255 uPoll (2 ^ 49 + 2 ^ 47) 8 with
        | .wait _ => true
        | _ => false) = true) ∧
    ((waiting (flagWait (2 ^ 49 + 2 ^ 48) []) 255).isSome = true ∧
      (match readUnit (flagWait (2 ^ 49 + 2 ^ 48) []) 255 uPoll (2 ^ 49 + 2 ^ 48) 8 with
        | .ok _ _ => true
        | _ => false) = true) ∧
    (match readUnit (flagWait (2 ^ 49 + 2 ^ 47) [⟨uPoll, true, none, some (sOK, 0), toLE 8 7⟩]) 255 uPoll (2 ^ 49 + 2 ^ 47) 8 with
      | .ok _ bs => decide (bs = toLE 8 7)
      | _ => false) = true ∧
    (let s := scripted 0 (.slotted []) [] [⟨0, true, none, none, []⟩] none
     (script255 s).phase = .slotted [] ∧ (script255 s).ended = none ∧ engineTurn s 255 = true ∧
     (script255 s).inner.any Inner.refused = true) ∧
    stepEnds (script255 (scripted 0 (.released []) [] [] none)) = true ∧
    (let s := { scripted 0 .ready [] [] (some (sOK, 0)) with
       channels := (scripted 0 .ready [] [] (some (sOK, 0))).channels.map (fun c => (c.1, { c.2 with run := c.2.run.map (fun r => { r with summed := true }) })) }
     (script255 s).ended = some (sOK, 0) ∧ (script255 s).quiet = true ∧ (script255 s).summed = true ∧ (script255 s).recs = []) := by
  decide +kernel

theorem witness_ChannelCommands :
    let hf : Agent := ⟨btHeadframe, 0⟩
    let own : Sparse (Option W32) := [(rkey (pgChannel 255) BLK_OWNER, some (ownerWord hf))]
    (let s := { ready with regs := own }
     isSafe s (channelDie 255) = false ∧ (service s (channelDie 255)).state = 2 ∧ beforeReady s = false ∧
     launchAllowed s 255 hf (holderWindows s hf) (rd64 s (pgChannel 255) SCRIPT_LO).toNat = true ∧
     launchRefused s 255 0 (promise s 1 0) false = false ∧ holder s (pgChannel 255) = hf ∧ holder s (pgChannel 255) ≠ ⟨btHost, 0⟩) ∧
    (let s := { scripted 0 .ready [] [] none with regs := own }
     holder s (pgChannel 255) = hf ∧ (channel s 255).run = some (script255 s) ∧ (script255 s).ended = none) := by decide +kernel

/-- A message of stream (5, 0, 0, Express) for pillar bank 0, and die 0 with it in its inbox. -/
def msg1 (opc : BitVec 8) (seq : W32) : Msg := ⟨opc, 0, 0, 0, seq, BitVec.ofNat 64 (2 ^ 47), 6000000000, 5, 0, 0, 0, 0, 0, 0, 0, 0, 0, [1], false, none⟩
def inbox (m : Msg) (L : RemoteLayer) : State := { ready with layers := [(0, { L with inbox := [⟨m, none, 3⟩] })] }

/-- The message at the front of die 0's inbox passes its stream and its checks. -/
def passes (s : State) (m : Msg) : Option State :=
  match takeMsg s 0 m with
  | none => none
  | some (s1, _) =>
    let r := judgeStream s1 0 m
    let q := judgeOp r.1 0 m
    if r.2 && q.2 then some q.1 else none

def stream0 : InStream := ⟨5, 0, 0, 0, 0, 0, 0, 0, []⟩

theorem witness_MessagesAtHome :
    ((passes (inbox (msg1 1 0) RemoteLayer.reset) (msg1 1 0)).map (fun t => isHeld t 0 (msg1 1 0))) = some false ∧
    ((passes (inbox (msg1 1 1) { RemoteLayer.reset with inStreams := [stream0] }) (msg1 1 1)).map (fun t => isHeld t 0 (msg1 1 1))) = some true ∧
    (passes (inbox (msg1 2 0) RemoteLayer.reset) (msg1 2 0)).isSome = true ∧ isSafe ready 0 = false ∧
    (let m := msg1 1 0
     let s := { ready with layers := [(0, { RemoteLayer.reset with heldPuts := [m] })] }
     m ∈ (layer s 0).heldPuts ∧ isHeld s 0 m = false ∧ (judgeOp (unhold s 0 m) 0 m).2 = true ∧ (judgeOp (unhold s 0 m) 0 m).1 = unhold s 0 m) ∧
    (let m := { msg1 1 0 with deadline := 5000000000 }
     let s := { ready with layers := [(0, { RemoteLayer.reset with heldPuts := [m] })] }
     m ∈ (layer s 0).heldPuts ∧ m.deadline.toNat ≤ now s 0) ∧
    (let m := { msg1 5 0 with addr := BitVec.ofNat 64 (2 ^ 50 + 2 ^ 47) }
     let s := { ready with
       layers := [(0, { RemoteLayer.reset with inbox := [⟨m, some 11, 3⟩] })]
       routers := [(0, { Router.reset with live := { ProfCopy.reset 0 with mc := [(1, 0x8B000001)] } })] }
     let e := Sparse.get 0 (copyOf s 0 m.gen.toNat).mc (groupOf m.addr.toNat)
     ((takeMsg s 0 m).map (fun r => r.2.via)) = some (some 11) ∧ m.opc = 5 ∧ bitsOf m.addr.toNat 63 58 = 0 ∧ fld e 31 31 = 1 ∧ fld e 28 24 = 11 ∧
     combineRoom s 0 m = true) := by decide +kernel

/-- A PUT of stope 0 that has been sent. -/
def sentOp : ROp := ⟨4, .stope 0, { msg1 1 0 with src := 0 }, 0, .sent, 0, 4000000000, 1, false⟩

theorem witness_Completions :
    (let m := { msg1 8 0 with data := [] }
     let s := inbox m { RemoteLayer.reset with ops := [sentOp] }
     ((takeMsg s 0 m).map (fun r =>
       decide (r.2.via = none) && decide ((layer r.1 0).ops.find? (fun o => decide (o.phase = .sent) && answers m r.2.via.isNone o) = some sentOp) &&
       decide (now r.1 0 + guardNs sentOp.origin ≤ sentOp.msg.deadline.toNat))) = some true ∧
     isSafe s 0 = false) ∧
    (let m := { msg1 9 0 with data := [] }
     let s := inbox m { RemoteLayer.reset with inStreams := [stream0] }
     ((takeMsg s 0 m).map (fun r => inStream r.1 0 m)) = some (some stream0) ∧ stream0.incarn = m.incarn) ∧
    (let x : OutStream := ⟨2, 3, 255, 3, 0, 0, [], [], some 4999998000⟩
     let s := { ready with layers := [(0, { RemoteLayer.reset with outStreams := [x] })] }
     (layer s 0).outStreams.find? (fun x => decide (x.dest = 2) && decide (x.kind = 3) && decide (x.agent = 255) && decide (x.cls = 3)) = some x ∧
     4999998000 + 2000 ≤ now s 0) ∧
    (let s := { ready with layers := [(1, { RemoteLayer.reset with ops := [sentOp] })] }
     anyOp s 4 = some (1, sentOp) ∧ sentOp.sentAt + retryNs s 1 sentOp ≤ now s 1 ∧ now s 1 < sentOp.msg.deadline.toNat) ∧
    (let o := { sentOp with msg := { sentOp.msg with deadline := 5000000000 } }
     let s := { ready with layers := [(0, { RemoteLayer.reset with ops := [o] })] }
     anyOp s 4 = some (0, o) ∧ timerAt o ≤ now s 0) ∧
    (let o : LongOp := { head0 ready with op := 7, deadline := 5000000100 }
     let s := { ready with stopes := [(0, { Stope.reset with prog := .running, queue := [o] })] }
     anyOp s 7 = none ∧ findLong s 7 = some (0, o) ∧ o.deadline ≤ now s 0 + 100 ∧ onlyCanary s 0 o = none) ∧
    (let r := newScript ⟨btStope, 0⟩ 7 0 0 5000000100 []
     let s := { ready with channels := [(0, { Channel.reset with run := some r })] }
     anyOp s 7 = none ∧ findLong s 7 = none ∧ findScript s 7 = some (0, r) ∧ r.deadline ≤ now s 0 + 100) ∧
    (let c : Combine := ⟨3, { msg1 5 0 with deadline := 5000001500 }, 31, 1, [], [0], true, 0, 0, 0, 0, false⟩
     let s := { ready with layers := [(0, { RemoteLayer.reset with combines := [c] })] }
     (layer s 0).combines.find? (fun c => decide (c.id = 3) && !c.sent) = some c ∧ c.msg.deadline.toNat ≤ now s 0 + 1000 * c.depth + 500) := by decide +kernel

/-- A part of a combined completion at die 0, from port 0, with one failure at member 5; and a copy that went on port 0. -/
def partMsg (sub : BitVec 4) : Msg := { msg1 8 0 with sub := sub, addr := BitVec.ofNat 64 (2 ^ 32 + 5), data := [] }
def spread (wait : List Nat) (sent : Bool) : Combine := ⟨3, msg1 5 0, 11, 1, [0], wait, false, 0, 0, 0, 0, sent⟩

theorem witness_Completions_part : ∀ c ∈ [spread [0] false, spread [] false, spread [0] true, spread [] true], ∀ sub ∈ [(0 : BitVec 4), 4],
    let s := { ready with layers := [(0, { RemoteLayer.reset with inbox := [⟨partMsg sub, some 0, 3⟩], combines := [c] })] }
    isSafe s 0 = false ∧ (takeMsg s 0 (partMsg sub)).map (fun r => r.2.via) = some (some 0) ∧ (partMsg sub).opc = 8 ∧
    combinedFor s 0 (partMsg sub) = some (0, c) := by decide +kernel

/-- A line whose sharer, die 5, has not answered invalidation 9. -/
def line0 : DirLine := ⟨2 ^ 47, [⟨5, 5000000000, some 9⟩], [], []⟩
def coh (opc : BitVec 8) (deadline : W64) : Msg := { msg1 opc 0 with tag := 9, deadline := deadline, data := List.replicate 256 0 }

/-- Die 0 with this line in its directory. -/
def withLine (l : DirLine) : State := { ready with layers := [(0, { RemoteLayer.reset with dir := [l] })] }

theorem witness_Coherence :
    (∀ o ∈ [(0x10, RemoteLayer.reset), (0x12, RemoteLayer.reset), (0x13, { RemoteLayer.reset with dir := [line0] }),
        (0x14, { RemoteLayer.reset with dir := [line0] }), (0x15, { RemoteLayer.reset with dir := [line0] }), (0x13, RemoteLayer.reset),
        (0x14, RemoteLayer.reset)],
      let m := coh (BitVec.ofNat 8 o.1) 6000000000
      let r := cohTake (inbox m o.2) 0 o.1 m
      r.2 = true ∧ dirLine r.1 0 (low50 m.addr.toNat) = if o.2.dir = [] then none else some line0) ∧
    (∀ x ∈ [((0 : Nat), true, true), (5000000001, false, false), (5000000000, false, true)],
      let m := coh 0x11 (BitVec.ofNat 64 x.1)
      let r := cohTake (inbox m RemoteLayer.reset) 0 0x11 m
      r.2 = true ∧ decide (m.deadline = 0) = x.2.1 ∧ decide (m.deadline.toNat ≤ now r.1 0) = x.2.2) ∧
    line0.sharers.any (fun x => decide (x.node = 5) && decide (x.tag = some 9)) = true ∧
    (∀ l ∈ [{ line0 with heldWrites := [⟨msg1 1 0, .remote⟩] }, { line0 with heldGets := [msg1 0x10 0] }],
     dirLine (withLine l) 0 (2 ^ 47) = some l ∧ (l.heldWrites ≠ [] ∨ l.heldGets ≠ []) ∧ l.live (now (withLine l) 0) = []) := by decide +kernel

/-- A frame with LSEQ 0 on a lane. -/
def frame0 (ty lane : Nat) (body : List Byte) : RxFrame := ⟨0, lane, 4095, false, ty, 3, 0, 0, frameBytes body.length false, body⟩

/-- Port 0 as given. -/
def port0 (x : Port) : State := { ready with ports := [(0, x)] }
def upPort : Port := { Port.reset with st := 5, lastTx := 1, rxNext := 0 }

/-- The port accepts the frame. -/
def accepts (x : Port) (ty lane : Nat) (body : List Byte) : Bool :=
  (match checkFrame (encodeFrame (frame0 ty lane body)) with
    | .good f => decide (f.ftype = ty) && decide (f.lseq = x.rxNext)
    | _ => false) &&
  (receive (port0 x) 0 (encodeFrame (frame0 ty lane body)) ty).2.isSome

theorem witness_FramesInSequence_good : accepts upPort 3 4 (List.replicate 32 0) = true ∧ linkRuns (port0 upPort) 0 = true ∧ upPort.keys = none := by
  decide +kernel

/-- An idle frame whose CRC is inverted, and one with a wrong header CRC. -/
def stomped0 : List Byte :=
  let b := encodeFrame (frame0 1 4 [])
  b.take 28 ++ (b.drop 28).map (fun v => v ^^^ 0xFF)

theorem witness_FramesInSequence_bad : checkFrame stomped0 = .stomped ∧ checkFrame (List.replicate 32 0) = .bad ∧
    (receive (port0 { upPort with rxNext := 4095 }) 0 (encodeFrame (frame0 3 4 (List.replicate 32 0))) 3).2 = none := by decide +kernel

/-- An idle frame whose CRC fails while its header CRC holds. -/
def broken0 : List Byte :=
  let b := encodeFrame (frame0 1 4 [])
  b.take 28 ++ (b.drop 28).map (fun v => v ^^^ 1)

theorem witness_FramesInSequence_broken :
    (match checkFrame broken0 with
      | .broken _ => true
      | _ => false) = true ∧ upPort.nakSent = false ∧ { upPort with nakSent := true }.nakSent = true := by decide +kernel

theorem witness_FramesInSequence_encrypted :
    accepts upPort 0 0 (List.replicate 76 0) = true ∧ { upPort with keys := some ⟨[], [], [], []⟩ }.keys = some ⟨[], [], [], []⟩ := by decide +kernel

/-- A notice that a port sent nothing of message `msg1` for want of credit. -/
def notice1 : Msg := { msg1 1 0 with reason := 7, data := [] }

/-- An encrypted port, and an operation frame too short for the tag. -/
def sealedPort : Port := { upPort with keys := some ⟨[], [], [], []⟩ }

theorem witness_FramesArrive_tag :
    (match checkFrame (encodeFrame (frame0 0 0 (List.replicate 60 0))) with
      | .good g => decide (g.ftype = 0) && tagFails (port (port0 sealedPort) 0) g
      | _ => false) = true ∧ linkRuns (port0 sealedPort) 0 = true := by decide +kernel

theorem witness_FramesArrive :
    accepts upPort 0 0 (msgBytes (msg1 1 0)) = true ∧ carries upPort.st 0 = true ∧ (parseMsg (msgBytes (msg1 1 0))).isSome = true ∧
    accepts { upPort with st := 3 } 0 0 (msgBytes (msg1 1 0)) = true ∧ accepts upPort 1 4 [] = true ∧
    accepts { upPort with st := 4 } 4 4 (msgHeader notice1) = true ∧ (parseNotice (msgHeader notice1)).isSome = true ∧
    accepts { upPort with st := 3 } 2 4 (List.replicate 80 0) = true ∧ accepts upPort 3 4 (List.replicate 32 0) = true ∧ upPort.lastTx ≠ 0 ∧
    accepts upPort 5 4 (toLE 8 0) = true := by decide +kernel

/-- CRC-32C with every intermediate value forced, for long strings. -/
def crcRun : Nat → List Byte → Nat
  | c, [] => c
  | 0, b :: bs => crcRun (crc32cByte 0 b) bs
  | c + 1, b :: bs => crcRun (crc32cByte (c + 1) b) bs

theorem crcRun_eq (bs : List Byte) : ∀ c, crcRun c bs = bs.foldl crc32cByte c := by
  induction bs with
  | nil => intro c; cases c <;> rfl
  | cons b bs ih => intro c; cases c <;> exact ih _

/-- A middle fragment of an SPDM message of 1,026 bytes, at offset 1 (R364), and its frame. -/
def fragment1 : List Byte := toLE 2 0 ++ toLE 2 1 ++ toLE 2 1026 ++ toLE 2 0 ++ List.replicate 1024 0
def fragmentFrame : List Byte :=
  let h := linkHead (frame0 6 4 fragment1)
  h ++ toLE 4 (crc16 (h ++ fragment1.take 48)) ++ fragment1 ++ List.replicate 4 0
def fragmentCrc : Nat := 0x2C317032
def fragmentWhole : List Byte := fragmentFrame ++ toLE 4 fragmentCrc

theorem fragmentFrame_crc : (crc32c fragmentFrame).toNat = fragmentCrc := by
  rw [crc32c, ← crcRun_eq]; decide +kernel

theorem fragment_good : checkFrame fragmentWhole = .good { frame0 6 4 fragment1 with body := fragment1 ++ List.replicate 4 0 } := by
  have h : (crc32c (fragmentWhole.take (fragmentWhole.length - 4))).toNat = fragmentCrc := by
    have e : fragmentWhole.take (fragmentWhole.length - 4) = fragmentFrame := by decide +kernel
    rw [e, fragmentFrame_crc]
  simp only [checkFrame, h]
  decide +kernel

theorem witness_FramesArrive_attest :
    let x : Port := { upPort with st := 3, attest := 1, fragments := [9] }
    (receive (port0 x) 0 fragmentWhole 6).2.isSome = true ∧ fragmentOk x.fragments.length (fragment1 ++ List.replicate 4 0) = true ∧
    x.fragments.length + (fragmentData (fragment1 ++ List.replicate 4 0)).length < leAt fragment1 4 2 ∧ leAt fragment1 2 2 ≠ 0 := by
  refine ⟨?_, by decide +kernel⟩
  simp only [receive, fragment_good]
  decide +kernel

def held1 : LFrame := ⟨0, 4, 0, .idle, 32, true, none⟩

/-- A queued idle frame, and a PUT queued with a deadline that has passed. -/
def queued1 : LFrame := { held1 with sent := false }
def late1 : LFrame := { queued1 with lane := 0, p := .op { msg1 1 0 with deadline := 4000000000 }, inPort := some 0 }

theorem witness_FramesLeave_transmit :
    let due (x : Port) : Option LFrame := x.held.find? (fun f => !f.sent && carriesP x.st f.lane f.p)
    let first (x : Port) : Option LFrame := firstFrame (((List.range 5).filterMap (laneHead x)).filter (mayLeave x 5000000000))
    (let x := port (dropLate (port0 { upPort with held := [queued1] }) 0) 0
     due x = some queued1) ∧
    (let x := port (dropLate (port0 { upPort with queue := [queued1] }) 0) 0
     due x = none ∧ first x = some queued1) ∧
    (let x := port (dropLate (port0 upPort) 0) 0
     due x = none ∧ first x = none) := by decide +kernel

theorem witness_FramesLeave_late :
    let s := { ready with ports := [(23, { upPort with queue := [queued1, late1] })] }
    (port s (12 * 1 + 11)).queue[1]? = some late1 ∧ late1.late (now s 1) = true := by decide +kernel

theorem witness_FramesLeave :
    linkRuns (port0 upPort) 0 = true ∧ upPort.sentAt + 1000 ≤ elapsed (port0 upPort) ∧ 3 ≤ upPort.st ∧
    upPort.timeSent + 1000000 ≤ elapsed (port0 upPort) ∧
    (let x := { upPort with held := [held1], progressAt := 4999992000 }
     x.held ≠ [] ∧ x.progressAt + 8000 ≤ elapsed (port0 x) ∧ x.replays + 1 < 8 ∧ linkRuns (port0 x) 0 = true) ∧
    (let x := { upPort with st := 2, training := .agree 0 }
     linkRuns (port0 x) 0 = true ∧ x.agreeing = true ∧ x.agreeSent + 1000000 ≤ elapsed (port0 x)) ∧
    (let s := { port0 upPort with service := [(0, { Service.reset with state := 4 })] }
     portOn s 0 = true ∧ isSafe s (portDie 0) = true) ∧
    (let q : QFrame := ⟨.op (msg1 1 0), 4, 0, 3, false, some 0⟩
     let r : QFrame := ⟨.op { msg1 1 0 with deadline := 5999999999 }, 1, 0, 3, false, some 0⟩
     let s := { ready with routers := [(0, { Router.reset with queue := [r, q] })], bridge := { Bridge.reset with st := 1 } }
     (router s 0).queue[1]? = some q ∧ isSafe s 0 = false ∧
     ∀ x ∈ (router s 0).queue.zipIdx, servedFirst x.1 q x.2 1 = true → wayOf s 0 x.1 = .wait) ∧
    (let q : QFrame := ⟨.op { msg1 1 0 with deadline := 5000000000 }, 4, 0, 3, false, some 0⟩
     let s := { ready with routers := [(0, { Router.reset with queue := [q] })] }
     (router s 0).queue[0]? = some q ∧ q.p.deadline = some 5000000000 ∧ 5000000000 ≤ now s 0) := by decide +kernel

theorem witness_Training :
    isSafe ready (portDie 0) = false ∧ domain ready (domPort 0) = 2 ∧ isParent ready ⟨btForeman, 0⟩ (pgPort 0) = true ∧
    ready.ranked = [] ∧
    (3 ≤ upPort.st ∧ upPort.st ≤ 5 ∧ upPort.training ≠ .fast) ∧
    (port (port0 { upPort with training := .fast }) 0).training = .fast ∧
    (port (port0 { upPort with st := 2, training := .electrical }) 0).training = .electrical ∧
    (port (port0 { upPort with st := 1, training := .failed 4000000000 }) 0).training = .failed 4000000000 ∧
    4000000000 + 1000000000 ≤ elapsed ready ∧
    (port ready 0).st = 1 ∧ (port ready 0).training = .none ∧
    (let x := { upPort with st := 2, training := .agree 4990000000 }
     linkRuns (port0 x) 0 = true ∧ 4990000000 + 10000000 ≤ elapsed (port0 x)) ∧
    (let x := { upPort with st := 3, attest := 1, attestAt := 4950000000 }
     linkRuns (port0 x) 0 = true ∧ x.attest = 1 ∧ x.attestAt + 50000000 ≤ elapsed (port0 x)) := by decide +kernel

/-- An agree frame's body: class, revision, node-die. -/
def agreeOf (cls rev node : Nat) : List Byte := toLE 4 cls ++ toLE 4 rev ++ toLE 2 node ++ List.replicate 70 0

theorem witness_AgreementOutcome :
    let own := agreeOf 1 0x100 2
    let is (own peer : List Byte) (o : Nat × Nat) : Prop := agreeOutcome own { upPort with peerAgree := peer } = o
    is own (agreeOf 2 0x100 4) (3, 1) ∧ is own (agreeOf 1 0x200 4) (3, 2) ∧ is own (agreeOf 1 0x1FF 4 |>.set 0x20 1) (3, 3) ∧
    is own (agreeOf 1 0x1FF 0x7FFF) (3, 4) ∧ is own (agreeOf 1 0x1FF 3) (3, 5) ∧
    agreeOutcome own { upPort with peerAgree := agreeOf 1 0x1FF 4, crypt := true } = (3, 6) ∧
    is own (agreeOf 1 0x1FF 4) (5, 0) ∧ agreeOutcome own { upPort with peerAgree := agreeOf 1 0x1FF 4, theta := 26 } = (4, 0) ∧
    agreeOutcome own { upPort with st := 4, peerAgree := agreeOf 1 0x1FF 4, good := 1 } = (4, 0) ∧
    agreeOutcome own { upPort with st := 4, peerAgree := agreeOf 1 0x1FF 4, crypt := true, attest := 2, good := 2 } = (5, 0) := by
  decide +kernel

/-- Die 0 as the time root, its time pulse in use. -/
def rootTime (x : TimeBlk) : State :=
  { ready with
    times := [(0, x)]
    routers := [(0, { Router.reset with live := { ProfCopy.reset 0 with tregs := [(TIME_CTL, some 3)] } })] }

/-- Time-doubt of die 0 that has lasted 60 s, and this doubt of die 1. -/
def doubtful (t1 : Option Ns) : State :=
  { ready with
    boot := { ready.boot with up := 70000000000 }
    times := [(0, { TimeBlk.reset with now := 9, isSet := true, st := 2, doubtAt := some 10000000000 }),
      (1, { TimeBlk.reset with now := 9, isSet := true, st := 2, doubtAt := t1 })] }

/-- Time-doubt of both dies of a split device that has lasted 60 s. -/
def bothDoubtful : State := { State.reset with
  boot := { State.reset.boot with up := 70000000000 }, split := true
  times := (doubtful (some 10000000000)).times }

theorem witness_TimeCommands_both : longDoubt bothDoubtful 0 = true ∧ longDoubt (enterSafe bothDoubtful 0 2 false) 1 = true := by
  decide +kernel

/-- A pulse, this long after the last one taken, of a root in this state with so many in a row, or of a device that is not the root. -/
theorem witness_TimeCommands_pulse :
    (∀ x ∈ [((1001000001 : Nat), (1 : Nat), (0 : Nat)), (1001000000, 2, 1), (999000000, 1, 0), (998999999, 1, 0)],
      let y := { TimeBlk.reset with now := 7000000000, isSet := true, st := x.2.1, ppsRow := x.2.2, ppsRef := some (7000000000 - x.1) }
      let s := rootTime y
      ppsOn s = true ∧ (timeBlk s 0).ppsRef = some (7000000000 - x.1) ∧ (timeBlk s 0).now - (7000000000 - x.1) = x.1 ∧ isTimeRoot s 0 = true ∧
      (timeBlk s 0).st = x.2.1 ∧ (timeBlk s 0).ppsRow = x.2.2) ∧
    isTimeRoot ready 0 = false := by decide +kernel

theorem witness_TimeCommands :
    (ready.bridge.st = 2 ∧ ready.split = false ∧ isSafe ready 0 = false ∧ (timeBlk ready 0).bridgeSent + 1000000 ≤ elapsed ready) ∧
    ((timeBlk ready 1).st = 1 ∧ isTimeRoot ready 1 = false ∧ (timeBlk ready 1).lastValid + 10000000 ≤ elapsed ready) ∧
    (let s := doubtful none
     longDoubt s 0 = true ∧ longDoubt s 1 = false ∧ isSafe s 0 = false) ∧
    (let s := rootTime { TimeBlk.reset with now := 2000000000, isSet := true, st := 1 }
     isTimeRoot s 0 = true ∧ ppsOn s = true ∧ isSafe s 0 = false ∧ (timeBlk s 0).st = 1 ∧ (timeBlk s 0).ppsAt + 2000000000 ≤ (timeBlk s 0).now ∧
     (timeBlk s 0).ppsRef = none) := by decide +kernel

/-- The host port of a ready device: rings of four entries, aperture 0 open for reads and writes. -/
def hostReady (h : HostPort) : State :=
  { ready with
    host := { h with linkUp := true }
    regs := [(rkey pgHost RQ_SIZE, some 2), (rkey pgHost CQ_SIZE, some 2), (rkey pgHost (AP_BASE + 8), some 9)] }

/-- A host GET of four bytes of pillar bank 0 (Table 14-2). -/
def request (opc addr : Nat) : List Byte := toLE 8 (opc + 2 ^ 16 * 3) ++ toLE 8 addr ++ List.replicate 48 0

/-- How a request is judged: 0 denied, its OPC where it goes, 99 refused. -/
def judged (bs : List Byte) : Nat :=
  match judgeHost ready (requestOp bs) with
  | .denied => 0
  | .go _ => (requestOp bs).opc
  | _ => 99

theorem witness_HostQueue :
    isSafe (hostReady HostPort.reset) 0 = false ∧ beforeReady ready = false ∧ 1 ≤ (hostReady HostPort.reset).boot.step ∧
    (let s := hostReady { HostPort.reset with enabled := true, tail := 3 }
     mayFetch s = true ∧ (request 2 (2 ^ 47)).length = 64) ∧
    requestBad (request 6 0) = true ∧ requestBad (request 2 (2 ^ 47)) = false ∧
    judged (request 2 (3 * 2 ^ 47)) = 0 ∧ requestBad (request 2 (3 * 2 ^ 47)) = false ∧
    judged (request 2 (2 ^ 47)) = 2 ∧
    (let o : ROp := { sentOp with phase := .prep, origin := .host 4 }
     let s := { ready with layers := [(0, { RemoteLayer.reset with ops := [o] })] }
     findOp s 0 4 = some o ∧ o.phase = .prep ∧ o.origin = .host 4 ∧ timerPast s 0 o = false ∧ ([1] : List Byte).length = msgLen o.msg) ∧
    timerPast ready 0 { sentOp with msg := { sentOp.msg with deadline := 5000000000 } } = true ∧
    (hostReady HostPort.reset).boot.released = true ∧ (hostReady HostPort.reset).host.linkUp = true := by decide +kernel

/-- The host's writes abort: the device is safe, or has been released and its headframe runs not yet. -/
theorem witness_HostQueue_aborts :
    let safe := { hostReady HostPort.reset with service := [(0, { Service.reset with state := 4 })] }
    safe.boot.released = true ∧ isSafe safe 0 = true ∧ safe.host.linkUp = true ∧
    { State.reset.boot with released := true }.step = 0 := by decide +kernel

/-- A notice without payload from sender 15. -/
def notice15 : List Byte := toLE 8 15 ++ List.replicate 56 0

/-- Mailbox 31 held by headframe task 15, with these notices. -/
def mail (ctl : W32) (q : List (List Byte)) : State :=
  { ready with
    regs := [(rkey (pgMailbox 31) BLK_OWNER, some (ownerWord ⟨btHeadframe, 15⟩)), (rkey (pgMailbox 31) M_CTL, some ctl)]
    mailboxes := [(31, q)] }

theorem witness_DoorbellsAndPosts :
    (hostReady HostPort.reset).host.enabled = false ∧ (hostReady { HostPort.reset with enabled := true }).host.enabled = true ∧
    isParent ready ⟨btHeadframe, 0⟩ pgHost = true ∧ isParent ready ⟨btStope, 0⟩ pgHost = false ∧ ready.ranked = [] ∧ noticeOk notice15 = true ∧ mbShared (mail 0 []) 31 = false ∧
    holder ready (pgMailbox 31) ≠ mbHolder 31 15 ∧
    (let s := mail 0 (List.replicate 8 notice15)
     holder s (pgMailbox 31) = mbHolder 31 (leAt notice15 0 1 % 16) ∧ 8 ≤ (mailbox s 31).length) := by decide +kernel

theorem witness_DoorbellsAndPosts_posts :
    noticeOk [] = false ∧
    (let s := dueEnd (mail 0 []) (.mailbox 30)
     mbShared s 30 = false ∧ holder s (pgMailbox 30) ≠ mbHolder 30 (leAt notice15 0 1 % 16)) ∧
    (let s := dueEnd (mail 0 (List.replicate 8 notice15)) (.mailbox 31)
     mbShared s 31 = false ∧ holder s (pgMailbox 31) = mbHolder 31 (leAt notice15 0 1 % 16) ∧ 8 ≤ (mailbox s 31).length) ∧
    (let s := dueEnd (mail 1 [notice15]) (.mailbox 31)
     mbShared s 31 = true ∧ mailbox s 31 ≠ []) ∧
    (let p : Posted := ⟨31, notice15, [], 0, 0, none, none, false⟩
     let s := { mail 0 [notice15] with host := { HostPort.reset with posts := [p] } }
     s.host.posts.filter (fun q => q.mailbox = 31) = [p]) := by decide +kernel

theorem witness_MailboxPopsAndInterrupts :
    ready.host.posts = [] ∧ noticeOk notice15 = true ∧
    mailbox ready 31 = [] ∧ mailbox (mail 4 [notice15]) 31 = [notice15] ∧
    (holder (mail 0 (List.replicate 7 notice15)) (pgMailbox 31) = mbHolder 31 15 ∧
     (mailbox (mail 0 (List.replicate 7 notice15)) 31).length < mbPlaces (mail 0 []) 31) ∧
    (mbShared (mail 1 []) 31 = true ∧ (mailbox (mail 1 []) 31).length < mbPlaces (mail 1 []) 31) := by decide +kernel

theorem witness_AperturesAndConfiguration :
    let s := hostReady HostPort.reset
    s.host.linkUp = true ∧ isSafe s 0 = false ∧ 1 ≤ s.boot.step ∧ beforeReady s = false ∧ fld (apCtl s 0) 0 0 = 1 ∧ fld (apCtl s 0) 3 3 = 1 ∧
    apFits (2 ^ 32 - 4096) 4096 = true ∧ s.host.aps.any (fun y => y.held && y.write) = false ∧
    fld (apCtl ready (2 ^ 32 / 2 ^ 32)) 0 0 = 0 ∧ fld (apCtl ready 0) 3 3 = 0 ∧ s.boot.released = true ∧ State.reset.host.linkUp = false ∧
    isSafe { s with service := [(0, { Service.reset with state := 4 })] } 0 = true ∧
    (let x : ApAccess := ⟨0, true, 0, 2 ^ 47, 1, [1], true, []⟩
     let u := hostReady { HostPort.reset with aps := [x] }
     u.host.aps.find? (fun x => x.held && x.write) = some x ∧ u.host.aps.any (fun y => y.held && y.write) = true) := by decide +kernel

theorem witness_RegisterAccess :
    let pg := gpage 1 0x4FF
    let kj := pageKind 1 0x4FF
    ready.boot.released = true ∧ regOf pg PROG_ENTRY = some ⟨.rw, 0x1FFF, 0⟩ ∧ isTable kj.1 = false ∧ 0x40 ≤ PROG_ENTRY ∧ isSafe ready 1 = false ∧
    (0x1FFF : W32).toNat &&& (2 ^ 32 - 1 - 0x1FFF) = 0 ∧ pageOn ready pg = true ∧
    ownWrite ready ⟨btHost, 0⟩ kj.1 1 kj.2 PROG_ENTRY 0x1FFF = none ∧ valueOk ready kj.1 1 kj.2 PROG_ENTRY 0x1FFF = true ∧ pageBusy ready pg = false ∧
    regOf pg ASYNC_FAIL = some ⟨.rc, m32, 0⟩ ∧ (regOf (gpage 1 0x8F) MESH_STALLS).isSome = true ∧ (pageKind 1 0x8F).1 = .level := by decide +kernel

theorem witness_WritesByAccess :
    let hf : Agent := ⟨btHeadframe, 0⟩
    let safe := { ready with service := [(0, { Service.reset with state := 4 })] }
    let pg := pgOutlier 511
    let k := (pageKind (pg / 8192) (pg % 8192)).1
    servePage safe 2 = 2 ∧ isSafe safe 0 = true ∧ servePage ready pg = pg ∧ isSafe ready (pg / 8192) = false ∧ regOf pg 0xFFC = none ∧
    regOf pg 0x48 = some ⟨.ro, m32, 0⟩ ∧ isTable k = false ∧ isSafe safe (pgHeadframe 0 / 8192) = true ∧ servePage safe (pgHeadframe 0) = pgHeadframe 0 ∧
    (regOf pg FB_CTL = some ⟨.rws, 0xFF, 4⟩ ∧ roRest k FB_CTL = true ∧ (0xFF : W32).toNat &&& (2 ^ 32 - 1 - 0xFF) = 0 ∧
      pageOn ready pg = true ∧ isManaged k FB_CTL = false ∧ ownWrite ready hf k 1 255 FB_CTL 0xFF = none ∧
      valueOk ready k 1 255 FB_CTL 0xFF = true) ∧
    (pageOn { ready with domains := [] } pg = false ∧ neverRefused k FB_CTL 0xFF = false ∧ isSafe { ready with domains := [] } 1 = false ∧
      servePage { ready with domains := [] } pg = pg) ∧
    (let q := pgMailbox 31
     regOf q M_COLL = some ⟨.w1c, 1, 0⟩ ∧ roRest (pageKind 0 (q % 8192)).1 M_COLL = false ∧ (2 : W32).toNat &&& (2 ^ 32 - 1 - 1) ≠ 0 ∧ 0x40 ≤ M_COLL ∧ pageOn ready q = true ∧ servePage ready q = q ∧
     ownWrite ready hf (pageKind 0 (q % 8192)).1 0 31 M_COLL 1 = none ∧ valueOk ready (pageKind 0 (q % 8192)).1 0 31 M_COLL 1 = true) := by
  decide +kernel

theorem witness_WritesByAccess_tables :
    (pageKind 0 0x220).1 = .liveRoutes ∧ (regOf 0x220 0xFFC).isSome = true ∧ servePage ready 0x220 = 0x220 ∧
    (pageKind 0 0x241).1 = .liveMc ∧ (regOf 0x241 2044).isSome = true ∧ servePage ready 0x241 = 0x241 := by decide +kernel

theorem witness_WritesByAccess_managed :
    let hf : Agent := ⟨btHeadframe, 0⟩
    let pg := pgRmop 0
    let k := (pageKind 0 (pg % 8192)).1
    servePage ready pg = pg ∧ isSafe ready 0 = false ∧ (regOf pg SYS_EPOCH).map (fun r => r.acc) = some .rws ∧ isTable k = false ∧
    0x40 ≤ SYS_EPOCH ∧ pageOn ready pg = true ∧ ownWrite ready hf k 0 0 SYS_EPOCH 1 = none ∧ valueOk ready k 0 0 SYS_EPOCH 1 = true ∧
    ((regOf pg SYS_EPOCH).map (fun r => decide (1 &&& (2 ^ 32 - 1 - r.mask) = 0))) = some true ∧
    isManaged k SYS_EPOCH = true ∧ mayManage ready hf pg k = true ∧ ready.ranked = [] ∧ mayManage ready ⟨btStope, 0⟩ pg k = false ∧
    ownWrite ready ⟨btStope, 0⟩ k 0 0 SYS_EPOCH 1 = none := by decide +kernel

theorem witness_RefusedWriteRecorded : pgOutlier 511 < 16384 ∧ 2 ≤ pgOutlier 511 % 8192 ∧
    isTable (pageKind (pgOutlier 511 / 8192) (pgOutlier 511 % 8192)).1 = false := by decide +kernel

theorem witness_Commits :
    (isSafe ready 1 = false ∧ hasOwnRws (pageKind 1 0x4FF).1 = true) ∧
    (let c : Commit := ⟨1, 0x4FF, 65535, []⟩
     let s := { ready with commits := [c] }
     s.commits.find? (fun c => c.die = 1 ∧ c.page = 0x4FF) = some c ∧ mayApply s (gpage 1 0x4FF) = true) ∧
    (let s := { ready with split := true }
     isSafe s 1 = false ∧ (1 : W32).toNat = (genLive s 1 + 1) % 65536 ∧ oldDrained s 1 = true ∧ (deviceDies s 1).contains 0 = false) ∧
    ((1 : W32).toNat = (genLive ready 1 + 1) % 65536 ∧ oldDrained ready 1 = true ∧ (deviceDies ready 1).contains 0 = true) ∧
    (let s := { ready with undrained := [0, 1] }
     s.undrained.contains 1 = true ∧ s.copying.contains 1 = false ∧ oldGone s (deviceDies s 1) = true) ∧
    { ready with copying := [0, 1] }.copying.contains 1 = true ∧
    ((0x17FFF : W32).toNat < 2 ^ 17 ∧ fld (0x17FFF : W32) 16 15 ≠ 3) ∧
    ((⟨btHeadframe, 0⟩ : Agent) = acting ready 1 ∧ ready.ranked = [] ∧ (0xAAAA : W32).toNat < 2 ^ 16 ∧
      ∀ i < 8, bitsOf (0xAAAA : W32).toNat (2 * i + 1) (2 * i) ≠ 3) := by decide +kernel

/-- A module in bring-up: released, its banks zeroed, at this step, its bridge in this state. -/
def bringUp (step bridge : Nat) (boot : Boot) (x : Security) : State :=
  { State.reset with
    boot := { boot with released := true, zeroed := true, step := step }
    bridge := { Bridge.reset with st := bridge }
    security := x
    times := [(0, { TimeBlk.reset with now := 20000000000 })] }

theorem witness_PowerAndReset :
    (let s := { State.reset with power := { Power.reset with pwrGood := false, inputMv := 40000 } }
     s.power.pwrGood = false ∧ s.power.tripOff = false ∧ 40000 ≤ s.power.inputMv ∧ s.power.inputMv ≤ 60000) ∧
    (State.reset.power.inReset = true ∧ State.reset.power.pwrGood = true ∧ tooEarly State.reset = false) ∧
    (let p := { Power.reset with pwrGoodAt := some 0, earlyRelease := true }
     tooEarly { State.reset with power := p } = true ∧ p.inReset = true ∧ p.pwrGood = true ∧
     tooEarly { State.reset with power := p, boot := { Boot.reset with up := 100000 } } = false ∧ p.earlyRelease = true) ∧
    { Power.reset with pwrGood := false }.inReset = true ∧
    (let s := { State.reset with boot := { Boot.reset with released := true } }
     s.boot.released = true ∧ s.boot.zeroed = false) := by decide +kernel

theorem witness_ResetKeepsMramAndFuses :
    (history ready 1).sealing = false ∧ { ready with boot := { ready.boot with zeroed := false } }.boot.released = true ∧
    domain ready (domStack 7) = 2 ∧ (stack ready 7).open_ = false := by decide +kernel

theorem witness_BringUp :
    (let s := bringUp 0 0 { Boot.reset with up := 5000000 } Security.new
     booting s = true ∧ s.boot.zeroed = true ∧ s.security.selfTest = false ∧ historySealed (recordTrip s) = false ∧
     s.bridge.st < 2 ∧ s.bridge.retrainAt = none ∧ (service s 0).state = 0 ∧ 5000000 ≤ elapsed s) ∧
    (bringUp 0 1 Boot.reset Security.new).bridge.st = 1 ∧
    (let s := bringUp 0 2 Boot.reset { Security.new with selfTest := true }
     booting s = true ∧ s.bridge.st = 2 ∧ s.security.hf = none ∧ s.boot.step = 0 ∧ s.security.selfTest = true) ∧
    (let s := bringUp 1 2 { Boot.reset with hf0 := ⟨1, false⟩, hf1 := ⟨2, false⟩, lastBeat := some 19999700000, up := 20000000000 } Security.new
     booting s = true ∧ 1 ≤ s.boot.step ∧ s.security.fm = none ∧ s.boot.hf1.role = 2 ∧ s.boot.hf0.role = 1 ∧
     s.boot.lastBeat = some 19999700000 ∧ 19999700000 + 300000 ≤ elapsed s) ∧
    (let s := bringUp 1 2 { Boot.reset with hf0 := ⟨1, false⟩, hf1 := ⟨2, false⟩, step1At := 19990000000, up := 20000000000 } Security.new
     s.boot.hf1.role = 2 ∧ s.boot.lastBeat = none ∧ s.boot.step1At + 10000000 ≤ elapsed s) ∧
    (let s := { bringUp 1 2 Boot.reset Security.new with foremen := [(7, { Foreman.reset with st := 1 })] }
     (foreman s 7).st = 1 ∧
     isSafe (report (setForeman s 7 { foreman s 7 with st := 2 }) ⟨1, ⟨btForeman, 7⟩, 8, .count, 0, none⟩) 1 = false) := by decide +kernel

/-- A device that holds its node, and a step of it: no command waits. -/
theorem witness_MusterAndJoin_kept : NoReset ready ∧ (∃ t, step ready = .next t) ∧ ready.boot.assigned = true ∧ ready.boot.cycleFrame = none ∧
    ready.boot.cycleAssign = false := ⟨fun _ h => (by cases h), ⟨_, rfl⟩, rfl, rfl, rfl⟩

/-- A muster frame that carries node number 16383 (Table 16-5). -/
def musterBytes : List Byte :=
  let b := toLE 4 1 ++ toLE 2 16383 ++ List.replicate 54 0
  b ++ toLE 4 (crc32c b).toNat

theorem witness_MusterAndJoin :
    (let s := bringUp 1 2 Boot.reset Security.new
     s.boot.released = true ∧ musterBytes.length = 64 ∧ musterOk musterBytes = true ∧ leAt musterBytes 4 2 % 2 ^ 15 < 16384 ∧ isSafe s 0 = false ∧
     musterExpired s = false ∧ s.boot.assigned = false ∧ musterOk (List.replicate 64 0) = false ∧ s.boot.cycleFrame = none) ∧
    (let s := bringUp 1 2 { Boot.reset with up := 10000000000, expiring := true } Security.new
     s.boot.released = true ∧ s.boot.assigned = false ∧ 10000000000 ≤ s.boot.up ∧ s.boot.expiring = true) ∧
    (let s := bringUp 1 2 { Boot.reset with cycleFrame := some (musterBytes, true), cycleAssign := true, up := 10000000003 } Security.new
     s.boot.released = true ∧ isSafe s 0 = false ∧ musterExpired s = false ∧ s.boot.cycleFrame = some (musterBytes, true) ∧
     s.boot.cycleAssign = true) ∧
    (let s := { bringUp 4 2 Boot.reset Security.new with
       service := [(0, { Service.reset with state := 1 })]
       times := [(0, { TimeBlk.reset with st := 1 }), (1, { TimeBlk.reset with st := 1 })] }
     (service s 0).state = 1 ∧ s.boot.step = 4 ∧ (timeBlk s 0).st = 1 ∧ (timeBlk s 1).st = 1) ∧
    (let q := { Port.reset with st := 3, qcause := 3 }
     let s := { ready with ports := [(0, q), (23, q)], boot := { ready.boot with disagree := some 4000000000 } }
     s.boot.disagree = some 4000000000 ∧ 4000000000 + 1000000000 ≤ elapsed s ∧ disagreeing s = true ∧ (service s 0).state = 2) := by decide +kernel

/-- Pins 4 to 7 count tachometers, 8 to 15 capture, 2 and 3 serve the second I3C bus. -/
def pinsInUse (x : Pins) : State :=
  { ready with
    regs := [(rkey (pgHeadframe 0) PIN_FUNC_LO, some 0x44443300), (rkey (pgHeadframe 0) PIN_FUNC_HI, some 0x55555555),
      (rkey (pgMailbox 17) M_CTL, some 1)]
    pins := x }

theorem witness_PinsAndI3c :
    (ready.boot.released = true ∧ isSafe ready 0 = false ∧ 1 ≤ ready.boot.step ∧ ready.pins.parks = [] ∧
      ∀ i < 8, pinAllows i (bitsOf (0x44443322 : W32).toNat (4 * i + 3) (4 * i)) = true) ∧
    (let s := pinsInUse Pins.reset
     pinHas s 7 4 = true ∧ pinHas s 15 5 = true ∧ booting s = true ∧ s.pins.noticeAt + 1000000000 ≤ elapsed s ∧
     (postNotice s 17 0xF3 (speeds s)).2 = some sOK ∧ i3cActive s 1 = true ∧ (i3c s 1).dyn = none) ∧
    (let s := pinsInUse { Pins.reset with captures := [(7, { Capture.reset with held := [9] })] }
     (Sparse.get Capture.reset s.pins.captures 7).held = [9] ∧ (postNotice s 17 0xF2 (toLE 8 9 ++ toLE 1 7 ++ toLE 1 0)).2 = some sOK) ∧
    (let s := pinsInUse { Pins.reset with i3c1 := { I3c.reset with dyn := some 9 } }
     let bs : List Byte := toLE 4 (0x4FF + 2 ^ 13 + 2 ^ 14 * PROG_ENTRY) ++ toLE 4 0
     (i3c s 1).dyn ≠ none ∧ bs.length = 8 ∧ leAt bs 0 4 < 2 ^ 26 ∧ leAt bs 0 4 / 2 ^ 14 % 4 = 0 ∧ s.boot.released = true ∧
     aborted s (gpage 1 0x4FF) true = false ∧ aborted s (gpage (i3c s 1).die (i3c s 1).page) false = false) := by decide +kernel

theorem witness_DomainsAndPoints :
    (isSafe ready 1 = false ∧ (⟨btHeadframe, 0⟩ : Agent) = acting ready 1 ∧ foremanFailed ready 7 = false ∧ ready.ranked = [] ∧ domain ready (localDomain 7 11) ≠ 1 ∧
      domain ready (localDomain 7 11) ≠ 3) ∧
    (∀ n ∈ [63, 71, 95], domain { State.reset with domains := [(n, 1)] } n = 1 ∧ domain { State.reset with domains := [(n, 3)] } n = 3 ∧
      domainQuiet { State.reset with domains := [(n, 3)] } n = true) ∧
    (let s := { ready with dvfs := [(1, { Dvfs.reset with target := some 4, waitOps := [3] })] }
     (dvfs s 1).target = some 4 ∧ (dvfs s 1).switched = false ∧ longOps s 1 = []) ∧
    (dvfs { ready with dvfs := [(1, { Dvfs.reset with target := some 4, switched := true })] } 1).switched = true := by decide +kernel

theorem witness_Samples :
    ready.power.pwrGood = true ∧ ready.boot.released = true ∧ Sparse.get 0 ready.power.railOut (railNum .vaon) + 1 < 10 ∧
    10 < Sparse.get 0 { ready.power with railOut := [(railNum .vaon, 10)] }.railOut (railNum .vaon) + 1 ∧
    (railDies (some .vaon)).all (isSafe ready) = false ∧
    (railDies (some (.vcore 1))).all (isSafe { ready with service := [(1, { Service.reset with state := 4 })] }) = true ∧
    Sparse.get 0 { ready.power with railOut := [(railNum .vaon, 9)] }.railOut (railNum .vaon) + 1 = 10 ∧ ready.power.capped = false ∧
    (halfLevel ready 63).step = 0 ∧ (halfLevel { ready with halfLevels := [(63, { HalfLevel.reset with step := 1 })] } 63).step = 1 ∧
    (let s := { ready with halfLevels := [(63, { HalfLevel.reset with step := 2 })] }
     (halfLevel s 63).step = 2 ∧ isSafe (setHalfLevel s 63 { halfLevel s 63 with temp := 110, lt92 := none, lt98 := none, step := 3 }) 1 = false) := by
  decide +kernel

/-- A device whose input has been out of bounds this often. -/
def inputOutFor (n : Nat) : State := { ready with power := { ready.power with inputOut := n } }

theorem witness_Samples_input :
    (inputOutFor 8).power.inputOut + 1 < 10 ∧ (inputOutFor 9).power.inputOut + 1 = 10 ∧ 10 < (inputOutFor 10).power.inputOut + 1 ∧
    isSafe (inputOutFor 10) 0 = false ∧ ready.boot.released = true ∧ ready.power.pwrGood = true ∧ State.reset.boot.released = false ∧
    { ready.power with capped := true }.capped = true ∧
    (let s := { inputOutFor 10 with service := [(0, { Service.reset with state := 4 }), (1, { Service.reset with state := 4 })] }
     isSafe s 0 = true ∧ isSafe s 1 = true) := by decide +kernel

/-- Half-level 63 at this step, its samples below 92 °C and below 98 °C since these times. -/
def heated (step : Nat) (lt92 lt98 : Option Ns) : State :=
  { ready with halfLevels := [(63, { HalfLevel.reset with step := step, lt92 := lt92, lt98 := lt98 })] }

theorem witness_Samples_heat :
    (∀ k ∈ [1, 2], (halfLevel (heated k (some 4999000000) none) 63).step = k ∧
      (halfLevel (heated k (some 4999000000) none) 63).lt92 = some 4999000000 ∧ 4999000000 + 1000000 ≤ elapsed ready) ∧
    (let s := heated 2 (some 4999000001) (some 4999000000)
     (halfLevel s 63).step = 2 ∧ (halfLevel s 63).lt98 = some 4999000000 ∧ (halfLevel s 63).lt92 = some 4999000001 ∧
     elapsed s < 4999000001 + 1000000) := by decide +kernel

theorem witness_FaultsAndDrain :
    (let s := { ready with service := [(0, { Service.reset with state := 3, drainEnd := some 5000000000 }), (1, { Service.reset with state := 3 })] }
     (service s 0).drainEnd = some 5000000000 ∧ draining s 0 = true ∧ (service s 0).drained = false ∧ 5000000000 ≤ elapsed s) ∧
    (let s := { ready with
       service := [(0, { Service.reset with state := 3, drained := true })]
       history := [(0, { History.new with sealing := true })] }
     (history s 0).sealing = true ∧ (service s 0).drained = true) ∧
    ready.boot.released = true ∧ ready.bridge.st = 2 ∧
    (let s := { ready with bridge := ⟨1, some 4999900000⟩ }
     s.bridge.retrainAt = some 4999900000 ∧ 4999900000 + 100000 ≤ elapsed s) := by decide +kernel

theorem witness_SafeIsFinal : isSafe ready 1 = false ∧ isSafe { ready with service := [(1, { Service.reset with state := 4 })] } 1 = true ∧
    deviceDies ready 1 = [0, 1] := by decide +kernel

/-- A safe device, and a split one whose dies are safe and drain. -/
def bothSafe : State := { ready with service := [(0, { Service.reset with state := 4, reason := 3 }), (1, { Service.reset with state := 4 })] }
def splitSafe : State := { bothSafe with split := true, service := [(0, { Service.reset with state := 4 }), (1, { Service.reset with state := 5 })] }

theorem witness_SafeIsFinal_kept : ∀ s ∈ [ready, bothSafe, splitSafe], SafeTogether s ∧ NoReset s ∧ ∃ t, step s = .next t := by
  intro s hs
  simp only [List.mem_cons, List.not_mem_nil, or_false] at hs
  rcases hs with rfl | rfl | rfl <;>
    exact ⟨by unfold SafeTogether; decide +kernel, fun _ h => (by cases h), ⟨_, rfl⟩⟩

theorem witness_SafeIsFinal_safe : isSafe bothSafe 0 = true ∧ isSafe splitSafe 0 = true := by decide +kernel

/-- Keys of tensor 0, generation 1: `KEY_IN` names that pair. -/
def keyed (x : Security) : State := { ready with security := x, regs := [(rkey pgSecurity (KEY_IN + 4), some 1)] }

theorem witness_KeysAndFloors :
    let s := keyed Security.new
    isSafe s 0 = false ∧ mayKey s ⟨btHost, 0⟩ = true ∧ s.security.kek = none ∧
    (let s := keyed { Security.new with kek := some (List.replicate 32 0) }
     s.security.kek = some (List.replicate 32 0) ∧ pairHeld s = false ∧ generations s < 2 ∧ s.security.keys.length < 2048 ∧ keyEpoch s ≠ 0) ∧
    pairHeld (keyed { Security.new with keys := [⟨0, 1, []⟩] }) = true ∧ (⟨btHeadframe, 0⟩ : Agent) = acting s 0 ∧
    s.security.floors.getD 2 0 ≤ 64 ∧
    (let x := { Security.new with revoked := [0, 1], hf := some ⟨[], 0, 2⟩ }
     ¬ 3 ∈ x.revoked ∧ x.revoked.length < 3 ∧ x.hf = some ⟨[], 0, 2⟩ ∧ 2 ≠ 3) := by decide +kernel

theorem witness_SpdmAnswers : ready.boot.released = true ∧ ready.host.linkUp = true ∧ isSafe ready 0 = false ∧ verifying ready = false := by
  decide +kernel

-- memory and encodings --------------------------------------------------------------------------------------------------------

theorem witness_MemoryStaysCanonical : State.reset.canonical ∧ ∃ t, step State.reset = .next t := ⟨rfl, ⟨_, rfl⟩⟩

theorem witness_StopeWordRoundTrip : encodeStope (.add 511 31 31 31 7) = some (511, wordOf 0x01 31 31 31 7) ∧
    wordIllegal (wordOf 0x01 31 31 31 7) = false ∧ wordIllegal 0x1700000000000000 = true := by decide +kernel

/-- Completions with a reserved status, with a reserved reason, and failed with one of Table 01-6. -/
theorem witness_MessageRoundTrip_known :
    (∀ m ∈ [{ msg1 8 0 with sub := 8 }, { msg1 0x11 0 with sub := 15 }, { msg1 8 0 with sub := BitVec.ofNat 4 sFAILED },
        { msg1 8 0 with sub := BitVec.ofNat 4 sFAILED, reason := 8 }],
      ¬(m.sub.toNat < 8 ∧ (m.sub.toNat = sFAILED → 0 < m.reason.toNat ∧ m.reason.toNat < 8))) ∧
    (let m := { msg1 8 0 with sub := BitVec.ofNat 4 sFAILED, reason := 7, data := [] }
     m.sub.toNat < 8 ∧ (m.sub.toNat = sFAILED → 0 < m.reason.toNat ∧ m.reason.toNat < 8) ∧ m.sub ≠ 0) := by decide +kernel

theorem witness_MessageRoundTrip : ∀ o ∈ [1, 2, 3, 4, 5, 8, 9, 0x10, 0x11, 0x12, 0x13, 0x14, 0x15],
    opcKnown o = true ∧ (opcData o = true → (msg1 (BitVec.ofNat 8 o) 0).data.length = (msg1 (BitVec.ofNat 8 o) 0).lenM1.toNat + 1) := by
  decide +kernel

end Sys2Proof.Tests
end

section
/-!
Illegal words and the program fault (R115, R134): the fields of a word of Table 06-1, the common shape of the commands that have a word, and
what a program fault does.
-/

namespace Sys2Proof.Machine

-- the fields of a word ------------------------------------------------------------------------------------------------------

section
variable (op : Nat) (d a b : Byte) (imm : W32)

/-- An opcode and its fields fit the 64 bits of a word. -/
theorem wordOf_toNat (h : op < 256) :
    (wordOf op d a b imm).toNat = op * 2 ^ 56 + d.toNat * 2 ^ 48 + a.toNat * 2 ^ 40 + b.toNat * 2 ^ 32 + imm.toNat := by
  unfold wordOf
  rw [BitVec.toNat_ofNat]
  omega

/-- The fields of a word are what it was made of (Table 06-1). -/
theorem fld_wordOf (h : op < 256) :
    fld (wordOf op d a b imm) 63 56 = op ∧ fld (wordOf op d a b imm) 55 48 = d.toNat ∧ fld (wordOf op d a b imm) 47 40 = a.toNat ∧
      fld (wordOf op d a b imm) 39 32 = b.toNat ∧ fld (wordOf op d a b imm) 31 0 = imm.toNat := by
  simp only [fld, bitsOf_eq, wordOf_toNat op d a b imm h]
  omega

/-- The word of an opcode and its fields is illegal where the fields are not legal for the opcode (R115). -/
theorem wordIllegal_wordOf (h : op < 256) : wordIllegal (wordOf op d a b imm) = !legalFields op d a b imm := by
  obtain ⟨hop, hd, ha, hb, himm⟩ := fld_wordOf op d a b imm h
  simp only [wordIllegal, hop, hd, ha, hb, himm, BitVec.ofNat_toNat, BitVec.setWidth_eq]

end

-- an illegal word at the pc -------------------------------------------------------------------------------------------------

/-- An illegal word at the pc faults where the instruction has the common shape, whatever its action would do. -/
theorem issue_of_wordIllegal (s : State) (st : Fin 512) (op : Nat) (d a b : Byte) (imm : W32) (act : State → State) (hop : op < 256)
    (hw : issueWord (stope s st) = some (wordOf op d a b imm)) (hi : wordIllegal (wordOf op d a b imm) = true) :
    issue s st op d a b imm act = progFault s st cILLEGAL := by
  have hl : legalFields op d a b imm = false := by simpa [wordIllegal_wordOf op d a b imm hop] using hi
  simp [issue, atWord, hw, hl]

/-- Command `i` is the instruction of word `w` at stope `st` in the common shape: the word's opcode and fields are those it issues. -/
def IssuesWord (i : Instr) (st : Fin 512) (w : W64) : Prop :=
  ∃ (op : Nat) (d a b : Byte) (imm : W32), op < 256 ∧ w = wordOf op d a b imm ∧
    ∀ s, ∃ act, exec i s = .next (issue s st op d a b imm act)

/-- A lane-by-lane instruction of two operands, and of one, has the common shape. -/
theorem binary_issues (s : State) (st : Fin 512) (op : Nat) (d a b : Byte) (imm : W32) (f : FpType → Nat → Nat → Nat) :
    ∃ act, (.next (binary s st op d a b imm f) : Out) = .next (issue s st op d a b imm act) := by
  unfold binary
  exact ⟨_, rfl⟩

theorem unary_issues (s : State) (st : Fin 512) (op : Nat) (d a b : Byte) (imm : W32) (f : FpType → Nat → Nat) :
    ∃ act, (.next (unary s st op d a b imm f) : Out) = .next (issue s st op d a b imm act) := by
  unfold unary
  exact ⟨_, rfl⟩

/-- A command with a word is RESERVED_OPCODE, or an instruction that issues its word in the common shape. -/
theorem eq_reservedOpcode_or_issuesWord (i : Instr) (st : Fin 512) (w : W64) (h : encodeStope i = some (st, w)) :
    i = .reservedOpcode st w ∨ IssuesWord i st w := by
  cases i with
  | reservedOpcode => cases h; exact .inl rfl
  | nop | add | sub | and | or | xor | shl | shr | mul | min | max | addi | andi | xori | shli | shri | movhi | lds | sts | time
  | amov | smov | aadd | loop | beq | bne | blt | bge | bltu | jmp | halt | face | upd | quant | vfma | vcvt | vsum | vamax | vbcast
  | vld | vst | put | get | atom | flag | mcast | fence | wait | waitf | waitt | waitall | hoist =>
    cases h; exact .inr ⟨_, _, _, _, _, by decide, rfl, fun _ => ⟨_, rfl⟩⟩
  | vadd | vsub | vmul | vmax | vmin | vdiv =>
    cases h; exact .inr ⟨_, _, _, _, _, by decide, rfl, fun _ => binary_issues ..⟩
  | vsqrt | vexp2 =>
    cases h; exact .inr ⟨_, _, _, _, _, by decide, rfl, fun _ => unary_issues ..⟩
  | _ => cases h

/-- An illegal word at the pc faults ILLEGAL whatever command it is met as (R115). -/
theorem exec_of_wordIllegal (i : Instr) (s : State) (st : Fin 512) (w : W64) (he : encodeStope i = some (st, w))
    (hw : issueWord (stope s st) = some w) (hi : wordIllegal w = true) : exec i s = .next (progFault s st cILLEGAL) := by
  rcases eq_reservedOpcode_or_issuesWord i st w he with rfl | ⟨op, d, a, b, imm, hop, rfl, hx⟩
  · change execReservedOpcode st w s = _
    simp [execReservedOpcode, hw, hi]
  · obtain ⟨act, e⟩ := hx s
    rw [e, issue_of_wordIllegal s st op d a b imm act hop hw hi]

-- the program fault -----------------------------------------------------------------------------------------------------------

/-- A program fault sets bit 0 of the stope's `BLK_IRQ_STATUS` (R134). -/
theorem rd_progFault_irqStatus (s : State) (n cause : Nat) :
    rd (progFault s n cause) (pgStope n) BLK_IRQ_STATUS = BitVec.ofNat 32 ((rd s (pgStope n) BLK_IRQ_STATUS).toNat ||| 1) := by
  unfold progFault event
  rw [rd_setIrq, rd_setBits_same, rd_setStope]

/-- Settles O11: a program fault's effect by the laws of faults; an illegal word's by the common shape of the instructions that have a word. -/
theorem illegalWordFaults : Obligations.IllegalWordFaults := by
  intro s st ended
  exact ⟨fun cause => ⟨rfl, progFault_frame s st cause, progFault_other s st cause, rd_progFault_irqStatus s st cause⟩,
    fun i w => exec_of_wordIllegal i s st w⟩

end Sys2Proof.Machine
end

section
/-!
Mailboxes (R284 to R287): which writes reach their page, what a pop does where no post shares its SCLK cycle, and what an accepted post does.
-/

namespace Sys2Proof.Machine

-- writes over PCIe ----------------------------------------------------------------------------------------------------------

/-- A device that is not safe and has reached `STEP` 1 turns no access away (R276, R318). -/
theorem aborted_eq_false (s : State) (pg : Nat) (isWrite : Bool) (hsafe : isSafe s 0 = false) (hstep : 1 ≤ s.boot.step) :
    aborted s pg isWrite = false := by
  have : ¬s.boot.step < 1 := by omega
  simp [aborted, hsafe, this]

/-- A write by the host reaches its page unless it is turned away. -/
theorem byHost_of_not_aborted (s : State) (pg : Nat) (act : State → State) (hrel : s.boot.released = true) (ha : aborted s pg true = false) :
    byHost s pg act = act s := by
  simp [byHost, hrel, ha]

/-- A write by any agent reaches its page unless it is the host's and is turned away. -/
theorem byAgent_of_not_aborted (s : State) (w : Agent) (pg : Nat) (act : State → State) (hrel : s.boot.released = true)
    (ha : aborted s pg true = false) : byAgent s w pg act = act s := by
  simp [byAgent, byHost_of_not_aborted s pg act hrel ha]

-- pops ----------------------------------------------------------------------------------------------------------------------

/-- What comes before the posts of its SCLK cycle acts at once where the cycle has none (R286). -/
theorem beforePosts_of_no_posts (s : State) (m : Nat) (f : State → State) (h : s.host.posts.filter (fun p => p.mailbox = m) = []) :
    beforePosts s m f = f s := by
  simp [beforePosts, h]

/-- A pop that is not turned away, and shares its SCLK cycle with no post, takes the notice at `HEAD`. -/
theorem exec_mailboxPop_of_no_posts (s : State) (w : Agent) (m : Fin 32) (hsafe : isSafe s 0 = false) (hrel : s.boot.released = true)
    (hstep : 1 ≤ s.boot.step) (h : s.host.posts.filter (fun p => p.mailbox = m.val) = []) :
    exec (.mailboxPop w m) s = .next (popHead s m) := by
  change execMailboxPop w m s = _
  rw [execMailboxPop, byAgent_of_not_aborted s w _ _ hrel (aborted_eq_false s _ _ hsafe hstep)]
  simp [pop, hsafe, beforePosts_of_no_posts s m _ h]

/-- Nothing goes from an empty mailbox (R287). -/
theorem popHead_of_empty (s : State) (m : Nat) (h : mailbox s m = []) : popHead s m = s := by
  simp [popHead, h]

/-- The notice at `HEAD` goes, and with `EMPTY_IE` a mailbox left empty interrupts its sender side (R287). -/
theorem popHead_of_cons (s : State) (m : Nat) (x : List Byte) (rest : List (List Byte)) (h : mailbox s m = x :: rest) :
    popHead s m =
      if rest = [] ∧ fld (rd s (pgMailbox m) M_CTL) 2 2 = 1 then
        (if m < 16 then msix (setMailbox s m rest) (48 + m) else hfInterrupt (setMailbox s m rest))
      else setMailbox s m rest := by
  simp [popHead, h]

-- accepted posts ------------------------------------------------------------------------------------------------------------

/-- A post that is not turned away reaches its mailbox once a lease that is over has ended (R285, R301). -/
theorem exec_mailboxPost_of_not_safe (s : State) (m : Fin 32) (bs : List Byte) (hsafe : isSafe s 0 = false) (hrel : s.boot.released = true)
    (hstep : 1 ≤ s.boot.step) : exec (.mailboxPost m bs) s = .next (mbPost (dueEnd s (.mailbox m)) m bs).1 := by
  change execMailboxPost m bs s = _
  rw [execMailboxPost, byHost_of_not_aborted s _ _ hrel (aborted_eq_false s _ _ hsafe hstep), ite_self]
  simp [post, hsafe]

/-- The answer to a post leaves the mailbox's `CTL` as it was. -/
theorem rd_mbResult_ctl (s : State) (m sender seq status : Nat) :
    rd (mbResult s m sender seq status) (pgMailbox m) M_CTL = rd s (pgMailbox m) M_CTL := by
  apply rd_wr_other
  simp only [rkey, M_CTL, M_RESULT]
  omega

/-- A good post by a sender the mailbox admits, for which there is a place, is answered OK and appended (R285). -/
theorem mbJudge_of_accepted (s : State) (m : Nat) (bs : List Byte) (hok : noticeOk bs = true)
    (hadmit : mbShared s m = true ∨ holder s (pgMailbox m) = mbHolder m (leAt bs 0 1 % 16)) (hroom : (mailbox s m).length < mbPlaces s m) :
    mbJudge s m bs =
      (noteIrq (mbResult (setMailbox s m (mailbox s m ++ [bs])) m (leAt bs 0 1 % 16) (leAt bs 4 2) sOK) m, some sOK) := by
  have hnot : (!mbShared s m && !decide (holder s (pgMailbox m) = mbHolder m (leAt bs 0 1 % 16))) = false := by
    rcases hadmit with h | h <;> simp [h]
  simp [mbJudge, hok, hnot, Nat.not_le.mpr hroom]

/-- A post that is judged is kept with what it found and raised (R286). -/
theorem mbPost_of_judged (s t : State) (m status : Nat) (bs : List Byte) (h : mbJudge s m bs = (t, some status)) :
    (mbPost s m bs).1 = { t with host := { t.host with posts := postedAs s t m bs :: t.host.posts } } := by
  simp [mbPost, h]

/-- Settles O39: pops by the equations of `popHead`, accepted posts by that of `mbJudge`; the answer to a post leaves `NOTE_IE` as it was. -/
theorem mailboxPopsAndInterrupts : Obligations.MailboxPopsAndInterrupts := by
  intro s m w hsafe hrel hstep hposts ctl
  have hpop := exec_mailboxPop_of_no_posts s w m hsafe hrel hstep hposts
  refine ⟨fun hempty => ?_, fun x rest hcons => ?_, ?_⟩
  · rw [hpop, popHead_of_empty s m hempty]
  · rw [hpop, popHead_of_cons s m x rest hcons]
  · intro bs s1 hok hadmit hroom t u
    have hirq : noteIrq t m = u := by rw [noteIrq, rd_mbResult_ctl, rd_setMailbox]
    have hjudge : mbJudge s1 m bs = (u, some sOK) := hirq ▸ mbJudge_of_accepted s1 m bs hok hadmit hroom
    rw [exec_mailboxPost_of_not_safe s m bs hsafe hrel hstep, mbPost_of_judged s1 u m sOK bs hjudge]

end Sys2Proof.Machine
end

section
/-!
Stope words in both directions (Tables 06-1 and 06-3): the fields of a word, the word of a decoded command, and the command of a legal word.
-/

namespace Sys2Proof.Machine

/-- A word is what its opcode and its fields spell (Table 06-1). -/
theorem wordOf_fld (w : W64) :
    wordOf (fld w 63 56) (BitVec.ofNat 8 (fld w 55 48)) (BitVec.ofNat 8 (fld w 47 40)) (BitVec.ofNat 8 (fld w 39 32))
      (BitVec.ofNat 32 (fld w 31 0)) = w := by
  have := w.isLt
  apply BitVec.eq_of_toNat_eq
  rw [wordOf_toNat _ _ _ _ _ (bitsOf_lt ..)]
  simp only [fld, bitsOf_eq, BitVec.toNat_ofNat]
  omega

/-- The instruction of an opcode and its fields has the word that they spell. -/
theorem encodeStope_of_stopeInstr {op : Nat} {st : Fin 512} {d a b : Byte} {imm : W32} {i : Instr}
    (h : stopeInstr op st d a b imm = some i) : encodeStope i = some (st, wordOf op d a b imm) := by
  unfold stopeInstr at h
  split at h <;> cases h <;> rfl

/-- Every word is the word of the command that it decodes to. -/
theorem encodeStope_decodeStope (st : Fin 512) (w : W64) : encodeStope (decodeStope st w) = some (st, w) := by
  unfold decodeStope
  split
  · rfl
  · cases h : stopeInstr (fld w 63 56) st (BitVec.ofNat 8 (fld w 55 48)) (BitVec.ofNat 8 (fld w 47 40)) (BitVec.ofNat 8 (fld w 39 32))
      (BitVec.ofNat 32 (fld w 31 0)) with
    | none => rfl
    | some i => exact (encodeStope_of_stopeInstr h).trans (by rw [wordOf_fld])

/-- A legal word decodes to the instruction of its opcode and its fields. -/
theorem decodeStope_wordOf {op : Nat} {st : Fin 512} {d a b : Byte} {imm : W32} {i : Instr} (hop : op < 256)
    (hi : wordIllegal (wordOf op d a b imm) = false) (h : stopeInstr op st d a b imm = some i) : decodeStope st (wordOf op d a b imm) = i := by
  obtain ⟨eop, ed, ea, eb, eimm⟩ := fld_wordOf op d a b imm hop
  simp [decodeStope, hi, eop, ed, ea, eb, eimm, h]

/-- A command with a legal word, but RESERVED_OPCODE, is what its word decodes to. -/
theorem decodeStope_of_encodeStope (i : Instr) (st : Fin 512) (w : W64) (he : encodeStope i = some (st, w)) (hi : wordIllegal w = false)
    (hr : ∀ v, i ≠ .reservedOpcode st v) : decodeStope st w = i := by
  cases i with
  | reservedOpcode st' w' => cases he; exact absurd rfl (hr w)
  | nop | add | sub | and | or | xor | shl | shr | mul | min | max | addi | andi | xori | shli | shri | movhi | lds | sts | time
  | amov | smov | aadd | loop | beq | bne | blt | bge | bltu | jmp | halt | face | upd | quant | vadd | vsub | vmul | vfma | vmax | vmin
  | vdiv | vsqrt | vexp2 | vcvt | vsum | vamax | vbcast | vld | vst | put | get | atom | flag | mcast | fence | wait | waitf | waitt
  | waitall | hoist => cases he; exact decodeStope_wordOf (by decide) hi rfl
  | _ => cases he

/-- Settles O59: a word is spelled by its fields, and its command by its opcode and its fields; an illegal word decodes to RESERVED_OPCODE. -/
theorem stopeWordRoundTrip : Obligations.StopeWordRoundTrip :=
  ⟨encodeStope_decodeStope, decodeStope_of_encodeStope, fun _ _ hi => by simp [decodeStope, hi]⟩

end Sys2Proof.Machine
end

section
/-!
Messages and their bytes (Table 11-1): the fields of a header where its bytes stand, when a header is well formed, and what is read back.
-/

namespace Sys2Proof

/-- The low bytes of a little-endian string are those of its number. -/
theorem take_toLE {k n : Nat} (v : Nat) (h : k ≤ n) : (toLE n v).take k = toLE k v := by
  induction k generalizing n v with
  | zero => rfl
  | succ k ih =>
    obtain ⟨n, rfl⟩ : ∃ j, n = j + 1 := ⟨n - 1, by omega⟩
    simp [toLE, ih (v / 256) (by omega : k ≤ n)]

/-- The bytes past the low ones spell the quotient. -/
theorem drop_toLE (o n v : Nat) : (toLE (o + n) v).drop o = toLE n (v / 256 ^ o) := by
  induction o generalizing v with
  | zero => simp
  | succ o ih => rw [Nat.add_right_comm, toLE, List.drop_succ_cons, ih, Nat.div_div_eq_div_mul, Nat.pow_succ']

/-- A field of whole bytes of a little-endian string. -/
theorem leAt_toLE_inside {o k n : Nat} (v : Nat) (h : o + k ≤ n) : leAt (toLE n v) o k = v / 256 ^ o % 256 ^ k := by
  obtain ⟨j, rfl⟩ : ∃ j, n = o + j := ⟨n - o, by omega⟩
  rw [leAt, sliceB_inside _ _ _ (by simpa using h), drop_toLE, take_toLE _ (by omega), leNat_toLE]

end Sys2Proof

namespace Sys2Proof.Machine

/-- The first word of a header: `OPC`, `SUB`, `CLS` and `LEN_M1`. -/
def headWord (m : Msg) : Nat := m.opc.toNat + 2 ^ 8 * m.sub.toNat + 2 ^ 12 * m.cls.toNat + 2 ^ 16 * m.lenM1.toNat

/-- The word of a header that names the source: `SRC`, `AGENT` and `KIND`. -/
def sourceWord (m : Msg) : Nat := m.src.toNat + 2 ^ 16 * m.agent.toNat + 2 ^ 28 * m.kind.toNat

@[simp] theorem length_msgHeader (m : Msg) : (msgHeader m).length = 48 := by simp [msgHeader]

/-- The fields of those two words, which reserve the bits between them. -/
theorem headWord_fields (m : Msg) :
    headWord m % 256 = m.opc.toNat ∧ bitsOf (headWord m) 11 8 = m.sub.toNat ∧ bitsOf (headWord m) 13 12 = m.cls.toNat ∧
      bitsOf (headWord m) 15 14 = 0 ∧ bitsOf (headWord m) 28 16 = m.lenM1.toNat ∧ bitsOf (headWord m) 31 29 = 0 := by
  have := m.opc.isLt; have := m.sub.isLt; have := m.cls.isLt; have := m.lenM1.isLt
  simp only [bitsOf_eq, headWord]
  omega

theorem sourceWord_fields (m : Msg) :
    sourceWord m % 2 ^ 15 = m.src.toNat ∧ bitsOf (sourceWord m) 15 15 = 0 ∧ bitsOf (sourceWord m) 27 16 = m.agent.toNat ∧
      bitsOf (sourceWord m) 31 28 = m.kind.toNat := by
  have := m.src.isLt; have := m.agent.isLt; have := m.kind.isLt
  simp only [bitsOf_eq, sourceWord]
  omega

section
variable (m : Msg) (pad : List Byte)

/-- Where a header's first bytes stand. -/
theorem leAt_msgHeader_head :
    leAt (msgHeader m ++ pad) 0 4 = headWord m ∧ leAt (msgHeader m ++ pad) 0 1 = m.opc.toNat ∧
      leAt (msgHeader m ++ pad) 4 4 = m.seq.toNat ∧ leAt (msgHeader m ++ pad) 8 8 = m.addr.toNat ∧
      leAt (msgHeader m ++ pad) 16 8 = m.deadline.toNat ∧ leAt (msgHeader m ++ pad) 24 4 = sourceWord m := by
  have := m.opc.isLt; have := m.sub.isLt; have := m.cls.isLt; have := m.lenM1.isLt
  have := m.src.isLt; have := m.agent.isLt; have := m.kind.isLt
  simp [msgHeader, leAt_left, leAt_right, leAt_toLE_inside, headWord, sourceWord]
  omega

/-- Where a header's other bytes stand. -/
theorem leAt_msgHeader_tail :
    leAt (msgHeader m ++ pad) 28 4 = m.epoch.toNat ∧ leAt (msgHeader m ++ pad) 32 2 = m.gen.toNat ∧
      leAt (msgHeader m ++ pad) 34 2 = m.tag.toNat ∧ leAt (msgHeader m ++ pad) 36 1 = m.reason.toNat ∧
      leAt (msgHeader m ++ pad) 37 1 = m.bell.toNat ∧ bitsOf (leAt (msgHeader m ++ pad) 36 4) 31 13 = 0 ∧
      leAt (msgHeader m ++ pad) 40 4 = m.ack.toNat ∧ leAt (msgHeader m ++ pad) 44 4 = m.incarn.toNat := by
  have := m.gen.isLt; have := m.tag.isLt; have := m.reason.isLt; have := m.bell.isLt
  simp [msgHeader, leAt_left, leAt_right, leAt_toLE_inside, bitsOf_eq]
  omega

end

/-- A message whose type answers another: a completion or a FILL. -/
def Msg.answers (m : Msg) : Prop := m.opc = 8 ∨ m.opc = 0x11

/-- Its status and reason are those of Tables 00-5 and 00-6. -/
def Msg.outcomeKnown (m : Msg) : Prop := m.sub.toNat < 8 ∧ (m.sub.toNat = sFAILED → 0 < m.reason.toNat ∧ m.reason.toNat < 8)

theorem Msg.answers_iff (m : Msg) : Msg.answers m ↔ m.opc.toNat = 8 ∨ m.opc.toNat = 0x11 := by
  simp [Msg.answers, ← BitVec.toNat_inj]

section
variable (m : Msg) (pad : List Byte)

/-- A header is malformed in its status or reason exactly where it answers with one that is reserved (log entry 137). -/
theorem answerOk_msgHeader : answerOk (msgHeader m ++ pad) = true ↔ (Msg.answers m → Msg.outcomeKnown m) := by
  obtain ⟨h0, hopc, -⟩ := leAt_msgHeader_head m pad
  obtain ⟨-, -, -, hreason, -⟩ := leAt_msgHeader_tail m pad
  obtain ⟨-, hsub, -⟩ := headWord_fields m
  simp only [answerOk, h0, hopc, hreason, hsub, Msg.answers_iff, Msg.outcomeKnown, Bool.or_eq_true, Bool.and_eq_true, decide_eq_true_eq]
  grind

/-- A header of a known type and kind is well formed where its status and reason are. -/
theorem headerOk_msgHeader (hopc : opcKnown m.opc.toNat = true) (hkind : m.kind.toNat < 6) :
    headerOk (msgHeader m ++ pad) = answerOk (msgHeader m ++ pad) := by
  obtain ⟨h0, h0o, -, -, -, h6⟩ := leAt_msgHeader_head m pad
  obtain ⟨-, -, -, -, -, h9, -⟩ := leAt_msgHeader_tail m pad
  obtain ⟨-, -, -, r0, -, r1⟩ := headWord_fields m
  obtain ⟨-, r2, -, k⟩ := sourceWord_fields m
  simp [headerOk, h0, h0o, h6, h9, r0, r1, r2, k, hopc, hkind]

/-- A message's type and status say whether data follows. -/
theorem bringsData_headWord : bringsData (headWord m) = true ↔ opcData m.opc.toNat = true ∧ (Msg.answers m → m.sub = 0) := by
  obtain ⟨hopc, hsub, -⟩ := headWord_fields m
  have : m.sub = 0 ↔ m.sub.toNat = 0 := by simp [← BitVec.toNat_inj]
  simp only [bringsData, hopc, hsub, Msg.answers_iff, this, Bool.or_eq_true, Bool.and_eq_true, decide_eq_true_eq]
  grind

/-- What a well-formed header and the bytes after it are read as: every field of the header, and the data where it brings any that is all there. -/
theorem parseMsg_msgHeader (hopc : opcKnown m.opc.toNat = true) (hkind : m.kind.toNat < 6) (hans : Msg.answers m → Msg.outcomeKnown m) :
    parseMsg (msgHeader m ++ pad) = some { m with
      entered := true, due := none
      data := if bringsData (headWord m) && decide (m.lenM1.toNat + 1 ≤ pad.length) then sliceB pad 0 (m.lenM1.toNat + 1) else [] } := by
  obtain ⟨h0, -, hseq, haddr, hdl, h6⟩ := leAt_msgHeader_head m pad
  obtain ⟨hepoch, hgen, htag, hreason, hbell, -, hack, hincarn⟩ := leAt_msgHeader_tail m pad
  obtain ⟨wopc, wsub, wcls, -, wlen, -⟩ := headWord_fields m
  obtain ⟨ssrc, -, sagent, skind⟩ := sourceWord_fields m
  have hok : headerOk (msgHeader m ++ pad) = true := (headerOk_msgHeader m pad hopc hkind).trans ((answerOk_msgHeader m pad).2 hans)
  have eopc : BitVec.ofNat 8 (headWord m) = m.opc := by rw [← BitVec.toNat_inj, BitVec.toNat_ofNat]; exact wopc
  have esrc : BitVec.ofNat 15 (sourceWord m) = m.src := by rw [← BitVec.toNat_inj, BitVec.toNat_ofNat]; exact ssrc
  have hslice : sliceB (msgHeader m ++ pad) 48 (m.lenM1.toNat + 1) = sliceB pad 0 (m.lenM1.toNat + 1) := by
    rw [sliceB_right _ _ _ _ (by simp), length_msgHeader]
  simp [parseMsg, hok, h0, hseq, haddr, hdl, h6, hepoch, hgen, htag, hreason, hbell, hack, hincarn, wsub, wcls, wlen, sagent, skind,
    eopc, esrc, hslice]

end

/-- The first bytes of a string are the string that it begins with. -/
theorem sliceB_zero_append (a b : List Byte) : sliceB (a ++ b) 0 a.length = a := by simp [sliceB]

/-- Settles O60: a header is read back field by field, and the bytes after it are data where its type, its status and its length say so. -/
theorem messageRoundTrip : Obligations.MessageRoundTrip := by
  intro m hopc hkind
  refine ⟨fun hans hunknown pad => ?_, fun hans => ⟨fun hempty => ?_, fun hdata hsub hlen pad => ?_, fun hnone hempty pad => ?_⟩⟩
  · have hbad : headerOk (msgHeader m ++ (m.data ++ pad)) = false := by
      rw [headerOk_msgHeader m _ hopc hkind, Bool.eq_false_iff, ne_eq, answerOk_msgHeader]
      exact fun h => hunknown (h hans)
    simp [parseMsg, msgBytes, List.append_assoc, hbad]
  · rw [msgBytes, parseMsg_msgHeader m _ hopc hkind hans]
    simp [hempty]
  · have hbrings : bringsData (headWord m) = true := (bringsData_headWord m).2 ⟨hdata, hsub⟩
    rw [msgBytes, List.append_assoc, parseMsg_msgHeader m _ hopc hkind hans, ← hlen, sliceB_zero_append]
    simp [hbrings]
  · have hbrings : bringsData (headWord m) = false := by
      rw [Bool.eq_false_iff, ne_eq, bringsData_headWord]
      rintro ⟨hd, hs⟩
      rcases hnone with h | ⟨h, h'⟩
      · simp [h] at hd
      · exact h' (hs h)
    rw [msgBytes, List.append_assoc, parseMsg_msgHeader m _ hopc hkind hans]
    simp [hbrings, hempty]

end Sys2Proof.Machine
end

section
/-!
What a stope's instructions leave unchanged (R114, R116 to R118): a command without its word at the pc, the registers of an instruction that
has another destination, and what loads and stores touch.
-/

namespace Sys2Proof.Machine

-- only the word at the pc -----------------------------------------------------------------------------------------------------

/-- An instruction whose word does not stand at the pc does nothing. -/
theorem issue_of_not_atWord (s : State) (st : Fin 512) (op : Nat) (d a b : Byte) (imm : W32) (act : State → State)
    (h : issueWord (stope s st) ≠ some (wordOf op d a b imm)) : issue s st op d a b imm act = s := by
  simp [issue, atWord, h]

/-- Settles O10: RESERVED_OPCODE by its definition, every other command with a word by the common shape. -/
theorem onlyTheWordAtPc : Obligations.OnlyTheWordAtPc := by
  intro i st w s he hw
  rcases eq_reservedOpcode_or_issuesWord i st w he with rfl | ⟨op, d, a, b, imm, -, rfl, hx⟩
  · change execReservedOpcode st w s = _
    simp [execReservedOpcode, hw]
  · obtain ⟨act, e⟩ := hx s
    rw [e, issue_of_not_atWord s st op d a b imm act hw]

-- registers of a stope ----------------------------------------------------------------------------------------------------------

/-- Two states of a stope agree in its registers, but for the scalars `ss`, the addresses `as` and the vectors `vs`, and in what its program has
outstanding. -/
structure Stope.Kept (ss as vs : List Byte) (x y : Stope) : Prop where
  scalars : ∀ r : Byte, ¬ r ∈ ss → y.sreg r.toNat = x.sreg r.toNat
  addresses : ∀ r : Byte, ¬ r ∈ as → Sparse.get 0 y.a r.toNat = Sparse.get 0 x.a r.toNat
  vectors : ∀ r : Byte, ¬ r ∈ vs → y.vreg r.toNat = x.vreg r.toNat
  out : y.out = x.out
  tickets : y.tickets = x.tickets
  queue : y.queue = x.queue

/-- Two states agree in every stope but `n`, and in its registers and in what is outstanding there as `Stope.Kept` says. -/
def StopesKept (n : Nat) (ss as vs : List Byte) (s t : State) : Prop :=
  SameOtherStopes n s t ∧ SameScalars n ss s t ∧ SameAddresses n as s t ∧ SameVectors n vs s t ∧ SameOutstanding n s t

section
variable (x : Stope) (ss as vs : List Byte)

theorem Stope.Kept.refl : Stope.Kept ss as vs x x := ⟨fun _ _ => rfl, fun _ _ => rfl, fun _ _ => rfl, rfl, rfl, rfl⟩

variable {x ss as vs}

theorem Stope.Kept.trans {y z : Stope} (h : Stope.Kept ss as vs x y) (h' : Stope.Kept ss as vs y z) : Stope.Kept ss as vs x z where
  scalars r hr := (h'.scalars r hr).trans (h.scalars r hr)
  addresses r hr := (h'.addresses r hr).trans (h.addresses r hr)
  vectors r hr := (h'.vectors r hr).trans (h.vectors r hr)
  out := h'.out.trans h.out
  tickets := h'.tickets.trans h.tickets
  queue := h'.queue.trans h.queue

theorem Stope.toNat_ne {d r : Byte} {ds : List Byte} (hd : d ∈ ds) (hr : ¬ r ∈ ds) : r.toNat ≠ d.toNat :=
  fun e => hr (BitVec.eq_of_toNat_eq e ▸ hd)

/-- A write to a register leaves the others. -/
theorem Stope.kept_setS (x : Stope) (d : Byte) (v : W64) (hd : d ∈ ss) : Stope.Kept ss as vs x (x.setS d.toNat v) := by
  have hs : ∀ r : Byte, ¬ r ∈ ss → (x.setS d.toNat v).sreg r.toNat = x.sreg r.toNat :=
    fun r hr => Stope.sreg_setS_other x _ _ v (Stope.toNat_ne hd hr)
  obtain ⟨m, e⟩ := Stope.setS_eq x d.toNat v
  rw [e] at hs ⊢
  exact ⟨hs, fun _ _ => rfl, fun _ _ => rfl, rfl, rfl, rfl⟩

theorem Stope.kept_setA (x : Stope) (d : Byte) (v : W64) (hd : d ∈ as) : Stope.Kept ss as vs x (x.setA d.toNat v) :=
  ⟨fun _ _ => rfl, fun _ hr => Sparse.get_set_ne 0 x.a _ _ v (Stope.toNat_ne hd hr), fun _ _ => rfl, rfl, rfl, rfl⟩

theorem Stope.kept_setV (x : Stope) (d : Byte) (v : BitVec 4096) (hd : d ∈ vs) : Stope.Kept ss as vs x (x.setV d.toNat v) :=
  ⟨fun _ _ => rfl, fun _ _ => rfl, fun _ hr => Stope.vreg_setV_other x _ _ v (Stope.toNat_ne hd hr), rfl, rfl, rfl⟩

/-- A change of the sequencer alone leaves every register. -/
theorem Stope.kept_advance (x : Stope) : Stope.Kept ss as vs x x.advance :=
  ⟨fun _ _ => rfl, fun _ _ => rfl, fun _ _ => rfl, rfl, rfl, rfl⟩

end

/-- A write to a scalar register leaves the program's state. -/
@[simp] theorem Stope.prog_setS (x : Stope) (r : Nat) (v : W64) : (x.setS r v).prog = x.prog := by
  obtain ⟨m, e⟩ := Stope.setS_eq x r v
  rw [e]

/-- A stope with a program is not at reset. -/
theorem Stope.ne_reset {x : Stope} (h : x.prog ≠ .empty) : x ≠ Stope.reset := fun e => h (e ▸ rfl)

section
variable {ss as vs : List Byte} (s : State) (n : Nat)

theorem StopesKept.refl : StopesKept n ss as vs s s :=
  ⟨fun _ _ => rfl, fun _ _ => rfl, fun _ _ => rfl, fun _ _ => rfl, rfl, rfl, rfl⟩

variable {s n}

theorem StopesKept.trans {t u : State} (h : StopesKept n ss as vs s t) (h' : StopesKept n ss as vs t u) : StopesKept n ss as vs s u := by
  obtain ⟨ho, hs, ha, hv, hout, htk, hq⟩ := h
  obtain ⟨ho', hs', ha', hv', hout', htk', hq'⟩ := h'
  exact ⟨fun m hm => (ho' m hm).trans (ho m hm), fun r hr => (hs' r hr).trans (hs r hr), fun r hr => (ha' r hr).trans (ha r hr),
    fun r hr => (hv' r hr).trans (hv r hr), hout'.trans hout, htk'.trans htk, hq'.trans hq⟩

/-- A state that has another's stopes and node number agrees with it in every stope. -/
theorem StopesKept.of_stopes {t : State} (hs : t.stopes = s.stopes) (hb : t.boot.node = s.boot.node) : StopesKept n ss as vs s t := by
  have h (m : Nat) : stope t m = stope s m := by rw [stope, stope, hs]
  refine ⟨fun m _ => h m, fun r _ => by rw [h], fun r _ => ?_, fun r _ => by rw [h], by rw [h], by rw [h], by rw [h]⟩
  simp only [areg, pillarAddr, galleryAddr, nodeBase, h, hb]

/-- A new state of one stope that keeps its registers. -/
theorem stopesKept_setStope {y : Stope} (hy : y.prog ≠ .empty) (hk : Stope.Kept ss as vs (stope s n) y) :
    StopesKept n ss as vs s (setStope s n y) := by
  have h : stope (setStope s n y) n = y := stope_setStope_same s n y (Stope.ne_reset hy)
  refine ⟨fun m hm => stope_setStope_other s n m y hm, fun r hr => ?_, fun r hr => ?_, fun r hr => ?_, ?_, ?_, ?_⟩
  · rw [h]; exact hk.scalars r hr
  · simp only [areg, pillarAddr, galleryAddr, nodeBase, h, setStope_boot, hk.addresses r hr]
  · rw [h]; exact hk.vectors r hr
  · rw [h]; exact hk.out
  · rw [h]; exact hk.tickets
  · rw [h]; exact hk.queue

variable (s n)

/-- A program fault leaves every register. -/
theorem stopesKept_progFault (cause : Nat) : StopesKept n ss as vs s (progFault s n cause) :=
  StopesKept.trans (t := setStope s n { (stope s n).stop cause with faultPc := (stope s n).pc })
    (stopesKept_setStope (by simp [Stope.stop]) ⟨fun _ _ => rfl, fun _ _ => rfl, fun _ _ => rfl, rfl, rfl, rfl⟩)
    (StopesKept.of_stopes rfl rfl)

end

-- what an instruction leaves --------------------------------------------------------------------------------------------------

/-- Nothing but stopes, registers and interrupts changes, and the stopes as `StopesKept` says. -/
def OnlyStope (n : Nat) (ss as vs : List Byte) (s t : State) : Prop := OnlyStopesAndRegs s t ∧ StopesKept n ss as vs s t

section
variable {ss as vs : List Byte} {s : State} {st : Fin 512}

theorem onlyStope_refl (n : Nat) : OnlyStope n ss as vs s s := ⟨rfl, StopesKept.refl s n⟩

theorem onlyStope_progFault (n cause : Nat) : OnlyStope n ss as vs s (progFault s n cause) :=
  ⟨progFault_frame s n cause, stopesKept_progFault s n cause⟩

theorem onlyStope_setStope {n : Nat} {y : Stope} (hy : y.prog ≠ .empty) (hk : Stope.Kept ss as vs (stope s n) y) :
    OnlyStope n ss as vs s (setStope s n y) := ⟨rfl, stopesKept_setStope hy hk⟩

/-- An instruction leaves what its action leaves while its program runs. -/
theorem onlyStope_issue {op : Nat} {d a b : Byte} {imm : W32} {act : State → State}
    (h : (stope s st).prog = .running → OnlyStope st ss as vs s (act s)) : OnlyStope st ss as vs s (issue s st op d a b imm act) := by
  rcases issue_cases s st op d a b imm act with e | e | ⟨hw, -, e⟩ <;> rw [e]
  · exact onlyStope_refl _
  · exact onlyStope_progFault _ _
  · refine h ?_
    refine Classical.byContradiction fun hp => ?_
    simp [atWord, issueWord, hp] at hw

variable (hp : (stope s st).prog = .running)
include hp

/-- Going on leaves every register. -/
theorem onlyStope_advance : OnlyStope st ss as vs s (setStope s st (stope s st).advance) :=
  onlyStope_setStope (by simp [Stope.advance, Stope.pass, hp]) (Stope.kept_advance _)

theorem onlyStope_putS (d : Byte) (v : W64) (hd : d ∈ ss) : OnlyStope st ss as vs s (putS s st d v) :=
  onlyStope_setStope (by simp [Stope.advance, Stope.pass, hp]) ((Stope.kept_setS _ d v hd).trans (Stope.kept_advance _))

theorem onlyStope_putA (d : Byte) (v : W64) (hd : d ∈ as) : OnlyStope st ss as vs s (putA s st d v) := by
  unfold putA
  split
  · exact onlyStope_progFault _ _
  · exact onlyStope_setStope (by simp [Stope.advance, Stope.pass, Stope.setA, hp]) ((Stope.kept_setA _ d v hd).trans (Stope.kept_advance _))

theorem onlyStope_putV (d : Byte) (v : BitVec 4096) (hd : d ∈ vs) : OnlyStope st ss as vs s (putV s st d v) :=
  onlyStope_setStope (by simp [Stope.advance, Stope.pass, Stope.setV, hp]) ((Stope.kept_setV _ d v hd).trans (Stope.kept_advance _))

theorem onlyStope_jumpTo (w : Nat) : OnlyStope st ss as vs s (jumpTo s st w) := by
  unfold jumpTo
  split
  · exact onlyStope_progFault _ _
  · exact onlyStope_setStope (by simp [Stope.goto, hp]) ⟨fun _ _ => rfl, fun _ _ => rfl, fun _ _ => rfl, rfl, rfl, rfl⟩

end

section
variable (s : State) (st : Fin 512) (op : Nat) (d a b : Byte) (imm : W32)

/-- Scalar instructions of two registers, and of a register and IMM. -/
theorem onlyStope_regReg (f : W64 → W64 → W64) : OnlyStope st [d] [] [] s (regReg s st op d a b imm f) :=
  onlyStope_issue fun hp => onlyStope_putS hp d _ List.mem_cons_self

theorem onlyStope_regImm (f : W64 → W32 → W64) : OnlyStope st [d] [] [] s (regImm s st op d a b imm f) :=
  onlyStope_issue fun hp => onlyStope_putS hp d _ List.mem_cons_self

/-- Vector instructions, which wait while the vector unit is occupied. -/
theorem onlyStope_vectorOp (f : Stope → BitVec 4096) : OnlyStope st [] [] [d] s (vectorOp s st op d a b imm f) := by
  refine onlyStope_issue fun hp => ?_
  split
  · exact onlyStope_refl _
  · exact onlyStope_putV hp d _ List.mem_cons_self

/-- Branches. -/
theorem onlyStope_branch (c : W64 → W64 → Bool) : OnlyStope st [] [] [] s (branch s st op d a b imm c) := by
  refine onlyStope_issue fun hp => ?_
  split
  · exact onlyStope_jumpTo hp _
  · exact onlyStope_advance hp

/-- LOOP, HALT, FENCE and WAITT. -/
theorem onlyStope_enterLoop (hp : (stope s st).prog = .running) (c count last : Nat) :
    OnlyStope st [] [] [] s (setStope s st (enterLoop (stope s st) c count last)) := by
  unfold enterLoop
  split
  · exact onlyStope_setStope (by simp [Stope.pass, hp]) ⟨fun _ _ => rfl, fun _ _ => rfl, fun _ _ => rfl, rfl, rfl, rfl⟩
  · exact onlyStope_setStope (by simp [hp]) ⟨fun _ _ => rfl, fun _ _ => rfl, fun _ _ => rfl, rfl, rfl, rfl⟩

theorem onlyStope_loop : ∃ u, exec (.loop st d a b imm) s = .next u ∧ OnlyStope st [] [] [] s u := by
  refine ⟨_, rfl, onlyStope_issue fun hp => ?_⟩
  dsimp only
  repeat' split
  · exact onlyStope_progFault _ _
  · exact onlyStope_progFault _ _
  · exact onlyStope_progFault _ _
  · exact onlyStope_progFault _ _
  · exact onlyStope_enterLoop s st hp _ _ _

theorem onlyStope_halt : ∃ u, exec (.halt st d a b imm) s = .next u ∧ OnlyStope st [] [] [] s u :=
  ⟨_, rfl, onlyStope_issue fun _ =>
    onlyStope_setStope (by simp [Stope.stop]) ⟨fun _ _ => rfl, fun _ _ => rfl, fun _ _ => rfl, rfl, rfl, rfl⟩⟩

theorem onlyStope_fence : ∃ u, exec (.fence st d a b imm) s = .next u ∧ OnlyStope st [] [] [] s u :=
  ⟨_, rfl, onlyStope_issue fun hp =>
    onlyStope_setStope (by simp [Stope.advance, Stope.pass, hp]) ⟨fun _ _ => rfl, fun _ _ => rfl, fun _ _ => rfl, rfl, rfl, rfl⟩⟩

theorem onlyStope_waitt : ∃ u, exec (.waitt st d a b imm) s = .next u ∧ OnlyStope st [] [] [] s u := by
  refine ⟨_, rfl, onlyStope_issue fun hp => ?_⟩
  dsimp only
  split
  · exact onlyStope_advance hp
  · exact onlyStope_setStope (by simp [Stope.advance, Stope.pass, hp]) ⟨fun _ _ => rfl, fun _ _ => rfl, fun _ _ => rfl, rfl, rfl, rfl⟩

end

/-- What the one state that a command answers satisfies holds of every state that it answers. -/
theorem of_exec {P : State → Prop} {i : Instr} {s t : State} (h : ∃ u, exec i s = .next u ∧ P u) (ht : exec i s = .next t) : P t := by
  obtain ⟨u, hu, hP⟩ := h
  rw [hu] at ht
  cases ht
  exact hP

/-- Settles O9: each instruction has the common shape, and its action writes its destination, goes on, jumps, waits or faults. -/
theorem registerFrame : Obligations.RegisterFrame := by
  intro s t st d a b imm
  refine ⟨fun i hi => of_exec (P := OnlyStope st [d] [] [] s) ?_, fun i hi => of_exec (P := OnlyStope st [] [d] [] s) ?_,
    fun i hi => of_exec (P := OnlyStope st [] [] [d] s) ?_, fun i hi => of_exec (P := OnlyStope st [] [] [] s) ?_⟩
  · simp only [List.mem_cons, List.not_mem_nil, or_false] at hi
    rcases hi with rfl | rfl | rfl | rfl | rfl | rfl | rfl | rfl | rfl | rfl | rfl | rfl | rfl | rfl | rfl | rfl | rfl | rfl
    iterate 10 exact ⟨_, rfl, onlyStope_regReg ..⟩
    iterate 6 exact ⟨_, rfl, onlyStope_regImm ..⟩
    iterate 2 exact ⟨_, rfl, onlyStope_issue fun hp => onlyStope_putS hp d _ List.mem_cons_self⟩
  · simp only [List.mem_cons, List.not_mem_nil, or_false] at hi
    rcases hi with rfl | rfl
    iterate 2 exact ⟨_, rfl, onlyStope_issue fun hp => onlyStope_putA hp d _ List.mem_cons_self⟩
  · simp only [List.mem_cons, List.not_mem_nil, or_false] at hi
    rcases hi with rfl | rfl | rfl | rfl | rfl | rfl | rfl | rfl | rfl | rfl | rfl | rfl | rfl
    iterate 13 exact ⟨_, rfl, onlyStope_vectorOp ..⟩
  · simp only [List.mem_cons, List.not_mem_nil, or_false] at hi
    rcases hi with rfl | rfl | rfl | rfl | rfl | rfl | rfl | rfl | rfl | rfl | rfl
    · exact ⟨_, rfl, onlyStope_issue fun hp => onlyStope_advance hp⟩
    · exact onlyStope_loop ..
    iterate 5 exact ⟨_, rfl, onlyStope_branch ..⟩
    · exact ⟨_, rfl, onlyStope_issue fun hp => onlyStope_jumpTo hp _⟩
    · exact onlyStope_halt ..
    · exact onlyStope_fence ..
    · exact onlyStope_waitt ..

end Sys2Proof.Machine
end

section
/-!
Loads and stores (R116, R137, R139): the words that an access of a stope's own bank meets, and what the access leaves unchanged.
-/

namespace Sys2Proof.Machine

-- words of the own bank -------------------------------------------------------------------------------------------------------

/-- An access that lies in a stope's own bank has all its bytes in space 1, and does not run past the low 50 bits of its address. -/
theorem ownBank_place {s : State} {n a len b : Nat} (hn : n < 512) (hlen : 0 < len) (h : ownBank s n a len = some b) :
    low50 a + len ≤ 2 ^ 50 ∧ ∀ i < len, aSpace (a + i) = 1 := by
  unfold ownBank at h
  split at h
  · rename_i hp
    simp only [pillarAddr, nodeBase, bankBase, bankSize, hn, if_true] at hp
    constructor
    · simp only [low50]; omega
    · intro i hi; simp only [aSpace]; omega
  · have hl : ¬512 + levelOf n < 512 := by omega
    have hlv : levelOf n < 32 := by simp only [levelOf]; omega
    dsimp only at h
    split at h
    · rename_i hg
      simp only [galleryAddr, nodeBase, bankBase, bankSize, hl, if_false, Nat.add_sub_cancel_left] at hg
      constructor
      · simp only [low50]; omega
      · intro i hi; simp only [aSpace]; omega
    · cases h

/-- A bank's gate lets an access pass only where it lies in an own bank. -/
theorem ownBank_of_bankGate {s : State} {n a len b : Nat} {write : Bool} (h : bankGate s n a len write = .pass b) :
    ownBank s n a len = some b := by
  unfold bankGate at h
  split at h
  · cases h
  · repeat' split at h
    all_goals cases h
    assumption

theorem ownBank_of_portAGate {s : State} {n a len b : Nat} {write : Bool} (h : portAGate s n a len write = .pass b) :
    ownBank s n a len = some b := by
  unfold portAGate at h
  split at h
  · cases h
  · exact ownBank_of_bankGate h

/-- Part of a range without errors has none. -/
theorem anyBad_part {s : State} {a len k m : Nat} (h : anyBad s a len = false) (hw : low50 a + len ≤ 2 ^ 50) (hm : 0 < m) (hk : k + m ≤ len) :
    anyBad s (a + k) m = false := by
  have e : low50 (a + k) = low50 a + k := by simp only [low50] at hw ⊢; omega
  simp only [anyBad, List.any_eq_false, Bool.and_eq_true, decide_eq_true_eq, not_and, Nat.not_lt, e] at h ⊢
  intro w hwu hlt
  have := h w hwu (by omega)
  omega

/-- A word with an error is met by every access that begins in it. -/
theorem isBad_of_anyBad {s : State} {a len : Nat} (h : anyBad s a len = false) (hlen : 0 < len) : isBad s a = false := by
  refine Classical.byContradiction fun hb => ?_
  have hmem : eccWord a ∈ s.ue := by simpa [isBad] using hb
  have hu : eccUnit (eccWord a) = eccUnit a := by
    have : aSpace (eccWord a) = aSpace a := by
      by_cases h0 : a / 2 ^ 47 % 4 = 0 <;> simp only [eccWord, eccUnit, aSpace, low50, h0, if_true, if_false] <;> omega
    simp only [eccUnit, this]
  have hpos : 0 < eccUnit a := by simp only [eccUnit]; split <;> omega
  have := Nat.div_mul_le_self (low50 a) (eccUnit a)
  have := Nat.lt_div_mul_add (a := low50 a) hpos
  simp only [anyBad, List.any_eq_false, Bool.and_eq_true, decide_eq_true_eq, not_and, Nat.not_lt] at h
  have := h _ hmem (by simp only [eccWord]; omega)
  rw [hu] at this
  simp only [eccWord] at this
  omega

-- stores ----------------------------------------------------------------------------------------------------------------------

/-- A store changes memory and the list of errors. -/
theorem writePiece_eq (s : State) (a : Nat) (bs : List Byte) : ∃ m u, (writePiece s a bs).1 = { s with mem := m, ue := u } := by
  unfold writePiece
  repeat' split
  · exact ⟨_, _, rfl⟩
  · exact ⟨s.mem, s.ue, rfl⟩
  · exact ⟨_, s.ue, rfl⟩

theorem writeWords_eq (fuel : Nat) (s : State) (a : Nat) (bs : List Byte) : ∃ m u, (writeWords fuel s a bs).1 = { s with mem := m, ue := u } := by
  induction fuel generalizing s a bs with
  | zero => exact ⟨s.mem, s.ue, rfl⟩
  | succ n ih =>
    unfold writeWords
    split
    · exact ⟨s.mem, s.ue, rfl⟩
    · obtain ⟨m, u, e⟩ := writePiece_eq s a (bs.take (eccUnit a - low50 a % eccUnit a))
      dsimp only
      obtain ⟨m', u', e'⟩ := ih (writePiece s a (bs.take (eccUnit a - low50 a % eccUnit a))).1 (a + (eccUnit a - low50 a % eccUnit a))
        (bs.drop (eccUnit a - low50 a % eccUnit a))
      exact ⟨m', u', by rw [e', e]⟩

theorem store_eq (s : State) (a : Nat) (bs : List Byte) : ∃ m u, (store s a bs).1 = { s with mem := m, ue := u } := writeWords_eq _ s a bs

/-- A store of one piece of a word without an error takes effect. -/
theorem store_ok_of_piece {s : State} {a : Nat} {bs : List Byte} (hbad : isBad s a = false)
    (hfit : bs.length ≤ eccUnit a - low50 a % eccUnit a) : (store s a bs).2 = false := by
  have hp : (writePiece s a bs).2 = false := by simp [writePiece, hbad, apply_ite Prod.snd]
  unfold store writeWords
  split
  · rfl
  · have hd : bs.drop (eccUnit a - low50 a % eccUnit a) = [] := List.drop_eq_nil_of_le hfit
    have ht : bs.take (eccUnit a - low50 a % eccUnit a) = bs := List.take_of_length_le hfit
    have hnil (f : Nat) (t : State) (x : Nat) : (writeWords f t x []).2 = false := by cases f <;> rfl
    simp only [hd, ht, hp, hnil, Bool.or_self]

/-- A store of whole words of space 1 takes effect, whatever errors they held. -/
theorem writeWords_ok_of_whole (fuel : Nat) {s : State} {a : Nat} {bs : List Byte} (ha : a % 64 = 0) (hl : bs.length % 64 = 0)
    (hsp : ∀ i < bs.length, aSpace (a + i) = 1) : (writeWords fuel s a bs).2 = false := by
  induction fuel generalizing s a bs with
  | zero => rfl
  | succ n ih =>
    unfold writeWords
    split
    · rfl
    · rename_i hne
      have hpos : 0 < bs.length := List.length_pos_iff.2 hne
      have hu : eccUnit a = 64 := by simp [eccUnit, show aSpace a = 1 from hsp 0 hpos]
      have hlow : low50 a % 64 = 0 := by simp only [low50]; omega
      have h64 : 64 ≤ bs.length := by omega
      have hp : (writePiece s a (bs.take 64)).2 = false := by simp [writePiece, hu, hlow, h64]
      have hr := ih (s := (writePiece s a (bs.take 64)).1) (a := a + 64) (bs := bs.drop 64) (by omega) (by simp; omega)
        (fun i hi => by rw [Nat.add_assoc]; exact hsp _ (by simp at hi; omega))
      simp [hu, hlow, hp, hr]

-- what an access leaves -------------------------------------------------------------------------------------------------------

/-- What an access that has not faulted leaves of a running stope and of memory: every byte outside [a, a + len), every register but the scalars
`ss` and the vectors `vs`, and the program running. -/
structure AccessKept (n a len : Nat) (ss vs : List Byte) (s t : State) : Prop where
  memory : SameMemoryOutside a len s t
  stopes : StopesKept n ss [] vs s t
  running : (stope t n).prog = .running

section
variable {n a len : Nat} {ss vs : List Byte} {s t u : State}

theorem AccessKept.refl (hp : (stope s n).prog = .running) : AccessKept n a len ss vs s s := ⟨fun _ _ => rfl, StopesKept.refl s n, hp⟩

theorem AccessKept.trans (h : AccessKept n a len ss vs s t) (h' : AccessKept n a len ss vs t u) : AccessKept n a len ss vs s u :=
  ⟨fun x hx => (h'.memory x hx).trans (h.memory x hx), h.stopes.trans h'.stopes, h'.running⟩

/-- A new state of the stope that runs on and keeps its registers. -/
theorem AccessKept.setStope (h : AccessKept n a len ss vs s t) {y : Stope} (hy : y.prog = .running)
    (hk : Stope.Kept ss [] vs (stope t n) y) : AccessKept n a len ss vs s (setStope t n y) := by
  have hne : y.prog ≠ .empty := by simp [hy]
  refine h.trans ⟨fun _ _ => rfl, stopesKept_setStope hne hk, ?_⟩
  rw [stope_setStope_same t n y (Stope.ne_reset hne), hy]

/-- A change that leaves memory, the stopes and the node number. -/
theorem AccessKept.of_parts (h : AccessKept n a len ss vs s t) (hm : u.mem = t.mem) (hs : u.stopes = t.stopes) (hb : u.boot = t.boot) :
    AccessKept n a len ss vs s u := by
  refine h.trans ⟨fun x _ => by rw [readByte, readByte, hm], StopesKept.of_stopes hs (by rw [hb]), ?_⟩
  rw [← h.running, stope, stope, hs]

/-- A store of bytes of [a, a + len). -/
theorem AccessKept.store (h : AccessKept n a len ss vs s t) {x : Nat} {bs : List Byte} (hx : a ≤ x) (hl : x + bs.length ≤ a + len) :
    AccessKept n a len ss vs s (store t x bs).1 := by
  have hmem : SameMemoryOutside a len t (Machine.store t x bs).1 := fun y hy => by
    refine readByte_store_other t x y bs fun i hi => ?_
    have := hy (x - a + i) (by omega)
    rwa [show a + (x - a + i) = x + i by omega] at this
  obtain ⟨m, q, e⟩ := store_eq t x bs
  rw [e] at hmem ⊢
  exact h.trans ⟨hmem, StopesKept.of_stopes rfl rfl, h.running⟩

/-- A status goes to sB, and the stope goes on. -/
theorem AccessKept.statusTo (h : AccessKept n a len ss vs s t) {b : Byte} (hb : b ∈ ss) (st : Nat) :
    AccessKept n a len ss vs s (statusTo t n b st) :=
  h.setStope (by simp [Stope.advance, Stope.pass, h.running]) ((Stope.kept_setS _ b _ hb).trans (Stope.kept_advance _))

theorem AccessKept.served (h : AccessKept n a len ss vs s t) (bk : Nat) : AccessKept n a len ss vs s (served t n bk) := by
  unfold Machine.served
  split
  · exact h
  · exact h.of_parts rfl rfl rfl

theorem AccessKept.denyLocal (h : AccessKept n a len ss vs s t) {b : Byte} (hb : b ∈ ss) (c : Option Nat) :
    AccessKept n a len ss vs s (denyLocal t n b c) := by
  have hc : AccessKept n a len ss vs s (countDenied t c) := by
    cases c with
    | none => exact h
    | some k => exact h.of_parts rfl rfl rfl
  exact (hc.setStope (y := { stope (countDenied t c) n with part := none }) hc.running
    ⟨fun _ _ => rfl, fun _ _ => rfl, fun _ _ => rfl, rfl, rfl, rfl⟩).statusTo hb _

end

/-- A load's destination is the one register that it writes. -/
theorem Stope.kept_loadTo {ss vs : List Byte} (vec : Bool) (x : Stope) (d : Byte) (bs : List Byte)
    (hs : vec = false → d ∈ ss) (hv : vec = true → d ∈ vs) : Stope.Kept ss [] vs x (loadTo vec x d bs) := by
  cases vec with
  | false => exact Stope.kept_setS x d _ (hs rfl)
  | true => exact Stope.kept_setV x d _ (hv rfl)

@[simp] theorem Stope.prog_loadTo (vec : Bool) (x : Stope) (d : Byte) (bs : List Byte) : (loadTo vec x d bs).prog = x.prog := by
  cases vec with
  | false => exact Stope.prog_setS ..
  | true => rfl

theorem length_storeBytes (vec : Bool) (x : Stope) (d : Byte) : (storeBytes vec x d).length = accLen vec := by
  cases vec <;> simp [storeBytes, accLen]

@[simp] theorem anyBad_served (s : State) (n bk a len : Nat) : anyBad (served s n bk) a len = anyBad s a len := by
  unfold served; split <;> rfl

@[simp] theorem isBad_served (s : State) (n bk a : Nat) : isBad (served s n bk) a = isBad s a := by
  unfold served; split <;> rfl

-- vector accesses, word by word -------------------------------------------------------------------------------------------------

section
variable {rep : Reporter} {write : Bool} {s t : State} {n ad : Nat} {d b : Byte}

/-- The bytes that a vector access may change, and its destination. -/
abbrev VecKept (n ad : Nat) (write : Bool) (d b : Byte) (s t : State) : Prop :=
  AccessKept n ad (if write then 512 else 0) [b] (if write then [] else [d]) s t

theorem vecKept_endVec (h : VecKept n ad write d b s t) (p : VecPart) : VecKept n ad write d b s (endVec t n d b write p) := by
  refine AccessKept.statusTo (AccessKept.setStope h ?_ ?_) List.mem_cons_self _
  · split
    · exact h.running
    · simpa using h.running
  · split
    · exact ⟨fun _ _ => rfl, fun _ _ => rfl, fun _ _ => rfl, rfl, rfl, rfl⟩
    · exact Stope.Kept.trans (y := { stope t n with part := none }) ⟨fun _ _ => rfl, fun _ _ => rfl, fun _ _ => rfl, rfl, rfl, rfl⟩
        (Stope.kept_loadTo true _ d _ nofun fun _ => by simp)

/-- One word of a vector access, of a load without an error there. -/
theorem vecKept_vecWord (h : VecKept n ad write d b s t) (hbad : write = false → ∀ k < 8, anyBad t (ad + 64 * k) 64 = false) :
    VecKept n ad write d b s (vecWord rep write false t n d b ad) ∧
      (write = false → (vecWord rep write false t n d b ad).ue = t.ue) := by
  unfold vecWord
  dsimp only
  split
  · exact ⟨vecKept_endVec h _, fun _ => rfl⟩
  · rename_i hp
    cases write with
    | false =>
      simp only [Bool.not_false, Bool.true_and, hbad rfl _ (Nat.lt_of_not_le hp), Bool.false_eq_true, if_false]
      split
      · exact ⟨vecKept_endVec h _, fun _ => rfl⟩
      · exact ⟨AccessKept.setStope h h.running ⟨fun _ _ => rfl, fun _ _ => rfl, fun _ _ => rfl, rfl, rfl, rfl⟩, fun _ => rfl⟩
    | true =>
      have hs := AccessKept.store h (x := ad + 64 * ((stope t n).part.getD ⟨0, [], false, false⟩).words)
        (bs := sliceB (storeBytes true (stope t n) d) (64 * ((stope t n).part.getD ⟨0, [], false, false⟩).words) 64) (by omega)
        (by simp only [vecWords] at hp; simp only [sliceB, List.length_append, List.length_replicate, List.length_take, if_true]; omega)
      simp only [Bool.not_true, Bool.false_and, Bool.false_eq_true, if_false, if_true]
      split
      · exact ⟨vecKept_endVec hs _, nofun⟩
      · exact ⟨AccessKept.setStope hs hs.running ⟨fun _ _ => rfl, fun _ _ => rfl, fun _ _ => rfl, rfl, rfl, rfl⟩, nofun⟩

/-- The words of a vector access that are left. -/
theorem vecKept_vecRest (fuel : Nat) (h : VecKept n ad write d b s t) (hbad : write = false → ∀ k < 8, anyBad t (ad + 64 * k) 64 = false) :
    VecKept n ad write d b s (vecRest rep write n d b ad fuel t) := by
  induction fuel generalizing t with
  | zero => exact h
  | succ k ih =>
    unfold vecRest
    split
    · exact h
    · obtain ⟨hk, hue⟩ := vecKept_vecWord (rep := rep) h hbad
      exact ih hk fun hw j hj => (by simp only [anyBad, hue hw] : anyBad _ _ _ = anyBad t _ _).trans (hbad hw j hj)

end

-- the four instructions -----------------------------------------------------------------------------------------------------------

section
variable (rep : Reporter) (s : State) (st : Fin 512) (d a b : Byte) (imm : W32)

/-- What one access leaves of memory and of the stopes, a fault included. -/
def MemoryAndStopesKept (n a len : Nat) (ss vs : List Byte) (s t : State) : Prop := SameMemoryOutside a len s t ∧ StopesKept n ss [] vs s t

theorem AccessKept.both {n a len : Nat} {ss vs : List Byte} {s t : State} (h : AccessKept n a len ss vs s t) :
    MemoryAndStopesKept n a len ss vs s t := ⟨h.memory, h.stopes⟩

/-- The scalar and the vector registers that a load writes. -/
def loadedScalars (vec : Bool) (d b : Byte) : List Byte := if vec then [b] else [d, b]
def loadedVectors (vec : Bool) (d : Byte) : List Byte := if vec then [d] else []

/-- A load of words without errors changes its destination and sB. -/
theorem doLoad_kept (vec : Bool) (hp : (stope s st).prog = .running) (hbad : anyBad s (memAddr s st a imm) (accLen vec) = false) :
    MemoryAndStopesKept st (memAddr s st a imm) 0 (loadedScalars vec d b) (loadedVectors vec d) s
      (doLoad rep vec false s st d a b imm) := by
  have hb : b ∈ loadedScalars vec d b := by cases vec <;> simp [loadedScalars]
  have h0 := AccessKept.refl (a := memAddr s st a imm) (len := 0) (ss := loadedScalars vec d b) (vs := loadedVectors vec d) hp
  unfold doLoad
  dsimp only
  split
  · exact ⟨fun _ _ => rfl, stopesKept_progFault s st _⟩
  · split
    · exact h0.both
    · exact (h0.denyLocal hb _).both
    · rename_i bk hg
      split
      · rename_i hvec
        simp only [Bool.and_eq_true] at hvec
        obtain ⟨rfl, -⟩ := hvec
        obtain ⟨hw, -⟩ := ownBank_place st.isLt (by simp [accLen]) (ownBank_of_portAGate hg)
        have hv : VecKept st (memAddr s st a imm) false d b s (served s st bk) := h0.served bk
        exact (vecKept_vecRest (rep := rep) vecWords hv fun _ k hk => by
          rw [anyBad_served]
          exact anyBad_part hbad hw (by decide) (by simp only [accLen, if_true]; omega)).both
      · have hload : load (served s st bk) (memAddr s st a imm) (accLen vec) =
            some (readMem (served s st bk) (memAddr s st a imm) (accLen vec)) := by simp [load, hbad]
        simp only [Bool.false_eq_true, if_false, hload]
        have h1 := h0.served bk
        exact ((h1.setStope (by simpa using h1.running)
          (Stope.kept_loadTo vec _ d _ (fun e => by simp [e, loadedScalars]) (fun e => by simp [e, loadedVectors]))).statusTo hb _).both

/-- A store that port A serves takes effect where its words hold no error. -/
theorem store_ok_of_good {vec : Bool} {bk ad : Nat} (hal : ad % accAlign vec = 0) (hg : portAGate s st ad (accLen vec) true = .pass bk)
    (hbad : anyBad s ad (accLen vec) = false) : (store (served s st bk) ad (storeBytes vec (stope s st) d)).2 = false := by
  have hlen := length_storeBytes vec (stope s st) d
  cases vec with
  | false =>
    refine store_ok_of_piece (by rw [isBad_served]; exact isBad_of_anyBad hbad (by decide)) ?_
    simp only [accAlign, accLen, Bool.false_eq_true, if_false] at hal hlen
    have : low50 ad % 8 = 0 := by simp only [low50]; omega
    simp only [hlen, eccUnit]
    split <;> omega
  | true =>
    simp only [accAlign, if_true] at hal
    exact writeWords_ok_of_whole _ hal (by simp [hlen, accLen]) (hlen ▸ (ownBank_place st.isLt (by decide) (ownBank_of_portAGate hg)).2)

/-- A store whose words are good, or whole, changes the bytes it stores and sB. -/
theorem doStore_kept (vec : Bool) (hp : (stope s st).prog = .running) (hbad : anyBad s (memAddr s st a imm) (accLen vec) = false) :
    MemoryAndStopesKept st (memAddr s st a imm) (accLen vec) [b] [] s (doStore rep vec false s st d a b imm) := by
  have hb : b ∈ [b] := List.mem_cons_self
  have h0 := AccessKept.refl (a := memAddr s st a imm) (len := accLen vec) (ss := [b]) (vs := []) hp
  unfold doStore
  dsimp only
  split
  · exact ⟨fun _ _ => rfl, stopesKept_progFault s st _⟩
  · rename_i hal
    split
    · exact h0.both
    · exact (h0.denyLocal hb _).both
    · rename_i bk hg
      split
      · rename_i hvec
        simp only [Bool.and_eq_true] at hvec
        obtain ⟨rfl, -⟩ := hvec
        have hv : VecKept st (memAddr s st a imm) true d b s (served s st bk) := h0.served bk
        exact (vecKept_vecRest (rep := rep) vecWords hv nofun).both
      · have hlen := length_storeBytes vec (stope s st) d
        have hok := store_ok_of_good s st d (Classical.not_not.mp hal) hg hbad
        simp only [hok, Bool.false_eq_true, if_false]
        exact (((h0.served bk).store (Nat.le_refl _) (by omega)).statusTo hb _).both

/-- An instruction of the common shape leaves what its action leaves while its program runs. -/
theorem issue_memoryAndStopesKept {x len : Nat} {ss vs : List Byte} {op : Nat} {act : State → State}
    (h : (stope s st).prog = .running → MemoryAndStopesKept st x len ss vs s (act s)) :
    MemoryAndStopesKept st x len ss vs s (issue s st op d a b imm act) := by
  rcases issue_cases s st op d a b imm act with e | e | ⟨hw, -, e⟩ <;> rw [e]
  · exact ⟨fun _ _ => rfl, StopesKept.refl s st⟩
  · exact ⟨fun _ _ => rfl, stopesKept_progFault s st _⟩
  · refine h ?_
    refine Classical.byContradiction fun hp => ?_
    simp [atWord, issueWord, hp] at hw

end

/-- Outside no byte is everywhere. -/
theorem sameMemory_of_outside_nothing {a : Nat} {s t : State} (h : SameMemoryOutside a 0 s t) : SameMemory s t :=
  fun x => h x fun _ hi => absurd hi (Nat.not_lt_zero _)

/-- Settles O8: an access faults, waits, is denied, or performs its words, which hold no error. -/
theorem localAccessFrame : Obligations.LocalAccessFrame := by
  intro s t st d a b imm
  refine ⟨fun hbad => of_exec (P := fun t => SameMemory s t ∧ StopesKept st [d, b] [] [] s t) ⟨_, rfl, ?_⟩,
    fun hbad => of_exec (P := MemoryAndStopesKept st _ 8 [b] [] s) ⟨_, rfl, ?_⟩,
    fun hbad => of_exec (P := fun t => SameMemory s t ∧ StopesKept st [b] [] [d] s t) ⟨_, rfl, ?_⟩,
    fun hbad => of_exec (P := MemoryAndStopesKept st _ 512 [b] [] s) ⟨_, rfl, ?_⟩⟩
  · obtain ⟨hm, hk⟩ := issue_memoryAndStopesKept s st d a b imm (op := 0x11) (act := fun s => doLoad metIn false false s st d a b imm)
      fun hp => doLoad_kept metIn s st d a b imm false hp hbad
    exact ⟨sameMemory_of_outside_nothing hm, hk⟩
  · exact issue_memoryAndStopesKept s st d a b imm fun hp => doStore_kept metIn s st d a b imm false hp hbad
  · obtain ⟨hm, hk⟩ := issue_memoryAndStopesKept s st d a b imm (op := 0x3D) (act := fun s => doLoad metIn true false s st d a b imm)
      fun hp => doLoad_kept metIn s st d a b imm true hp hbad
    exact ⟨sameMemory_of_outside_nothing hm, hk⟩
  · exact issue_memoryAndStopesKept s st d a b imm fun hp => doStore_kept metIn s st d a b imm true hp hbad

end Sys2Proof.Machine
end

section
/-!
Handovers of a resource (R149), frames as a port takes them (R239, R240), and the outcome of an agreement (Table 12-4).
-/

namespace Sys2Proof.Machine

-- handovers -------------------------------------------------------------------------------------------------------------------

/-- An owner word reads back as the agent that it names. -/
theorem holder_wr_ownerWord (s : State) (pg : Nat) (w : Agent) (hty : w.ty < 2 ^ 16) (hinst : w.inst < 2 ^ 16) :
    holder (wr s pg BLK_OWNER (ownerWord w)) pg = w := by
  have e : (ownerWord w).toNat = w.ty * 65536 + w.inst := by
    simp only [ownerWord, BitVec.toNat_ofNat]
    omega
  cases w
  simp only [holder, rd_wr_same, e, Agent.mk.injEq]
  simp only at hty hinst
  omega

/-- A holder that no rival meets in its cycle hands its resource over, once a lease that is over has ended (R149). -/
theorem ownerWrite_by_holder (s : State) (w nx : Agent) (r : Res) (hsafe : isSafe s (resPage r / 8192) = false) (hlease : leaseOver s r = false)
    (hmay : mayHold s r nx = true) (hw : writesAsHolder s r w = true) (hun : Unrivalled s w (resPage r) BLK_OWNER) :
    ownerWrite s w r nx = noteRanked s w (resPage r) BLK_OWNER (ownerUndo s r) (handover s r nx) := by
  simp [ownerWrite, hsafe, dueEnd_running s r hlease, hmay, hw, ranked_unrivalled s w _ _ _ _ hun]

/-- A resource without a tally that is handed over is held by the agent named, and its page alone changes. -/
theorem handover_without_tally (s : State) (r : Res) (nx : Agent) (hb : ∀ b, r ≠ .bank b) (hty : nx.ty < 2 ^ 16) (hinst : nx.inst < 2 ^ 16) :
    holder (handover s r nx) (resPage r) = nx ∧ handover s r nx = { s with regs := (handover s r nx).regs } := by
  unfold handover
  split
  · exact ⟨‹nx = _›.symm, rfl⟩
  · have e : passTo s r nx = wr s (resPage r) BLK_OWNER (ownerWord nx) := by
      cases r with
      | bank b => exact absurd rfl (hb b)
      | _ => rfl
    rw [e]
    exact ⟨holder_wr_ownerWord s _ nx hty hinst, rfl⟩

/-- Settles O23: the holder's write without a rival is noted, and hands the resource over. -/
theorem handoverNamesTheHolder : Obligations.HandoverNamesTheHolder := by
  intro s t w nx r hsafe hb hlease hmay hw hun hty hinst ht
  obtain ⟨hh, he⟩ := handover_without_tally s r nx hb hty hinst
  refine of_exec (P := fun t => holder t (resPage r) = nx ∧ t = { s with regs := t.regs, ranked := t.ranked }) ⟨_, rfl, ?_⟩ ht
  rw [ownerWrite_by_holder s w nx r hsafe hlease hmay hw hun]
  refine ⟨hh, ?_⟩
  rw [noteRanked_eq, he]

-- frames ------------------------------------------------------------------------------------------------------------------------

section
variable (s : State) (p : Nat) (bs : List Byte) (ty : Nat)

/-- The frame that a port sees once its encryption has been opened: an operation frame of a port with keys, and any other as it came. -/
def openFrame (x : Port) (ty : Nat) (f : RxFrame) : Option RxFrame :=
  match x.keys with
  | some k => if ty = 0 then (openBody k f).map (fun b => { f with body := b }) else some f
  | none => some f

/-- What a running port does with a good frame of the named type that carries an `LSEQ` (R239). -/
theorem receive_of_good (f : RxFrame) (hrun : linkRuns s p = true) (hc : checkFrame bs = .good f) (hty : f.ftype = ty) (h1 : ty ≠ 1)
    (h5 : ty ≠ 5) : receive s p bs ty = match openFrame (port s p) ty f with
      | none => (sendNak (bump s (pgPort p) CRC_ERR 1) p, none)
      | some g => if f.lseq ≠ (port s p).rxNext then (sendNak s p, none)
          else (takeAck (setPort s p { port s p with rxNext := ((port s p).rxNext + 1) % 4096, nakSent := false }) p f, some g) := by
  unfold receive
  subst hty
  simp only [hrun, Bool.not_true, Bool.false_eq_true, if_false, hc, ne_eq, not_true_eq_false, h1, h5, or_self]
  rfl

/-- Settles O31: a frame's check decides, then its encryption, then its `LSEQ`. -/
theorem framesInSequence : Obligations.FramesInSequence := by
  intro s p bs ty hrun
  refine ⟨fun hc => ?_, fun hc => ?_, fun f hc hty h1 h5 => ⟨fun hplain => ?_, fun k hk h0 => ?_⟩, fun hn => ?_, fun hn => ?_⟩
  · simp [receive, hrun, hc]
  · rcases hc with hc | ⟨f, hc⟩ <;> simp [receive, hrun, hc]
  · have ho : openFrame (port s p) ty f = some f := by
      unfold openFrame
      rcases hplain with h | h
      · rw [h]
      · split <;> simp [h]
    rw [receive_of_good s p bs ty f hrun hc hty h1 h5, ho]
    exact ⟨fun h => by simp [h], fun h => by simp [h]⟩
  · rw [receive_of_good s p bs ty f hrun hc hty h1 h5]
    simp only [openFrame, hk, h0, if_true]
    cases openBody k f with
    | none => rfl
    | some b => simp
  · simp [sendNak, hn]
  · simp [sendNak, hn]

end

-- agreement -----------------------------------------------------------------------------------------------------------------------

/-- Settles O35: the comparisons of Table 12-4 in their order. -/
theorem agreementOutcome : Obligations.AgreementOutcome := by
  intro own x node
  refine ⟨fun h => by simp [agreeOutcome, h], fun hclass => ⟨fun h => by simp [agreeOutcome, hclass, h],
    fun hrev => ⟨fun h => by simp [agreeOutcome, hclass, hrev, h], fun hprof => ?_⟩⟩⟩
  have hcompared : agreeOutcome own x = if node own = 0x7FFF ∨ node x.peerAgree = 0x7FFF then (3, 4)
      else if node own / 2 = node x.peerAgree / 2 then (3, 5)
      else if x.crypt && decide (x.attest ≠ 2) then (3, 6)
      else if !x.timeAgreed then (4, 0)
      else (5, 0) := by
    unfold agreeOutcome
    exact (if_neg (Classical.not_not.2 hclass)).trans ((if_neg (Classical.not_not.2 hrev)).trans (if_neg (Classical.not_not.2 hprof)))
  rw [hcompared]
  refine ⟨fun h => if_pos h, fun hown hpeer => ?_⟩
  rw [if_neg (not_or.2 ⟨hown, hpeer⟩)]
  refine ⟨fun h => if_pos h, fun hnode => ?_⟩
  rw [if_neg hnode]
  refine ⟨fun hcrypt hatt => by simp [hcrypt, hatt], fun hsec => ?_⟩
  have hopen : (x.crypt && decide (x.attest ≠ 2)) = false := by rcases hsec with h | h <;> simp [h]
  rw [hopen, if_neg Bool.false_ne_true]
  refine ⟨fun hst => ?_, fun hst => ?_⟩
  · by_cases hg : 2 ≤ x.good <;> simp [Port.timeAgreed, hst, hg]
  · by_cases hg : x.theta.natAbs ≤ 25 <;> simp [Port.timeAgreed, hst, hg]

end Sys2Proof.Machine
end

section
/-!
Control pages (R9, R292, R294): how a 32-bit write acts by the register's access, what a refused write records, and the accesses that reach a
page by the management path.
-/

namespace Sys2Proof.Machine

-- one 32-bit write ------------------------------------------------------------------------------------------------------------

/-- The value that a write brings to a register: without the bits that its table lists as RO, where it has such (R9). -/
def broughtTo (k : PageKind) (off mask : Nat) (v : W32) : W32 := if roRest k off then v &&& BitVec.ofNat 32 mask else v

/-- Past the header, only `FB_CTL` has bits that its table lists as RO. -/
theorem roRest_body {k : PageKind} {off : Nat} (ho : 0x40 ≤ off) (h : roRest k off = true) : k = .outlier ∧ off = FB_CTL := by
  simp only [roRest, Bool.or_eq_true, Bool.and_eq_true, decide_eq_true_eq, BLK_CTL, BLK_ERR, BLK_IRQ_STATUS, BLK_IRQ_MASK] at h
  rcases h with h | h
  · omega
  · exact h

section
variable {s : State} {w : Agent} {pg off : Nat} {v : W32}

/-- What a write outside the safe state does at a register, in the order of its checks (R292, R294). -/
theorem writeWord_of_reg {r : Reg} (hp : servePage s pg = pg) (hs : isSafe s (pg / 8192) = false) (hr : regOf pg off = some r) :
    let k := (pageKind (pg / 8192) (pg % 8192)).1
    let j := (pageKind (pg / 8192) (pg % 8192)).2
    let u := broughtTo k off r.mask v
    writeWord s w pg off v =
      if k = .liveRoutes ∨ (k = .liveMc ∧ off < 2048) then refuseWrite s w pg off
      else if 0x40 ≤ off ∧ pageOn s pg = false ∧ neverRefused k off u = false then refuseWrite s w pg off
      else if r.acc = .ro ∨ r.acc = .rc then s
      else if isTable k then tableWrite s w pg off u
      else if u.toNat &&& (2 ^ 32 - 1 - r.mask) ≠ 0 then refuseWrite s w pg off
      else if off < 0x40 then headerWrite s w pg off r u
      else (ownWrite s w k (pg / 8192) j off u).getD (plainWrite s w pg off k r u) := by
  simp only [writeWord, hp, hs, hr, broughtTo, Bool.false_eq_true, if_false, Option.map_some, Option.getD_some]
  congr 6
  cases ownWrite s w (pageKind (pg / 8192) (pg % 8192)).1 (pg / 8192) (pageKind (pg / 8192) (pg % 8192)).2 off
    (if roRest (pageKind (pg / 8192) (pg % 8192)).1 off = true then v &&& BitVec.ofNat 32 r.mask else v) <;> rfl

/-- In the safe state a write does what the field's own rule makes of it (R292). -/
theorem writeWord_of_safe (hp : servePage s pg = pg) (hs : isSafe s (pg / 8192) = true) :
    ∃ u, (roRest (pageKind (pg / 8192) (pg % 8192)).1 off = false → u = v) ∧ writeWord s w pg off v = safeWrite s w pg off u :=
  ⟨if roRest (pageKind (pg / 8192) (pg % 8192)).1 off then v &&& BitVec.ofNat 32 (((regOf pg off).map (fun r => r.mask)).getD 0) else v,
    fun h => by simp [h], by simp [writeWord, hp, hs]⟩

/-- A value without a one outside the eight low bits is what they hold. -/
theorem and_255_of_high_zero (h : v.toNat &&& (2 ^ 32 - 1 - 0xFF) = 0) : v &&& BitVec.ofNat 32 0xFF = v := by
  have h0 : v &&& 0xFFFFFF00#32 = 0#32 := by
    rw [← BitVec.toNat_inj, BitVec.toNat_and]
    exact h
  calc v &&& BitVec.ofNat 32 0xFF = (v &&& 0xFF#32) ||| (v &&& 0xFFFFFF00#32) := by rw [h0, BitVec.or_zero]
    _ = v &&& (0xFF#32 ||| 0xFFFFFF00#32) := BitVec.and_or_distrib_left.symm
    _ = v := by rw [show 0xFF#32 ||| 0xFFFFFF00#32 = BitVec.allOnes 32 by decide, BitVec.and_allOnes]

/-- A write that sets no reserved bit past the header brings its value as it is. -/
theorem broughtTo_of_no_reserved {r : Reg} (hr : regOf pg off = some r) (ho : 0x40 ≤ off) (hv : v.toNat &&& (2 ^ 32 - 1 - r.mask) = 0) :
    broughtTo (pageKind (pg / 8192) (pg % 8192)).1 off r.mask v = v := by
  unfold broughtTo
  split
  · rename_i h
    obtain ⟨hk, rfl⟩ := roRest_body ho h
    have hm : r.mask = 0xFF := by
      simp only [regOf, hk, isTable] at hr
      cases hr
      rfl
    rw [hm] at hv ⊢
    exact and_255_of_high_zero hv
  · rfl

/-- A good write of a plain register past the header of a block with power reaches it. -/
theorem writeWord_plain {r : Reg} (hp : servePage s pg = pg) (hs : isSafe s (pg / 8192) = false) (hr : regOf pg off = some r)
    (ht : isTable (pageKind (pg / 8192) (pg % 8192)).1 = false) (hro : r.acc ≠ .ro) (hrc : r.acc ≠ .rc) (ho : 0x40 ≤ off)
    (hv : v.toNat &&& (2 ^ 32 - 1 - r.mask) = 0) (hon : pageOn s pg = true)
    (hown : ownWrite s w (pageKind (pg / 8192) (pg % 8192)).1 (pg / 8192) (pageKind (pg / 8192) (pg % 8192)).2 off v = none) :
    writeWord s w pg off v = plainWrite s w pg off (pageKind (pg / 8192) (pg % 8192)).1 r v := by
  have hl : ¬((pageKind (pg / 8192) (pg % 8192)).1 = .liveRoutes ∨ ((pageKind (pg / 8192) (pg % 8192)).1 = .liveMc ∧ off < 2048)) := by
    rintro (h | ⟨h, -⟩) <;> simp [h, isTable] at ht
  rw [writeWord_of_reg hp hs hr]
  simp [broughtTo_of_no_reserved hr ho hv, hl, hon, hro, hrc, ht, hv, Nat.not_lt.2 ho, hown, -Nat.reducePow]

end

/-- Settles O42: the checks of one write in their order, clause by clause. -/
theorem writesByAccess : Obligations.WritesByAccess := by
  intro s w pg off v hp k j
  refine ⟨fun hs => ?_, fun hs => ⟨fun hr => ?_, fun r hr => ?_⟩⟩
  · obtain ⟨u, hu, e⟩ := writeWord_of_safe (w := w) (off := off) (v := v) hp hs
    refine ⟨fun hne => ?_, fun hpg => ?_⟩
    · rw [e]
      rcases hne with h | h
      · simp [safeWrite, h]
      · simp only [List.mem_cons, List.not_mem_nil, or_false, not_or] at h
        simp [safeWrite, h]
    · have hro : 0x40 ≤ off → u = v := fun ho => hu (by
        refine Classical.byContradiction fun h => ?_
        have := (roRest_body ho (by simpa using h)).1
        rw [hpg] at this
        cases this)
      refine ⟨fun ho => ?_, fun ho => ?_⟩
      · rw [e, hro (by simp only [ho, ASSIGN]; omega), hpg, ho]
        simp [safeWrite]
      · have hna : off ≠ ASSIGN := by rcases ho with rfl | rfl <;> decide
        rw [e, hro (by rcases ho with rfl | rfl <;> decide), hpg]
        simp only [safeWrite, ne_eq, not_true_eq_false, if_false, hna, ho, if_true]
  · exact writeWord_reserved s w pg off v (by rwa [hp]) (by rwa [hp])
  · have e (u : W32) := writeWord_of_reg (w := w) (v := u) hp hs hr
    have hl (ht : isTable k = false) : ¬(k = .liveRoutes ∨ (k = .liveMc ∧ off < 2048)) := by
      rintro (h | ⟨h, -⟩) <;> simp [h, isTable] at ht
    have hnever (hoff : 0x40 ≤ off) (hn : neverRefused k off v = false) : neverRefused k off (broughtTo k off r.mask v) = false := by
      unfold broughtTo
      split
      · rename_i h
        simp [(roRest_body hoff h).1, neverRefused]
      · exact hn
    refine ⟨fun h => ?_, fun ht ho hoff hn => ?_, fun ht ha ho => ?_, fun hrest => ?_, fun hro hrc ht => ⟨fun hrest hv => ?_,
      fun hv ho hon hown hval => ⟨fun hrws => ⟨fun hm => ?_, fun hm => ⟨fun hmay hun => ?_, fun hmay => ?_⟩⟩, fun hw => ?_⟩⟩⟩
    · rw [e]
      exact if_pos h
    · rw [e]
      exact (if_neg (hl ht)).trans (if_pos ⟨ho, hoff, hnever ho hn⟩)
    · have hpow : ¬(0x40 ≤ off ∧ pageOn s pg = false ∧ neverRefused k off (broughtTo k off r.mask v) = false) := by
        rintro ⟨h1, h2, -⟩
        rcases ho with h | h
        · omega
        · simp [h] at h2
      rw [e]
      exact (if_neg (hl ht)).trans ((if_neg hpow).trans (if_pos ha))
    · have hb : broughtTo k off r.mask (v &&& BitVec.ofNat 32 r.mask) = broughtTo k off r.mask v := by
        simp [broughtTo, hrest, BitVec.and_assoc]
      rw [e, e]
      simp only [k] at hb
      simp only [hb]
    · by_cases hpow : 0x40 ≤ off ∧ pageOn s pg = false ∧ neverRefused k off (broughtTo k off r.mask v) = false
      · rw [e]
        exact (if_neg (hl ht)).trans (if_pos hpow)
      · have hb : broughtTo k off r.mask v = v := by simp [broughtTo, hrest]
        rw [e]
        refine (if_neg (hl ht)).trans ((if_neg hpow).trans ((if_neg (not_or.2 ⟨hro, hrc⟩)).trans ((if_neg (by simp [ht, k])).trans (if_pos ?_))))
        rwa [hb]
    all_goals
      rw [writeWord_plain hp hs hr ht hro hrc ho hv hon hown]
      have hval' : valueOk s (pageKind (pg / 8192) (pg % 8192)).1 (pg / 8192) (pageKind (pg / 8192) (pg % 8192)).2 off v = true := hval
    · simp [plainWrite, hval', hrws, show isManaged (pageKind (pg / 8192) (pg % 8192)).1 off = false from hm]
    · simp [plainWrite, hval', hrws, show isManaged (pageKind (pg / 8192) (pg % 8192)).1 off = true from hm,
        show mayManage s w pg (pageKind (pg / 8192) (pg % 8192)).1 = true from hmay, ranked_unrivalled s w pg off _ _ hun]
    · simp [plainWrite, hval', hrws, show isManaged (pageKind (pg / 8192) (pg % 8192)).1 off = true from hm,
        show mayManage s w pg (pageKind (pg / 8192) (pg % 8192)).1 = false from hmay]
    · simp [plainWrite, hval', hw]

-- refused writes ----------------------------------------------------------------------------------------------------------------

/-- A bit of `BLK_ERR` once set reads 1, and no register of another page changes. -/
theorem rd_blkErr_other (s : State) (pg bit p q : Nat) (hp : p ≠ pg) (hq : q < 4096) : rd (blkErr s pg bit) p q = rd s p q := by
  have hk (off : Nat) (ho : off < 4096) : rkey p q ≠ rkey pg off := fun h => hp (rkey_inj p q pg off hq ho h).1
  unfold blkErr
  split
  · rfl
  · rw [rd_setIrq, rd_setBits_other _ _ _ _ _ _ (hk _ (by decide)), rd_setBits_other _ _ _ _ _ _ (hk _ (by decide))]

/-- Status bits set leave `BLK_ERR`. -/
theorem rd_setIrq_err (s : State) (pg bits : Nat) : rd (setIrq s pg bits) pg BLK_ERR = rd s pg BLK_ERR := by
  rw [rd_setIrq]
  exact rd_setBits_other _ _ _ _ _ _ (by simp only [rkey, BLK_ERR, BLK_IRQ_STATUS]; omega)

/-- A refusal sets bit 0 of `BLK_ERR`. -/
theorem rd_blkErr_refused (s : State) (pg : Nat) : (rd (blkErr s pg 0) pg BLK_ERR).toNat % 2 = 1 := by
  unfold blkErr
  split
  · rename_i h
    simpa [bitsOf_eq] using h
  · rw [rd_setIrq_err, rd_setBits_same, BitVec.toNat_ofNat, Nat.mod_mod_of_dvd _ (by decide : 2 ∣ 2 ^ 32), Nat.or_mod_two_eq_one]
    exact .inr rfl

/-- An error bit leaves whether the device is split. -/
@[simp] theorem devPage_blkErr (s : State) (pg bit d p : Nat) : devPage (blkErr s pg bit) d p = devPage s d p := by
  obtain ⟨r, q, h⟩ := blkErr_eq s pg bit
  rw [h]
  rfl

section
variable (s : State) (w : Agent) (pg off : Nat)

/-- What the record of a refused write reads as, on the page that serves its die. -/
theorem rd_recordRefused_page : rd (recordRefused s w pg off) (devPage s (pg / 8192) 0) REFUSED_PAGE =
    BitVec.ofNat 32 (pg % 8192 + 2 ^ 13 * (pg / 8192) + 2 ^ 14 * off) := by
  unfold recordRefused
  rw [rd_bump_other, rd_wr_other, rd_wr_same] <;> simp only [rkey, REFUSED_PAGE, REFUSED_INFO, REFUSED_COUNT] <;> omega

theorem rd_recordRefused_info : rd (recordRefused s w pg off) (devPage s (pg / 8192) 0) REFUSED_INFO =
    BitVec.ofNat 32 (w.ty % 65536 + 65536 * w.inst) := by
  unfold recordRefused
  rw [rd_bump_other, rd_wr_same]
  simp only [rkey, REFUSED_INFO, REFUSED_COUNT]
  omega

theorem rd_recordRefused_count : rd (recordRefused s w pg off) (devPage s (pg / 8192) 0) REFUSED_COUNT =
    BitVec.ofNat 32 (Nat.min 0xFFFFFFFF ((rd s (devPage s (pg / 8192) 0) REFUSED_COUNT).toNat + 1)) := by
  unfold recordRefused
  rw [rd_bump_same, rd_wr_other, rd_wr_other] <;> simp only [rkey, REFUSED_PAGE, REFUSED_INFO, REFUSED_COUNT] <;> omega

/-- Every register of another page stays. -/
theorem rd_recordRefused_other (p q : Nat) (hp : p ≠ devPage s (pg / 8192) 0) (hq : q < 4096) :
    rd (recordRefused s w pg off) p q = rd s p q := by
  have hk (o : Nat) (ho : o < 4096) : rkey p q ≠ rkey (devPage s (pg / 8192) 0) o := fun h => hp (rkey_inj _ _ _ _ hq ho h).1
  unfold recordRefused
  rw [rd_bump_other _ _ _ _ _ _ (hk _ (by decide)), rd_wr_other _ _ _ _ _ _ (hk _ (by decide)), rd_wr_other _ _ _ _ _ _ (hk _ (by decide))]

/-- The device page is the first of its die. -/
theorem devPage_mod (d : Nat) : devPage s d 0 % 8192 = 0 := by
  unfold devPage gpage
  split <;> omega

end

/-- Settles O43: the error bit is set in the page, and the record in the device page, which is another. -/
theorem refusedWriteRecorded : Obligations.RefusedWriteRecorded := by
  intro s w pg off hpg hpage hoff htab t dp
  have hne : dp ≠ pg := fun h => by
    have : dp % 8192 = 0 := devPage_mod s _
    omega
  have ht : t = recordRefused (blkErr s pg 0) w pg off := by simp [t, refuseWrite, htab]
  have hdp : dp = devPage (blkErr s pg 0) (pg / 8192) 0 := (devPage_blkErr s pg 0 _ 0).symm
  rw [ht]
  refine ⟨?_, ?_, ?_, ?_, ?_⟩
  · rw [hdp, rd_recordRefused_page, BitVec.toNat_ofNat]
    omega
  · rw [hdp, rd_recordRefused_info]
  · rw [hdp, rd_recordRefused_count, BitVec.toNat_ofNat, ← hdp, rd_blkErr_other s pg 0 dp _ hne (by decide)]
    exact Nat.mod_eq_of_lt (Nat.lt_of_le_of_lt (Nat.min_le_left _ _) (by decide))
  · rw [rd_recordRefused_other _ _ _ _ _ _ (by rw [← hdp]; exact hne.symm) (by decide)]
    exact rd_blkErr_refused s pg
  · obtain ⟨r, q, h⟩ := blkErr_eq s pg 0
    rw [h]
    rfl

-- accesses by the management path -------------------------------------------------------------------------------------------------

section
variable (s : State) (die : Die) (page : BitVec 13)

/-- A page past the first two serves itself. -/
theorem servePage_gpage (h : 2 ≤ page.toNat) : servePage s (gpage die page.toNat) = gpage die page.toNat := by
  have := page.isLt
  have : ¬gpage die page.toNat % 8192 < 2 := by simp only [gpage]; omega
  simp [servePage, this]

theorem gpage_div : gpage die page.toNat / 8192 = die.val := by
  have := page.isLt
  simp only [gpage]
  omega

theorem gpage_mod : gpage die page.toNat % 8192 = page.toNat := by
  have := page.isLt
  simp only [gpage]
  omega

/-- An aligned 4-byte read by a released device's management path answers what `readWord` gives. -/
theorem readBy_mgmt_word (pg o : Nat) (hrel : s.boot.released = true) (ho : o % 4 = 0) :
    readBy s .mgmt pg o 4 = emit (readWord s pg o).1 (.readData (toLE 4 (readWord s pg o).2.toNat)) := by
  simp [readBy, hrel, wellSized, ho, readSpan]

/-- A read answers the value that the register shows. -/
theorem readWord_value (pg o : Nat) (hp : servePage s pg = pg) : (readWord s pg o).2 = regValue s pg o := by
  unfold readWord
  simp only [hp]
  repeat' split
  all_goals rfl

end

-- writes judged by the count of refusals ---------------------------------------------------------------------------------------------

section
variable (s : State) (w : Agent) (k : PageKind) (d j off : Nat) (v : W32)

/-- Whether a field has a rule of its own does not hang on the state. -/
theorem isNone_ownWrite (t : State) : (ownWrite s w k d j off v).isNone = (ownWrite t w k d j off v).isNone := by
  cases k
  case headframe | security | time | foreman | stack | port | host | mailbox | pillar | gallery | engine | channel | stope | outlier =>
    simp only [ownWrite, apply_ite Option.isNone, Option.isNone_some]
  all_goals simp only [ownWrite]

/-- A staged value of a page that is not the first of its die does not hang on that page's registers. -/
theorem rdStaged_wr_first (p q a b : Nat) (x : W32) (hp : p % 8192 = 0) (hq : q < 4096) (ha : a % 8192 ≠ 0) (hb : b < 4096) :
    rdStaged (wr s p q x) a b = rdStaged s a b := by
  have h : rd (wr s p q x) a b = rd s a b := rd_wr_other _ _ _ _ _ _ fun h => ha ((rkey_inj _ _ _ _ hb hq h).1 ▸ hp)
  rw [rdStaged, rdStaged, h]
  rfl

/-- Whether a value is in range does not hang on the registers of a device page. -/
theorem valueOk_wr_first (p q : Nat) (x : W32) (hp : p % 8192 = 0) (hq : q < 4096) (hoff : off < 4096) :
    valueOk (wr s p q x) k d j off v = valueOk s k d j off v := by
  have hr (b : Nat) (hb : b < 4096) : rdStaged (wr s p q x) (pgRmop d) b = rdStaged s (pgRmop d) b :=
    rdStaged_wr_first s p q _ b x hp hq (by simp only [pgRmop, gpage]; omega) hb
  have ha (b : Nat) (hb : b < 4096) : rdStaged (wr s p q x) (pgAssay (4 * d + j)) b = rdStaged s (pgAssay (4 * d + j)) b :=
    rdStaged_wr_first s p q _ b x hp hq (by simp only [pgAssay, gpage]; omega) hb
  have hhigh : highHere (wr s p q x) d = highHere s d := rfl
  cases k with
  | rmop =>
    simp only [valueOk, regionOk, hhigh, hr (off / 16 * 16) (by omega), hr (off / 16 * 16 + 4) (by omega), hr (off / 16 * 16 + 8) (by omega)]
  | assay => simp only [valueOk, ha CANARY_SIZE (by decide), ha ASSAY_CTL (by decide)]
  | history => simp only [valueOk, hhigh]
  | _ => rfl

end

-- the reset values that stand at the count of refusals --------------------------------------------------------------------------------

/-- No register past the end of a page has a reset value but 0. -/
theorem regReset_past_page (pg off : Nat) (h : 4096 ≤ off) : regReset pg off = 0 := by
  have hne (c : Nat) (hc : c < 4096) : off ≠ c := by omega
  have hlt (c : Nat) (hc : c ≤ 4096) : ¬off < c := by omega
  have hb (k : PageKind) (d : Nat) (r : Reg) (hr : bodyReg k d off = some r) : r.reset = 0 := by
    cases k
    case stagedRoutes | liveRoutes | stagedMc | liveMc => cases hr; rfl
    all_goals simp (disch := decide) [bodyReg, hne, hlt] at hr
  have hlow : ¬off < 0x40 := by omega
  unfold regReset
  split
  · rename_i r hr
    rw [hb (pageKind (pg / 8192) (pg % 8192)).1 (pg / 8192) r]
    · rfl
    · simp only [regOf, hlow, if_false, ite_self] at hr
      split at hr
      · cases hr
      · exact hr
  · rfl

/-- What stands at the place of a device page's count of refusals is 0 at reset. -/
theorem regReset_refusedCount (dp p q : Nat) (hdp : dp % 8192 = 0) (h : rkey p q = rkey dp REFUSED_COUNT) : regReset p q = 0 := by
  by_cases hq : q < 4096
  · obtain ⟨rfl, hw⟩ := rkey_inj p q dp REFUSED_COUNT hq (by decide) h
    have hk : pageKind (p / 8192) (p % 8192) = (.device, 0) := by simp [pageKind, hdp]
    have : q = 0x54 ∨ q = 0x55 ∨ q = 0x56 ∨ q = 0x57 := by simp only [REFUSED_COUNT] at hw; omega
    rcases this with rfl | rfl | rfl | rfl <;> simp [regReset, regOf, hk, isTable, bodyReg, GEN_STATE, REFUSED_COUNT]
  · exact regReset_past_page p q (by omega)

section
variable (s : State) (w : Agent) (pg off : Nat) (v : W32)

/-- A write that reaches its register `f` and no other part of the state is judged good, and is all that changes, where the page is not the first
of its die. -/
theorem writeJudged_of_wr (hpg : pg % 8192 ≠ 0) (hoff : off < 4096)
    (h : writeWord (wr s (devPage s (pg / 8192) 0) REFUSED_COUNT 0) w pg off v = wr (wr s (devPage s (pg / 8192) 0) REFUSED_COUNT 0) pg off v) :
    ∃ r, (writeJudged s w pg off v).1 = { s with regs := r } ∧ rd { s with regs := r } pg off = v ∧
      ∀ p q, rkey p q ≠ rkey pg off → rd { s with regs := r } p q = rd s p q := by
  have hne : rkey (devPage s (pg / 8192) 0) REFUSED_COUNT ≠ rkey pg off := fun e =>
    hpg ((rkey_inj _ _ _ _ (by decide) hoff e).1 ▸ devPage_mod s _)
  refine ⟨(writeJudged s w pg off v).1.regs, ?_, ?_, fun p q hk => ?_⟩
  all_goals simp only [writeJudged, h]
  · rfl
  · change rd (bump _ _ _ _) pg off = v
    rw [rd_bump_other _ _ _ _ _ _ hne.symm, rd_wr_other _ _ _ _ _ _ hne.symm, rd_wr_same]
  · change rd (bump _ _ _ _) p q = rd s p q
    by_cases hc : rkey p q = rkey (devPage s (pg / 8192) 0) REFUSED_COUNT
    · have h0 : regReset p q = regReset (devPage s (pg / 8192) 0) REFUSED_COUNT := by
        rw [regReset_refusedCount _ p q (devPage_mod s _) hc, regReset_refusedCount _ _ _ (devPage_mod s _) rfl]
      have e (x : State) : rd x p q = rd x (devPage s (pg / 8192) 0) REFUSED_COUNT := by rw [rd, rd, hc, h0]
      rw [e, e, rd_bump_same, rd_wr_same, rd_wr_other _ _ _ _ _ _ hne, rd_wr_same]
      have := (rd s (devPage s (pg / 8192) 0) REFUSED_COUNT).isLt
      apply BitVec.eq_of_toNat_eq
      rw [BitVec.toNat_ofNat, show (0 : W32).toNat = 0 from rfl, Nat.add_zero]
      exact (Nat.mod_eq_of_lt (Nat.lt_of_le_of_lt (Nat.min_le_left _ _) (by decide))).trans (Nat.min_eq_right (by omega))
    · rw [rd_bump_other _ _ _ _ _ _ hc, rd_wr_other _ _ _ _ _ _ hc, rd_wr_other _ _ _ _ _ _ hk, rd_wr_other _ _ _ _ _ _ hc]

/-- A field without a rule of its own is no place of `POST`. -/
theorem isPost_of_no_ownWrite (h : ownWrite s w (pageKind (pg / 8192) (pg % 8192)).1 (pg / 8192) (pageKind (pg / 8192) (pg % 8192)).2 off v = none) :
    isPost pg off = false := by
  refine Classical.byContradiction fun hp => ?_
  simp only [isPost, Bool.not_eq_false, Bool.and_eq_true, decide_eq_true_eq] at hp
  obtain ⟨⟨hk, ho⟩, -⟩ := hp
  have h1 : off ≠ M_CTL := by simp only [M_POST, M_CTL] at ho ⊢; omega
  have h2 : off ≠ M_POP := by simp only [M_POST, M_POP] at ho ⊢; omega
  simp [ownWrite, hk, ho, h1, h2] at h

/-- An aligned 4-byte write by a released device's management path is judged as one of its word. -/
theorem writeBy_mgmt_word (hrel : s.boot.released = true) (ho : off % 4 = 0) (hpost : isPost pg off = false) :
    writeBy s w .mgmt pg off (toLE 4 v.toNat) = (writeJudged s w pg off v).1 := by
  have hv : BitVec.ofNat 32 (leAt (toLE 4 v.toNat) 0 4) = v := by
    have := v.isLt
    apply BitVec.eq_of_toNat_eq
    rw [leAt_toLE, BitVec.toNat_ofNat]
    omega
  simp [writeBy, hrel, wellSized, ho, writePage, hpost, writeSpan, hv]

variable {s w pg off v} {r : Reg}

/-- A good write of an RW register past the header of an idle block with power reaches it. -/
theorem writeWord_rw (hp : servePage s pg = pg) (hs : isSafe s (pg / 8192) = false) (hr : regOf pg off = some r)
    (ht : isTable (pageKind (pg / 8192) (pg % 8192)).1 = false) (hrw : r.acc = .rw) (ho : 0x40 ≤ off)
    (hv : v.toNat &&& (2 ^ 32 - 1 - r.mask) = 0) (hon : pageOn s pg = true)
    (hown : ownWrite s w (pageKind (pg / 8192) (pg % 8192)).1 (pg / 8192) (pageKind (pg / 8192) (pg % 8192)).2 off v = none)
    (hval : valueOk s (pageKind (pg / 8192) (pg % 8192)).1 (pg / 8192) (pageKind (pg / 8192) (pg % 8192)).2 off v = true)
    (hbusy : pageBusy s pg = false) : writeWord s w pg off v = wr s pg off v := by
  rw [writeWord_plain hp hs hr ht (by simp [hrw]) (by simp [hrw]) ho hv hon hown]
  simp [plainWrite, hval, hbusy, hrw]

/-- By the management path such a write changes the register, and no other. -/
theorem writeBy_mgmt_rw (hrel : s.boot.released = true) (hpage : pg % 8192 ≠ 0) (hoff : off < 4096) (hal : off % 4 = 0)
    (hp : servePage s pg = pg) (hs : isSafe s (pg / 8192) = false) (hr : regOf pg off = some r)
    (ht : isTable (pageKind (pg / 8192) (pg % 8192)).1 = false) (hrw : r.acc = .rw) (ho : 0x40 ≤ off)
    (hv : v.toNat &&& (2 ^ 32 - 1 - r.mask) = 0) (hon : pageOn s pg = true)
    (hown : ownWrite s w (pageKind (pg / 8192) (pg % 8192)).1 (pg / 8192) (pageKind (pg / 8192) (pg % 8192)).2 off v = none)
    (hval : valueOk s (pageKind (pg / 8192) (pg % 8192)).1 (pg / 8192) (pageKind (pg / 8192) (pg % 8192)).2 off v = true)
    (hbusy : pageBusy s pg = false) :
    ∃ x, writeBy s w .mgmt pg off (toLE 4 v.toNat) = { s with regs := x } ∧ rd { s with regs := x } pg off = v ∧
      ∀ p q, rkey p q ≠ rkey pg off → rd { s with regs := x } p q = rd s p q := by
  rw [writeBy_mgmt_word s w pg off v hrel hal (isPost_of_no_ownWrite s w pg off v hown)]
  refine writeJudged_of_wr s w pg off v hpage hoff (writeWord_rw hp hs hr ht hrw ho hv hon ?_ ?_ hbusy)
  · rw [← Option.isNone_iff_eq_none, isNone_ownWrite _ _ _ _ _ _ _ s, hown, Option.isNone_none]
  · rw [valueOk_wr_first _ _ _ _ _ _ _ _ _ (devPage_mod s _) (by decide) hoff, hval]

end

/-- Settles O41: a good write of an RW register changes it alone; a read answers what the register shows, and `readWord` clears or moves on. -/
theorem registerAccess : Obligations.RegisterAccess := by
  intro s die page off r pg o kj hrel hpage ho hr ht
  have hp : servePage s pg = pg := servePage_gpage s die page hpage
  have hd : pg / 8192 = die.val := gpage_div die page
  have hm : pg % 8192 = page.toNat := gpage_mod die page
  have hkj : pageKind (pg / 8192) (pg % 8192) = kj := by rw [hd, hm]
  have hread (t : State) (ht : (readWord s pg o).1 = t) :
      exec (.readAndClear .mgmt die page off 4) s = .next (emit t (.readData (toLE 4 (regValue s pg o).toNat))) := by
    change Host.Outcome.next (readBy s .mgmt pg o 4) = _
    rw [readBy_mgmt_word s pg o hrel ho, readWord_value s pg o hp, ht]
  refine ⟨fun w v hrw hbody hsafe hv hon hown hval hbusy => ?_, fun hk hms => hread _ ?_, fun hrc hms hon => hread _ ?_, ?_⟩
  · rw [← hd, ← hkj] at hown hval
    obtain ⟨x, e, hsame, hother⟩ := writeBy_mgmt_rw (w := w) hrel (by omega) off.isLt ho hp (hd ▸ hsafe) hr (hkj ▸ ht) hrw hbody hv hon
      hown hval hbusy
    refine ⟨_, ?_, hsame, hother, rfl⟩
    change Host.Outcome.next (writeBy s w .mgmt pg o (toLE 4 v.toNat)) = _
    rw [e]
  · simp only [readWord, hp, hr, hkj]
    rw [if_pos ⟨hk, hms⟩]
  · simp only [readWord, hp, hr, hkj]
    rw [if_neg hms, if_pos ⟨hrc, hon⟩]
  · change Host.Outcome.next (emit (readWord s (pgHistory die) 0x07C).1 (.readData (toLE 4 (readWord s (pgHistory die) 0x07C).2.toNat))) = _
    have hh : servePage s (pgHistory die) = pgHistory die := servePage_gpage s die 6 (by decide)
    rw [readWord_value s _ _ hh]

end Sys2Proof.Machine
end

section
/-!
Steps, reset, and the scalar, address and control instructions of a stope (R113, R115, R117, R133, Table 06-3).
-/

namespace Sys2Proof.Machine

/-- Settles O1, by the two cases of the queue. -/
theorem stepRunsFront : Obligations.StepRunsFront := fun s =>
  ⟨fun c rest h => by rw [step, h], fun h => by rw [step, h]⟩

/-- Settles O2: each command's function answers `.next`, whatever the state. -/
theorem everyCommandCompletes : Obligations.EveryCommandCompletes := by
  intro c s
  cases c <;> exact ⟨_, rfl⟩

/-- Settles O57: no cell is listed at reset. -/
theorem memoryResetCanonical : Obligations.MemoryResetCanonical := Memory.reset_wf

-- an instruction at its word ---------------------------------------------------------------------------------------------------

section
variable {s : State} {st : Fin 512} {op : Nat} {d a b : Byte} {imm : W32}

/-- At a legal word an instruction acts. -/
theorem issue_of_atWord {act : State → State} (h : AtWord s st op d a b imm) (hl : legalFields op d a b imm = true) :
    issue s st op d a b imm act = act s := by
  rw [issue, if_pos (by simpa [atWord] using h), if_pos hl]

theorem regReg_of_atWord (f : W64 → W64 → W64) (h : AtWord s st op d a b imm) (ho : 0 < op ∧ op ≤ 0x0A)
    (hd : d.toNat < 32) (ha : a.toNat < 32) (hb : b.toNat < 32) :
    regReg s st op d a b imm f = putS s st d (f ((stope s st).sreg a.toNat) ((stope s st).sreg b.toNat)) :=
  issue_of_atWord h (by simp [legalFields, inFile, Nat.ne_of_gt ho.1, ho.2, hd, ha, hb])

theorem regImm_of_atWord (f : W64 → W32 → W64) (h : AtWord s st op d a b imm) (ho : 0x0A < op ∧ op ≤ 0x10)
    (hd : d.toNat < 32) (ha : a.toNat < 32) :
    regImm s st op d a b imm f = putS s st d (f ((stope s st).sreg a.toNat) imm) :=
  issue_of_atWord h (by
    have h0 : op ≠ 0 := by omega
    simp [legalFields, inFile, h0, Nat.not_le.mpr ho.1, ho.2, hd, ha])

theorem branch_of_atWord (c : W64 → W64 → Bool) (h : AtWord s st op d a b imm) (ho : 0x19 ≤ op ∧ op ≤ 0x1D)
    (ha : a.toNat < 32) (hb : b.toNat < 32) :
    branch s st op d a b imm c = if c ((stope s st).sreg a.toNat) ((stope s st).sreg b.toNat) then jumpTo s st imm.toNat
      else setStope s st (stope s st).advance :=
  issue_of_atWord h (by
    have : op = 0x19 ∨ op = 0x1A ∨ op = 0x1B ∨ op = 0x1C ∨ op = 0x1D := by omega
    rcases this with rfl | rfl | rfl | rfl | rfl <;> simp [legalFields, inFile, ha, hb])

end

-- results ---------------------------------------------------------------------------------------------------------------------

/-- MOVHI puts IMM above the low word. -/
theorem movhi_eq (x : W64) (i : W32) :
    (x &&& 0xFFFFFFFF#64) ||| (BitVec.zeroExtend 64 i <<< 32) = BitVec.ofNat 64 (x.toNat % 2 ^ 32 + 2 ^ 32 * i.toNat) := by
  have hx : x &&& 0xFFFFFFFF#64 = BitVec.ofNat 64 (x.toNat % 2 ^ 32) := by
    apply BitVec.eq_of_toNat_eq
    rw [BitVec.toNat_and, show (0xFFFFFFFF#64).toNat = 2 ^ 32 - 1 from rfl, Nat.and_two_pow_sub_one_eq_mod, BitVec.toNat_ofNat]
    omega
  have hi := i.isLt
  rw [hx]
  apply BitVec.eq_of_toNat_eq
  have hm : x.toNat % 2 ^ 32 < 2 ^ 32 := Nat.mod_lt _ (by decide)
  have := Nat.two_pow_add_eq_or_of_lt hm i.toNat
  simp only [BitVec.toNat_or, BitVec.toNat_ofNat, BitVec.toNat_shiftLeft, BitVec.truncate_eq_setWidth, BitVec.toNat_setWidth, Nat.shiftLeft_eq]
  rw [Nat.mod_eq_of_lt (show x.toNat % 2 ^ 32 < 2 ^ 64 by omega), Nat.mod_eq_of_lt (show i.toNat < 2 ^ 64 by omega),
    Nat.mod_eq_of_lt (show i.toNat * 2 ^ 32 < 2 ^ 64 by omega), Nat.mod_eq_of_lt (show x.toNat % 2 ^ 32 + 2 ^ 32 * i.toNat < 2 ^ 64 by omega),
    Nat.or_comm, Nat.mul_comm, ← this, Nat.add_comm]

/-- Settles O3: each instruction has one of the two forms, with the operation that the table gives. -/
theorem scalarArithmetic : Obligations.ScalarArithmetic := by
  refine ⟨fun s st d a b imm hd ha hb => ?_, fun s st d a b imm hd ha => ?_⟩
  · have reg (op : Nat) (f : W64 → W64 → W64) (ho : 0 < op ∧ op ≤ 0x0A) (h : AtWord s st op d a b imm) :=
      regReg_of_atWord f h ho hd ha hb
    refine ⟨fun h => ?_, fun h => ?_, fun h => ?_, fun h => ?_, fun h => ?_, fun h => ?_, fun h => ?_, fun h => ?_, fun h => ?_, fun h => ?_⟩
    iterate 8 exact congrArg _ (reg _ _ (by decide) h)
    · refine congrArg _ ((reg _ _ (by decide) h).trans ?_)
      simp only [BitVec.sle_eq_decide, decide_eq_true_eq]
      rfl
    · refine congrArg _ ((reg _ _ (by decide) h).trans ?_)
      simp only [BitVec.sle_eq_decide, decide_eq_true_eq]
      rfl
  · have im (op : Nat) (f : W64 → W32 → W64) (ho : 0x0A < op ∧ op ≤ 0x10) (h : AtWord s st op d a b imm) :=
      regImm_of_atWord f h ho hd ha
    refine ⟨fun h => ?_, fun h => ?_, fun h => ?_, fun h => ?_, fun h => ?_, fun h => ?_⟩
    iterate 5 exact congrArg _ (im _ _ (by decide) h)
    · refine congrArg _ ((im _ _ (by decide) h).trans ?_)
      simp only [movhi_eq]
      rfl

/-- Settles O4: the form of each, and `putA`'s two cases. -/
theorem movesAndTime : Obligations.MovesAndTime := by
  intro s st d a b imm
  have addr (v : W64) : Host.Outcome.next (putA s st d v) =
      (if d.toNat < 2 then .next (progFault s st cREADONLY) else .next (setStope s st ((stope s st).setA d.toNat v).advance) :
        Host.Outcome State Fault Refusal) := by
    unfold putA
    split <;> rfl
  refine ⟨fun h => ?_, fun h hd => ?_, fun h hd ha => ?_, fun h hd ha => ?_, fun h hd ha hb => ?_⟩
  · exact congrArg _ (issue_of_atWord h rfl)
  · exact congrArg _ (issue_of_atWord h (by simp [legalFields, inFile, hd]))
  · exact (congrArg _ (issue_of_atWord h (by simp [legalFields, inFile, hd, ha]))).trans (addr _)
  · exact congrArg _ (issue_of_atWord h (by simp [legalFields, inFile, hd, ha]))
  · exact (congrArg _ (issue_of_atWord h (by simp [legalFields, inFile, hd, ha, hb]))).trans (addr _)

/-- A loop entered with a count of 0 is passed over. -/
theorem setStope_enterLoop (s : State) (n : Nat) (x : Stope) (c count last : Nat) : setStope s n (enterLoop x c count last) =
    if count = 0 then setStope s n (x.pass last) else setStope s n { x with
      loops := ⟨c, x.pc + 1, last⟩ :: x.loops, l := Sparse.set 0 x.l c (BitVec.ofNat 32 count), pc := x.pc + 1 } := by
  unfold enterLoop
  split <;> rfl

/-- Settles O5: the form of a branch with `jumpTo`'s two cases, and the cases of LOOP in the order of its tests. -/
theorem controlFlow : Obligations.ControlFlow := by
  refine ⟨fun s st d a b imm => ?_, fun s st => ⟨fun d a b imm h hd ha => ?_, fun d a b imm h => ?_, fun w h hw => ?_⟩⟩
  · have jump : Host.Outcome.next (jumpTo s st imm.toNat) =
        (if imm.toNat < (stope s st).codeLen then .next (setStope s st ((stope s st).goto imm.toNat)) else .next (progFault s st cTARGET) :
          Host.Outcome State Fault Refusal) := by
      unfold jumpTo
      split
      · rw [if_neg (by omega)]
      · rw [if_pos (by omega)]
    refine ⟨fun ha hb => ?_, fun h => (congrArg _ (issue_of_atWord h rfl)).trans jump⟩
    have br (op : Nat) (c : W64 → W64 → Bool) (ho : 0x19 ≤ op ∧ op ≤ 0x1D) (h : AtWord s st op d a b imm) :
        (.next (branch s st op d a b imm c) : Host.Outcome State Fault Refusal) = _ :=
      (congrArg _ (branch_of_atWord c h ho ha hb)).trans (apply_ite _ _ _ _)
    refine ⟨fun h => ?_, fun h => ?_, fun h => ?_, fun h => ?_, fun h => ?_⟩
    · refine (br _ _ (by decide) h).trans ?_
      simp only [jump, beq_iff_eq]
    · refine (br _ _ (by decide) h).trans ?_
      simp only [jump, bne_iff_ne, ite_not]
    · refine (br _ _ (by decide) h).trans ?_
      simp only [jump, BitVec.slt_eq_decide, decide_eq_true_eq]
    · refine (br _ _ (by decide) h).trans ?_
      simp only [jump, BitVec.sle_eq_decide, decide_eq_true_eq, ← Int.not_lt, ite_not]
    · refine (br _ _ (by decide) h).trans ?_
      simp only [jump, BitVec.ult_eq_decide, decide_eq_true_eq]
  · refine (congrArg _ (issue_of_atWord h (by simp [legalFields, inFile, hd, ha]))).trans ?_
    simp only [apply_ite Host.Outcome.next, setStope_enterLoop, ge_iff_le, sA]
  · exact congrArg _ (issue_of_atWord h rfl)
  · exact congrArg _ (if_pos ⟨h, hw⟩)

/-- Settles O56, by what the initial state lists. -/
theorem resetState_holds : Obligations.ResetState := by
  have pins : ∀ n < 16, pinFunc State.reset n = 0 := by decide
  exact ⟨fun _ _ => rfl, fun _ => rfl, fun _ => rfl, fun _ => ⟨rfl, rfl, rfl⟩, fun _ => ⟨rfl, rfl⟩, fun _ => ⟨rfl, rfl⟩, pins, rfl, rfl, rfl, rfl, rfl⟩

end Sys2Proof.Machine
end

section
/-!
What a reset keeps and a release starts (R139, R158, R223, R306, R356, R369), and the host's SPDM requests (R363).
-/

namespace Sys2Proof.Machine

/-- Settles O55: past the four tests the record is emitted. -/
theorem spdmAnswers : Obligations.SpdmAnswers := by
  intro s m n hr hl hs hv
  have host (ver code id : Nat) : hostSpdm ver code id m s =
      let r := respond s s.free id s.security.spdm (toLE 1 ver ++ toLE 1 code ++ m)
      emit { s with
        free := s.free + 2
        security := { s.security with spdm := r.1, kek := kekAfter s.security.kek s.security.spdm r.1 } }
        (.spdm (hostRecord s.security.spdm code id r.2)) := by
    rw [hostSpdm, if_neg (by simp [hr]), if_neg (by simp [hl]), if_neg (by simp [hs]), if_neg (by simp [hv])]
  exact ⟨congrArg _ (host ..), congrArg _ (host ..), congrArg _ (host ..), congrArg _ (host ..), congrArg _ (host ..), congrArg _ (host ..),
    congrArg _ (host ..), congrArg _ (host ..), congrArg _ (host ..), congrArg _ (host ..), congrArg _ (host ..)⟩

-- what a change of device state leaves -------------------------------------------------------------------------------------------

/-- A change of device state raises interrupts on the management rings alone. -/
theorem stateChanged_eq (s : State) (d n : Nat) : stateChanged s d n = { s with out := (stateChanged s d n).out } := by
  unfold stateChanged
  dsimp only
  repeat' split
  all_goals rfl

theorem setStep_eq (s : State) (n : Nat) : setStep s n = { s with boot := { s.boot with step := (setStep s n).boot.step } } := by
  unfold setStep
  split <;> rfl

theorem setDevState_eq (s : State) (n : Nat) :
    setDevState s n = { s with service := (setDevState s n).service, out := (setDevState s n).out } := by
  rw [setDevState, stateChanged_eq]
  rfl

/-- The progress of bring-up is in its step, the device state and what the rings show. -/
theorem bootProgress_eq (s : State) : ∃ b v o, bootProgress s = { s with boot := { s.boot with step := b }, service := v, out := o } := by
  have hs (c : Prop) [Decidable c] (t : State) (n : Nat) :
      ∃ b, (if c then setStep t n else t) = { t with boot := { t.boot with step := b } } := by
    split
    · exact ⟨_, setStep_eq t n⟩
    · exact ⟨_, rfl⟩
  have hd (c : Prop) [Decidable c] (t : State) (n : Nat) : ∃ v o, (if c then setDevState t n else t) = { t with service := v, out := o } := by
    split
    · exact ⟨_, _, setDevState_eq t n⟩
    · exact ⟨_, _, rfl⟩
  unfold bootProgress
  dsimp only
  obtain ⟨b, e⟩ := hs (s.boot.step = 2 ∧ stacksOpen s = true) s 3
  rw [e]
  obtain ⟨v, o, e'⟩ := hd (s.boot.assigned = true ∧ 2 ≤ b ∧ (service s 0).state = 0) { s with boot := { s.boot with step := b } } 1
  obtain ⟨b', e''⟩ := hs (s.boot.assigned = true ∧ b = 3) { s with boot := { s.boot with step := b }, service := v, out := o } 4
  refine ⟨b', v, o, Eq.trans ?_ e''⟩
  change (if (if _ then _ else _ : State).boot.assigned = true ∧ _ then _ else _) = _
  erw [e']

-- zeroing -----------------------------------------------------------------------------------------------------------------------

/-- A byte of a place whose cells have been taken away reads 0. -/
theorem sparse_get_filter_of_not {α : Type} (d : α) (m : Sparse α) (p : Nat × α → Bool) (k : Nat) (h : ∀ v, p (k, v) = false) :
    Sparse.get d (m.filter p) k = d := by
  induction m with
  | nil => rfl
  | cons e rest ih =>
    obtain ⟨a, w⟩ := e
    by_cases ha : a = k
    · subst ha; simpa [List.filter_cons, h] using ih
    · rw [List.filter_cons]
      split
      · rw [Sparse.get, if_neg ha, ih]
      · exact ih

theorem aSpace_low50 (a : Nat) : aSpace (low50 a) = aSpace a := by simp only [aSpace, low50]; omega
theorem aDie_low50 (a : Nat) : aDie (low50 a) = aDie a := by simp only [aDie, low50]; omega
theorem aOff_low50 (a : Nat) : aOff (low50 a) = aOff a := by simp only [aOff, low50]; omega

/-- A byte of a zeroed stack reads 0. -/
theorem readByte_zeroStack (s : State) (k a : Nat) (hs : aSpace a = 0) (hk : stackOf (aDie a) (aOff a) = k) : readByte (zeroStack s k) a = 0 :=
  sparse_get_filter_of_not 0 s.mem _ _ fun _ => by simp [aSpace_low50, aDie_low50, aOff_low50, hs, hk]

-- reset -------------------------------------------------------------------------------------------------------------------------

/-- The history of a die under which a seal is under way is sealed at a reset. -/
def sealKept (d : Nat) (t : State) : State := if (history t d).sealing then seal_ t d 1 else t

theorem history_sealKept_of_not (d k : Nat) (t : State) (h : (history t k).sealing = false) : history (sealKept d t) k = history t k := by
  unfold sealKept
  split
  next hd =>
    have hk : k ≠ d := fun e => by rw [e, hd] at h; cases h
    exact history_setHistory_other t d k _ hk
  next => rfl

/-- What a reset leaves: everything at its reset value, but for what is listed. -/
theorem resetState_eq (s : State) : ∃ ts o, resetState s = { State.reset with
    mem := s.mem, ue := s.ue, history := (sealKept 1 (sealKept 0 s)).history
    security := { Security.new with floors := s.security.floors, revoked := s.security.revoked }
    power := { Power.reset with
      pwrGood := s.power.pwrGood, pwrGoodAt := s.power.pwrGoodAt, busAt := s.power.busAt, trip := s.power.trip
      tripOff := s.power.tripOff, inputMv := s.power.inputMv }
    boot := { Boot.reset with up := s.boot.up }
    pins := { Pins.reset with levels := s.pins.levels, i3c0 := s.pins.i3c0 }
    nextOp := s.nextOp, free := s.free, out := o, pending := s.pending, times := ts } := by
  unfold resetState
  dsimp only
  split
  · rw [stateChanged_eq]; exact ⟨_, _, rfl⟩
  · exact ⟨_, _, rfl⟩

/-- Settles O46, by what `resetState`, the two zeroings and `release` write. -/
theorem resetKeepsMramAndFuses : Obligations.ResetKeepsMramAndFuses := by
  intro s
  obtain ⟨ts, o, e⟩ := resetState_eq s
  refine ⟨?_, ?_, fun hr hz => ⟨_, rfl, ?_⟩, fun k hd ho => ⟨_, rfl, ?_⟩, rfl, rfl, rfl, ?_, ?_⟩
  · rw [e]
    refine ⟨rfl, rfl, rfl, fun d hd => ?_⟩
    have h0 : history (sealKept 0 s) d = history s d := history_sealKept_of_not 0 d s hd
    exact (history_sealKept_of_not 1 d _ (by rw [h0, hd])).trans h0
  · rw [e]
    exact ⟨rfl, rfl, rfl, rfl, rfl, rfl, rfl, rfl, rfl, fun _ => rfl⟩
  · rw [if_pos ⟨hr, hz⟩]
    exact ⟨rfl, fun a ha => sparse_get_filter_of_not 0 s.mem _ _ fun _ => by simp [aSpace_low50, ha]⟩
  · rw [if_pos ⟨hd, ho⟩]
    obtain ⟨b, v, o, e⟩ := bootProgress_eq (setStack (zeroStack s k) k { stack s k with open_ := true })
    rw [e]
    have hk := stack_setStack_same (zeroStack s k) k { stack s k with open_ := true } (by simp [Stack.reset])
    exact ⟨congrArg Stack.open_ hk, fun a ha hk => readByte_zeroStack s k a ha hk⟩
  all_goals
    have h1 (x : History) (y : RemoteLayer) : history (setLayer (setHistory { s with times := [] } 0 x) 0 y) 1 = history s 1 :=
      history_setHistory_other s 0 1 x (by decide)
    unfold release
    dsimp only
    rw [h1]
    rfl

end Sys2Proof.Machine
end

section
/-!
Vector instructions, waits and program control (R113, R121, R127 to R129, R132, R133, Table 06-3).
-/

namespace Sys2Proof.Machine

-- vector instructions ---------------------------------------------------------------------------------------------------------

/-- At a legal word a vector instruction waits for the vector unit, or writes its result. -/
theorem vectorOp_of_atWord {s : State} {st : Fin 512} {op : Nat} {d a b : Byte} {imm : W32} (f : Stope → BitVec 4096)
    (h : AtWord s st op d a b imm) (hl : legalFields op d a b imm = true) :
    (.next (vectorOp s st op d a b imm f) : Host.Outcome State Fault Refusal) =
      if vectorBusy (stope s st) then .next s else .next (setStope s st ((stope s st).setV d.toNat (f (stope s st))).advance) :=
  (congrArg _ (issue_of_atWord h hl)).trans (apply_ite _ _ _ _)

theorem fld_low (imm : W32) (n : Nat) : fld imm n 0 = imm.toNat % 2 ^ (n + 1) := by simp [fld, bitsOf_eq]

theorem immC_eq (imm : W32) : immC imm = imm.toNat % 256 := fld_low imm 7

/-- Settles O6: each instruction has the common form, with the operation that the table gives. -/
theorem vectorUnit : Obligations.VectorUnit := by
  intro s st d a b imm hd ha hb
  have go (op : Nat) (f : Stope → BitVec 4096) (hl : legalFields op d a b imm = true) (h : AtWord s st op d a b imm) :=
    vectorOp_of_atWord f h hl
  refine ⟨fun h => ?_, fun h => ?_, fun h => ?_, fun h hc => ?_, fun h => ?_, fun h => ?_, fun h => ?_, fun h => ?_, fun h => ?_,
    fun h hm => ?_, fun h => ?_, fun h => ?_, fun h => ?_⟩
  iterate 3 exact go _ _ (by simp [legalFields, inFile, hd, ha, hb]) h
  · refine (go _ _ (by simp [legalFields, inFile, hd, ha, hb, immC_eq, hc]) h).trans ?_
    rw [immC_eq]
  iterate 5 exact go _ _ (by simp [legalFields, inFile, hd, ha, hb]) h
  · refine (go _ _ (by simp [legalFields, inFile, hd, ha, hb, fld_low, hm]) h).trans ?_
    rw [fld_low] <;> rfl
  iterate 3 exact go _ _ (by simp [legalFields, inFile, hd, ha]) h

-- waits -----------------------------------------------------------------------------------------------------------------------

/-- What a poll of a flag word decides, where port A serves it and its word is good. -/
theorem pollFlag_of_pass {s : State} {n a bk : Nat} (d : Nat) (v : W64) (m : Nat) (hg : pollGate s n a 8 = .pass bk) (hb : anyBad s a 8 = false) :
    pollFlag s n d a v m = if flagTest m (leNat (readMem s a 8)) v.toNat then some (endWaitf (served s n bk) n d sOK 0) else none := by
  simp [pollFlag, hg, load, hb]

/-- The ASSAY page that a bank's gate reads does not change with the rest of a stope. -/
theorem assayOf_setStope {s : State} {n : Nat} {y : Stope} (hy : y ≠ Stope.reset) (ha : y.assay = (stope s n).assay) (b : Nat) :
    assayOf (setStope s n y) b = assayOf s b := by
  have h : (stope (setStope s n y) b).assay = (stope s b).assay := by
    by_cases hb : b = n
    · rw [hb, stope_setStope_same s n y hy, ha]
    · rw [stope_setStope_other s n b y hb]
  simp only [assayOf, h, rd_setStope]

/-- A poll does not depend on where the program stands. -/
theorem pollGate_setStope {s : State} {n : Nat} {y : Stope} (hy : y ≠ Stope.reset) (ha : y.assay = (stope s n).assay) (k a len : Nat) :
    pollGate (setStope s n y) k a len = pollGate s k a len := by
  simp only [pollGate, bankGate, inCanaryArea, assayOf_setStope hy ha, bank_setStope, Bool.false_and]
  rfl

/-- A stope at a word runs. -/
theorem running_of_atWord {s : State} {st : Fin 512} {op : Nat} {d a b : Byte} {imm : W32} (h : AtWord s st op d a b imm) :
    (stope s st).prog = .running := by
  refine Classical.byContradiction fun hp => ?_
  simp [AtWord, issueWord, hp] at h

/-- Settles O12: each wait by its definition, WAITF by what its first poll decides. -/
theorem waits : Obligations.Waits := by
  refine ⟨fun s st d a b imm => ⟨fun h => ?_, fun h hd ha hi => ?_, fun h ha hi => ?_, fun h hi => ?_, fun k hw hk => ?_,
      fun r f v m due hw hdue => ?_⟩, fun s st => ⟨fun d a b imm bk h hd ha hb hi hc hs => ?_, fun r ad v m due bk hw hg hb => ?_⟩⟩
  · exact congrArg _ (issue_of_atWord h rfl)
  · exact (congrArg _ (issue_of_atWord h (by simp [legalFields, inFile, hd, ha, hi]))).trans (apply_ite _ _ _ _)
  · exact (congrArg _ (issue_of_atWord h (by simp [legalFields, inFile, ha, hi]))).trans (apply_ite _ _ _ _)
  · exact congrArg _ (issue_of_atWord h (by simp [legalFields, hi]))
  · change execWaittExpiry st s = _
    simp [execWaittExpiry, hw, dieOf, hk]
  · change execWaitfTimeout st s = _
    simp [execWaitfTimeout, hw, dieOf, hdue, endWaitf]
  · intro ad v c s1 hal hg hbad
    refine (congrArg _ (issue_of_atWord h (by simp [legalFields, inFile, hd, ha, hb, hi, hc, hs]))).trans ?_
    have hy : (stope s st).advance ≠ Stope.reset := Stope.ne_reset (by simp [Stope.advance, Stope.pass, running_of_atWord h])
    have hg' : pollGate s st ad 8 = .pass bk := (pollGate_setStope hy rfl st ad 8).symm.trans hg
    have hp := pollFlag_of_pass d.toNat v (immSub imm) hg (show anyBad s1 ad 8 = false from hbad)
    dsimp only
    rw [if_neg (Classical.not_not.mpr hal), if_neg (by rw [hg']; nofun)]
    change Host.Outcome.next (match pollFlag s1 st d.toNat ad v (immSub imm) with | some s2 => s2 | none => _) = _
    rw [hp]
    rw [show readMem s1 ad 8 = readMem s ad 8 from rfl]
    by_cases hf : flagTest (immSub imm) (leNat (readMem s ad 8)) v.toNat = true
    · simp only [if_pos hf]
    · simp only [if_neg hf]
      exact apply_ite _ _ _ _
  · change execWaitfPoll st s = _
    simp only [execWaitfPoll, hw, pollFlag_of_pass _ _ _ hg hb]
    split <;> rfl

-- program control -------------------------------------------------------------------------------------------------------------

/-- Settles O15, by the branches of each command. -/
theorem programControl : Obligations.ProgramControl := by
  intro s w st n x may
  refine ⟨rfl, fun hm hb => ?_, fun hl => ?_, fun hm hp => ?_, fun hs => ⟨fun hp => ?_, fun hp => ?_⟩, fun hp ho => ?_⟩
  · obtain ⟨hs, hon, hr⟩ := hm
    refine congrArg Host.Outcome.next (show progLoad s w st = _ from ?_)
    unfold progLoad
    dsimp only
    rw [if_neg (by rw [hs]; nofun), if_neg (by rw [hon, hr, show (stope s st).busy = false from hb]; decide)]
  · intro t y rejects
    have e : exec (.progLoadDone st) s = .next (progLoaded t n) := congrArg _ (if_pos hl)
    rw [e]
    refine ⟨fun hb hn => congrArg _ ?_, fun hb => congrArg _ (if_pos hb), fun hb hn => congrArg _ ?_⟩
    · unfold progLoaded
      dsimp only
      rw [if_neg (by rw [hb]; nofun), if_pos hn]
    · unfold progLoaded
      dsimp only
      rw [if_neg (by rw [hb]; nofun), if_neg (Nat.not_lt.mpr hn)]
      rfl
  · obtain ⟨hs, hon, hr⟩ := hm
    refine congrArg Host.Outcome.next (show progLaunch s w st = _ from ?_)
    unfold progLaunch
    dsimp only
    rw [if_neg (by rw [hs]; nofun), if_neg (by rw [hon, hr, show (stope s st).prog = .ready from hp]; decide)]
  · change Host.Outcome.next (progStop s st) = _
    rw [progStop, if_neg (by rw [hs]; nofun), stopProgram, show (stope s st).prog = .running from hp]
    rfl
  · change Host.Outcome.next (progStop s st) = _
    rw [progStop, if_neg (by rw [hs]; nofun), stopProgram, show (stope s st).prog = .loading from hp]
    rfl
  · exact congrArg _ (if_pos ⟨hp, ho⟩)

end Sys2Proof.Machine
end

section
/-!
Counters' clear registers (Tables 04-7 and 10-5), bank modes and leases (R17, R145, R149 to R151, R301).
-/

namespace Sys2Proof.Machine

-- clear registers -------------------------------------------------------------------------------------------------------------

/-- Writes of 0 to words of a row of registers leave 0 there, and every other word. -/
theorem rd_foldl_clear (pg base : Nat) (l : List Nat) (s : State) (off : Nat) :
    rd (l.foldl (fun t i => wr t pg (base + 4 * i) 0) s) pg off = if ∃ i ∈ l, rkey pg off = rkey pg (base + 4 * i) then 0 else rd s pg off := by
  induction l generalizing s with
  | nil => simp
  | cons i rest ih =>
    rw [List.foldl_cons, ih]
    by_cases hr : ∃ j ∈ rest, rkey pg off = rkey pg (base + 4 * j)
    · rw [if_pos hr, if_pos (by obtain ⟨j, hj, e⟩ := hr; exact ⟨j, List.mem_cons_of_mem _ hj, e⟩)]
    · rw [if_neg hr]
      by_cases hi : rkey pg off = rkey pg (base + 4 * i)
      · rw [if_pos ⟨i, List.mem_cons_self, hi⟩]
        simp [rd, wr, hi, Sparse.get_set_same]
      · rw [rd_wr_other _ _ _ _ _ _ hi, if_neg]
        rintro ⟨j, hj, e⟩
        rcases List.mem_cons.mp hj with rfl | hj
        · exact hi e
        · exact hr ⟨j, hj, e⟩

theorem foldl_clear_eq (pg base : Nat) (l : List Nat) (s : State) :
    ∃ r, l.foldl (fun t i => wr t pg (base + 4 * i) 0) s = { s with regs := r } := by
  induction l generalizing s with
  | nil => exact ⟨s.regs, rfl⟩
  | cons i rest ih =>
    obtain ⟨r, e⟩ := ih (wr s pg (base + 4 * i) 0)
    exact ⟨r, e⟩

/-- A row of registers names each word once. -/
theorem rkey_row (pg base i k : Nat) : rkey pg (base + 4 * k) = rkey pg (base + 4 * i) ↔ k = i := by
  simp only [rkey]
  omega

theorem mem_bitList (n v k : Nat) : k ∈ bitList n v ↔ k < n ∧ v / 2 ^ k % 2 = 1 := by
  simp [bitList, bitsOf_eq]

/-- A clear of an outlier block's counters, where it is taken. -/
theorem faceClear_of_taken (s : State) (w : Agent) (n : Nat) (v : W32) (hs : isSafe s (n / 256) = false)
    (hd : 2 ≤ domain s (domHalf (halfOf n))) (hv : v.toNat < 2 ^ 9) :
    ∃ t, faceClear s w n v = t ∧
      (∀ k < 8, rd t (pgOutlier n) (AMAX_SLOT0 + 4 * k) = if v.toNat / 2 ^ k % 2 = 1 then 0 else rd s (pgOutlier n) (AMAX_SLOT0 + 4 * k)) ∧
      (∀ k < 6, rd t (pgOutlier n) (F_SAT_TOTAL + 4 * k) = if v.toNat / 2 ^ 8 = 1 then 0 else rd s (pgOutlier n) (F_SAT_TOTAL + 4 * k)) ∧
      t = { s with regs := t.regs } := by
  have hb : fld v 8 8 = v.toNat / 2 ^ 8 := by
    rw [fld, bitsOf_eq]
    omega
  have hslot (k i : Nat) (h : k < 8) (h' : i < 6) : rkey (pgOutlier n) (AMAX_SLOT0 + 4 * k) ≠ rkey (pgOutlier n) (F_SAT_TOTAL + 4 * i) := by
    simp only [rkey, AMAX_SLOT0, F_SAT_TOTAL]
    omega
  have hslots (s1 : State) (k : Nat) (hk : k < 8) : rd ((List.range 6).foldl (fun t i => wr t (pgOutlier n) (F_SAT_TOTAL + 4 * i) 0) s1)
      (pgOutlier n) (AMAX_SLOT0 + 4 * k) = rd s1 (pgOutlier n) (AMAX_SLOT0 + 4 * k) := by
    rw [rd_foldl_clear, if_neg]
    rintro ⟨i, hi, e⟩
    exact hslot k i hk (List.mem_range.mp hi) e
  have hamax (k : Nat) (hk : k < 8) : rd ((bitList 8 v.toNat).foldl (fun t i => wr t (pgOutlier n) (AMAX_SLOT0 + 4 * i) 0) s)
      (pgOutlier n) (AMAX_SLOT0 + 4 * k) = if v.toNat / 2 ^ k % 2 = 1 then 0 else rd s (pgOutlier n) (AMAX_SLOT0 + 4 * k) := by
    rw [rd_foldl_clear]
    simp [mem_bitList, rkey_row, hk]
  have hsat (k : Nat) (hk : k < 6) : rd ((bitList 8 v.toNat).foldl (fun t i => wr t (pgOutlier n) (AMAX_SLOT0 + 4 * i) 0) s)
      (pgOutlier n) (F_SAT_TOTAL + 4 * k) = rd s (pgOutlier n) (F_SAT_TOTAL + 4 * k) := by
    rw [rd_foldl_clear, if_neg]
    rintro ⟨i, hi, e⟩
    exact hslot i k ((mem_bitList ..).mp hi).1 hk e.symm
  obtain ⟨r1, e1⟩ := foldl_clear_eq (pgOutlier n) AMAX_SLOT0 (bitList 8 v.toNat) s
  refine ⟨_, rfl, ?_⟩
  unfold faceClear
  dsimp only
  rw [if_neg (by rw [hs]; nofun), if_neg (by omega), hb]
  split
  next h8 =>
    obtain ⟨r2, e2⟩ := foldl_clear_eq (pgOutlier n) F_SAT_TOTAL (List.range 6) { s with regs := r1 }
    refine ⟨fun k hk => (hslots _ k hk).trans (hamax k hk), fun k hk => ?_, ?_⟩
    · rw [rd_foldl_clear (pgOutlier n) F_SAT_TOTAL, if_pos ⟨k, List.mem_range.mpr hk, rfl⟩]
    · rw [e1, e2]
  next h8 => exact ⟨hamax, hsat, by rw [e1]⟩

/-- Settles O19: what each of the two clears writes. -/
theorem counterClears : Obligations.CounterClears := by
  refine fun s w v => ⟨fun st hs hd hv i hi => ?_, fun e hs => ⟨_, rfl, ?_⟩⟩
  · obtain ⟨t, ht, h⟩ := faceClear_of_taken s w st v hs hd hv
    refine ⟨t, ?_, h⟩
    simp only [List.mem_cons, List.not_mem_nil, or_false] at hi
    rcases hi with rfl | rfl <;> exact congrArg _ ht
  · have h1 : rkey (pgEngine e) AMAX_TOTAL ≠ rkey (pgEngine e) H_SAT_TOTAL := by simp only [rkey, AMAX_TOTAL, H_SAT_TOTAL]; omega
    have h2 : rkey (pgEngine e) AMAX_TOTAL ≠ rkey (pgEngine e) H_NAN_TOTAL := by simp only [rkey, AMAX_TOTAL, H_NAN_TOTAL]; omega
    have h3 : rkey (pgEngine e) H_SAT_TOTAL ≠ rkey (pgEngine e) H_NAN_TOTAL := by simp only [rkey, H_SAT_TOTAL, H_NAN_TOTAL]; omega
    unfold hoistClear
    dsimp only
    rw [if_neg (by rw [hs]; nofun), if_neg (by decide), if_pos rfl]
    simp only [rd_wr_same, rd_wr_other _ _ _ _ _ _ h1, rd_wr_other _ _ _ _ _ _ h2, rd_wr_other _ _ _ _ _ _ h3, true_and]
    rfl

-- bank modes ------------------------------------------------------------------------------------------------------------------

/-- A ranked write after a higher-ranked writer's in the same cycle is refused. -/
theorem ranked_outranked {s : State} {w : Agent} {pg off : Nat} {e : RankedWrite} (saved : List Undo) (f : State → State)
    (he : e ∈ s.ranked) (hpg : e.page = pg) (hoff : e.off = off) (hby : e.by_ ≠ w) (hr : e.rank < rankOf s w pg) (ht : off ≠ THROTTLE) :
    ranked s w pg off saved f = refuseWrite s w pg off := by
  unfold ranked
  dsimp only
  rw [if_pos]
  refine List.any_eq_true.mpr ⟨e, ?_, by simp [RankedWrite.stands, hr]⟩
  simp [List.mem_filter, he, hpg, hoff, hby, ht]

/-- Settles O21, by the branches of `modeWrite` and of `ranked`. -/
theorem bankModes : Obligations.BankModes := by
  intro s w b hs pg asked mode
  have taken (v : Nat) (hp : isParent s w pg = true) (hu : Unrivalled s w pg MODE) (h1 : v ≠ 1) (h2 : v = 2 → holder s pg = w) (hm : mode ≠ v) :
      Host.Outcome.next (modeWrite s w b v) = asked v := by
    refine congrArg _ ?_
    unfold modeWrite
    dsimp only
    rw [if_neg (by rw [hs]; nofun), if_neg, ranked_unrivalled _ _ _ _ _ _ hu, if_neg fun h => hm h.1]
    simp only [Bool.or_eq_true, Bool.not_eq_true', Bool.and_eq_true, decide_eq_true_eq, decide_eq_false_iff_not]
    rintro ((h | h) | h)
    · exact absurd hp (by rw [h]; nofun)
    · exact h1 h
    · exact h.2 (h2 h.1)
  refine ⟨fun hp hu => ⟨fun hm => taken 0 hp hu (by decide) nofun hm, fun hm => taken 3 hp hu (by decide) nofun hm,
    fun hh hm => taken 2 hp hu (by decide) (fun _ => hh) hm⟩, fun e he hpg hoff hby hr i hi => ?_, ?_, fun v hv => ⟨_, rfl, ?_⟩⟩
  · have refused (v : Nat) : (Host.Outcome.next (modeWrite s w b v) : Host.Outcome State Fault Refusal) = .next (refuseWrite s w pg MODE) := by
      refine congrArg _ ?_
      unfold modeWrite
      dsimp only
      rw [if_neg (by rw [hs]; nofun), ranked_outranked _ _ he hpg hoff hby hr (by decide), ite_self]
    simp only [List.mem_cons, List.not_mem_nil, or_false] at hi
    rcases hi with rfl | rfl | rfl <;> exact refused _
  · refine congrArg Host.Outcome.next (show modeWrite s w b 1 = _ from ?_)
    unfold modeWrite
    dsimp only
    rw [if_neg (by rw [hs]; nofun), if_pos (by simp)]
  · simp only [hv]
    exact ⟨rd_wr_same .., rfl, rfl⟩

-- leases ----------------------------------------------------------------------------------------------------------------------

/-- Settles O22: each write once a lease that is over has ended, and the end itself. -/
theorem leases : Obligations.Leases := by
  intro s w nx r hs pg s1
  refine ⟨fun hmay hun => ⟨fun hw hne => ?_, fun hw hp => ?_⟩, fun l hun h => ?_, fun h => dueEnd_running s r h, fun h => ?_⟩
  · refine congrArg Host.Outcome.next (show ownerWrite s w r nx = _ from ?_)
    unfold ownerWrite
    dsimp only
    rw [if_neg (by rw [hs]; nofun), if_neg (by rw [hmay, hw]; simp), ranked_unrivalled _ _ _ _ _ _ hun, if_pos hw, handover, if_neg hne]
  · refine congrArg Host.Outcome.next (show ownerWrite s w r nx = _ from ?_)
    unfold ownerWrite
    dsimp only
    rw [if_neg (by rw [hs]; nofun), if_neg (by rw [hmay, hp]; simp), ranked_unrivalled _ _ _ _ _ _ hun, if_neg (by rw [hw]; nofun)]
    rfl
  · refine congrArg Host.Outcome.next (show leaseWrite s w r l = _ from ?_)
    unfold leaseWrite
    dsimp only
    rw [if_neg (by rw [hs]; nofun), if_pos, ranked_unrivalled _ _ _ _ _ _ hun]
    rcases h with hp | ⟨hw, h0, h1, h2⟩
    · rw [hp, Bool.true_or]
    · rw [hw, decide_eq_true h0, decide_eq_true h1, decide_eq_true h2]
      simp
  · have e : s1 = wr (recallLease s r (recaller s r)) pg BLK_LEASE_END 0 := if_pos h
    refine ⟨rfl, by rw [e, rd_wr_same], e.trans ?_⟩
    split
    next hh => rw [show recallLease s r (recaller s r) = s from if_pos hh]
    next => rfl

end Sys2Proof.Machine
end

section
/-!
The host's queues, doorbells and posts (R276 to R287).
-/

namespace Sys2Proof.Machine

-- accesses over PCIe that are turned away ---------------------------------------------------------------------------------------

/-- In the safe state and before `STEP` 1 a write past the first pages of die 0 is turned away (R276, R318). -/
theorem aborted_of_closed {s : State} {pg : Nat} (h : isSafe s 0 = true ∨ s.boot.step = 0) (hpg : 7 ≤ pg) : aborted s pg true = true := by
  rcases h with h | h
  · simp [aborted, h]
  · have h' : pg ≠ 0 ∧ pg ≠ 1 ∧ pg ≠ 3 ∧ pg ≠ 6 := by omega
    simp [aborted, h, h']

theorem byHost_of_closed {s : State} {pg : Nat} (act : State → State) (hrel : s.boot.released = true)
    (h : isSafe s 0 = true ∨ s.boot.step = 0) (hpg : 7 ≤ pg) : byHost s pg act = emit s .completerAbort := by
  simp [byHost, hrel, aborted_of_closed h hpg]

theorem byAgent_of_closed {s : State} {pg : Nat} (act : State → State) (hrel : s.boot.released = true)
    (h : isSafe s 0 = true ∨ s.boot.step = 0) (hpg : 7 ≤ pg) : byAgent s ⟨btHost, 0⟩ pg act = emit s .completerAbort := by
  rw [byAgent, if_pos rfl, byHost_of_closed act hrel h hpg]

theorem pgHost_past : 7 ≤ pgHost := by decide
theorem pgMailbox_past (m : Nat) : 7 ≤ pgMailbox m := by simp only [pgMailbox, gpage]; omega

-- doorbells and posts -----------------------------------------------------------------------------------------------------------

/-- A malformed post is dropped and counted (R285). -/
theorem mbJudge_of_malformed (s : State) (m : Nat) (bs : List Byte) (h : noticeOk bs = false) :
    mbJudge s m bs = (bump s (pgMailbox m) M_DROPPED 1, none) := by
  simp [mbJudge, h]

/-- A mailbox that is not shared turns away one that does not hold it. -/
theorem mbJudge_of_denied (s : State) (m : Nat) (bs : List Byte) (hok : noticeOk bs = true) (hsh : mbShared s m = false)
    (hh : holder s (pgMailbox m) ≠ mbHolder m (leAt bs 0 1 % 16)) :
    mbJudge s m bs = (mbResult s m (leAt bs 0 1 % 16) (leAt bs 4 2) sDENIED, some sDENIED) := by
  simp [mbJudge, hok, hsh, hh]

/-- A full mailbox that is not shared refuses its holder's post. -/
theorem mbJudge_of_full (s : State) (m : Nat) (bs : List Byte) (hok : noticeOk bs = true) (hsh : mbShared s m = false)
    (hh : holder s (pgMailbox m) = mbHolder m (leAt bs 0 1 % 16)) (hfull : 8 ≤ (mailbox s m).length) :
    mbJudge s m bs = (mbResult s m (leAt bs 0 1 % 16) (leAt bs 4 2) sREFUSED, some sREFUSED) := by
  simp [mbJudge, hok, hsh, hh, mbPlaces, hfull]

/-- A post to a shared mailbox that holds a notice collides. -/
theorem mbJudge_of_collided (s : State) (m : Nat) (bs : List Byte) (hok : noticeOk bs = true) (hsh : mbShared s m = true)
    (hfull : mailbox s m ≠ []) :
    mbJudge s m bs = (mbResult (setBits s (pgMailbox m) M_COLL 1) m (leAt bs 0 1 % 16) (leAt bs 4 2) sCOLLIDED, some sCOLLIDED) := by
  have h : 1 ≤ (mailbox s m).length := List.length_pos_iff.2 hfull
  simp [mbJudge, hok, hsh, mbPlaces, h]

/-- Settles O38: what is turned away over PCIe, the masks by their branches, and posts by what `mbJudge` decides. -/
theorem doorbellsAndPosts : Obligations.DoorbellsAndPosts := by
  refine ⟨fun s v m bs hrel h => ⟨?_, ?_, ?_, fun hm => ?_, ?_⟩, fun s hs hrel hstep => ⟨fun v => ⟨?_, fun he => ?_, fun he => ?_, fun w => ⟨fun he hp hu => ?_, fun he => ?_⟩⟩,
    fun m bs => ?_, fun m w p hp => ?_⟩⟩
  · exact congrArg _ (byHost_of_closed _ hrel h pgHost_past)
  · exact congrArg _ (byHost_of_closed _ hrel h pgHost_past)
  · exact congrArg _ (byAgent_of_closed _ hrel h pgHost_past)
  · exact congrArg _ ((if_pos hm).trans (byHost_of_closed _ hrel h (pgMailbox_past m)))
  · exact congrArg _ (byAgent_of_closed _ hrel h (pgMailbox_past m))
  · refine congrArg _ ((byHost_of_not_aborted s pgHost _ hrel (aborted_eq_false s _ _ hs hstep)).trans ?_)
    rw [doorbellClear, if_neg (by rw [hs]; nofun)]
  · refine congrArg _ ((byHost_of_not_aborted s pgHost _ hrel (aborted_eq_false s _ _ hs hstep)).trans ?_)
    rw [dbMaskHost, if_neg (by rw [hs]; nofun), if_neg (by rw [he]; nofun)]
  · refine congrArg _ ((byHost_of_not_aborted s pgHost _ hrel (aborted_eq_false s _ _ hs hstep)).trans ?_)
    rw [dbMaskHost, if_neg (by rw [hs]; nofun), if_pos he]
  · refine congrArg _ ((byAgent_of_not_aborted s w pgHost _ hrel (aborted_eq_false s _ _ hs hstep)).trans ?_)
    rw [dbMaskHf, if_neg (by rw [hs]; nofun), if_neg (by rw [he, hp]; nofun), ranked_unrivalled _ _ _ _ _ _ hu]
  · refine congrArg _ ((byAgent_of_not_aborted s w pgHost _ hrel (aborted_eq_false s _ _ hs hstep)).trans ?_)
    rw [dbMaskHf, if_neg (by rw [hs]; nofun), if_pos (by rcases he with h | h <;> rw [h] <;> simp)]
  · intro t answers kept
    have hpost := exec_mailboxPost_of_not_safe s m bs hs hrel hstep
    refine ⟨fun hb => ?_, fun hb hsh hh => ?_, fun hb hsh hh hfull => ?_, fun hb hsh hne => ?_⟩
    · rw [hpost, mbPost, mbJudge_of_malformed _ _ _ hb]
      rfl
    · rw [hpost, mbPost_of_judged _ _ _ _ _ (mbJudge_of_denied _ _ _ hb hsh hh)]
    · rw [hpost, mbPost_of_judged _ _ _ _ _ (mbJudge_of_full _ _ _ hb hsh hh hfull)]
    · rw [hpost, mbPost_of_judged _ _ _ _ _ (mbJudge_of_collided _ _ _ hb hsh hne)]
  · refine congrArg _ ((byAgent_of_not_aborted s w (pgMailbox m) _ hrel (aborted_eq_false s _ _ hs hstep)).trans ?_)
    rw [pop, if_neg (by rw [hs]; nofun), beforePosts, hp]
    rfl

-- the queues --------------------------------------------------------------------------------------------------------------------

/-- A selection of entries that takes every entry of a key leaves what the key reads. -/
theorem sparse_get_filter_of_all {α : Type} (d : α) (m : Sparse α) (p : Nat × α → Bool) (k : Nat) (h : ∀ v, p (k, v) = true) :
    Sparse.get d (m.filter p) k = Sparse.get d m k := by
  induction m with
  | nil => rfl
  | cons e rest ih =>
    obtain ⟨a, w⟩ := e
    by_cases ha : a = k
    · subst ha; simp [h, Sparse.get]
    · rw [List.filter_cons, Sparse.get, if_neg ha]
      split
      · rw [Sparse.get, if_neg ha, ih]
      · exact ih

/-- What a page's registers read once they have been cleared. -/
theorem rd_clearPage (s : State) (pg p off : Nat) (ho : off < 4096) : rd (clearPage s pg) p off = if p = pg then regReset p off else rd s p off := by
  unfold rd clearPage
  dsimp only
  split
  next h =>
    rw [sparse_get_filter_of_not, Option.getD_none]
    intro v
    simp only [rkey, h, Bool.not_eq_false', Bool.and_eq_true, decide_eq_true_eq]
    omega
  next h =>
    rw [sparse_get_filter_of_all]
    intro v
    suffices hk : rkey p off < rkey pg 0 ∨ rkey pg 4096 ≤ rkey p off by simpa using hk
    simp only [rkey]
    omega

/-- A word written back as it read before reads so, and every other word as the state in between has it. -/
theorem rd_wr_back (s t : State) (pg off p q : Nat) (ho : off < 4096) (hq : q < 4096) (ho4 : off % 4 = 0) (hq4 : q % 4 = 0) :
    rd (wr t pg off (rd s pg off)) p q = if p = pg ∧ q = off then rd s p q else rd t p q := by
  split
  next h => rw [h.1, h.2, rd_wr_same]
  next h =>
    refine rd_wr_other _ _ _ _ _ _ fun e => h ?_
    obtain ⟨hp, hd⟩ := rkey_inj p q pg off hq ho e
    exact ⟨hp, by omega⟩

theorem exec_hostDataReadDone (op : Nat) (res : HostRead) (s : State) :
    exec (.hostDataReadDone op res) s = execHostDataReadDone op res s := rfl

/-- Settles O37: the branches of each command, a request's by what is judged of it, and the reset by what it writes. -/
theorem hostQueue : Obligations.HostQueue := by
  refine ⟨fun s v hrel h => ⟨?_, ?_, ?_, ?_, fun hs hl => ?_⟩, fun s hs hrel hstep => ?_⟩
  · exact congrArg _ (byHost_of_closed _ hrel h pgHost_past)
  · exact congrArg _ (byHost_of_closed _ hrel h pgHost_past)
  · exact congrArg _ (byAgent_of_closed _ hrel h pgHost_past)
  · exact congrArg _ (byAgent_of_closed _ hrel h pgHost_past)
  · exact congrArg Host.Outcome.next ((if_neg (by rw [hrel, hl]; nofun)).trans (if_pos hs))
  have host (act : State → State) : byHost s pgHost act = act s := byHost_of_not_aborted s pgHost _ hrel (aborted_eq_false s _ _ hs hstep)
  have agent (w : Agent) (act : State → State) : byAgent s w pgHost act = act s :=
    byAgent_of_not_aborted s w pgHost _ hrel (aborted_eq_false s _ _ hs hstep)
  intro h n
  refine ⟨fun v hv => ⟨congrArg _ ((host _).trans ?_), congrArg _ ((host _).trans ?_)⟩, fun w hr => congrArg _ ((agent w _).trans ?_),
    fun w => congrArg _ ((agent w _).trans ?_), fun bs hf hl => ?_, fun bs => ⟨fun hb => ?_, fun hb hj => ?_, fun s1 hb hj ho => ?_⟩,
    fun op o res hf hp ho ht => ?_, fun op o hf hp ho ht => ⟨fun bs hl => ?_, ?_, ?_, ?_⟩, fun hl => ⟨_, rfl, ?_⟩⟩
  · rw [rqTail, if_neg (by rw [hs]; nofun), if_neg (by omega)]
  · rw [cqHead, if_neg (by rw [hs]; nofun), if_neg (by omega)]
  · rw [queueCmd, if_neg (by rw [hs]; nofun), if_neg (by decide), if_neg (by simp [hr])]
    rfl
  · rw [queueCmd, if_neg (by rw [hs]; nofun), if_neg (by decide), if_neg (by simp)]
    rfl
  · exact congrArg _ (if_pos (by rw [hf, decide_eq_true hl]; rfl))
  · rw [takeRequest, if_pos hb]
  · rw [takeRequest, if_neg (by rw [hb]; nofun), hj]
  · rw [takeRequest, if_neg (by rw [hb]; nofun), hj]
    exact if_pos ho
  · rw [exec_hostDataReadDone]
    simp [execHostDataReadDone, hf, hp, ho, ht]
  · rw [exec_hostDataReadDone]
    simp [execHostDataReadDone, hf, hp, ho, ht, hl]
  iterate 3
    rw [exec_hostDataReadDone]
    simp [execHostDataReadDone, hf, hp, ho, ht]
  · rw [if_neg (by rw [hrel, hl]; nofun), if_neg (by rw [hs]; nofun)]
    refine ⟨rfl, fun pg off ho hal => ?_, rfl, rfl, rfl⟩
    change rd (wr (wr (wr (clearPage s pgHost) pgHost DOORBELL _) pgHost DB_MASK_HOST _) pgHost DB_MASK_HF _) pg off = _
    rw [rd_wr_back _ _ _ _ _ _ (by decide) ho (by decide) hal, rd_wr_back _ _ _ _ _ _ (by decide) ho (by decide) hal,
      rd_wr_back _ _ _ _ _ _ (by decide) ho (by decide) hal, rd_clearPage _ _ _ _ ho]
    by_cases hp : pg = pgHost
    · simp only [hp, true_and, if_true, List.mem_cons, List.not_mem_nil, or_false, not_or]
      grind
    · simp only [hp, false_and, if_false]

end Sys2Proof.Machine
end

section
/-!
Power and reset (R367 to R372), bring-up (R306 to R309), samples (R328 to R332), and faults of the device and the bridge (R344 to R352).
-/

namespace Sys2Proof.Machine

-- power and reset ---------------------------------------------------------------------------------------------------------------

/-- A powered device that loses PWR_GOOD is reset, with its powered seconds saved. -/
theorem powerLost_eq (s : State) (h : s.power.pwrGood = true) : ∃ s0 : State,
    s0.power = { s.power with pwrGood := false, pwrGoodAt := none } ∧ s0.boot = s.boot ∧ s0.pins = s.pins ∧
    powerLost s = emit { resetState s0 with
      power := { (resetState s0).power with earlyRelease := s.power.earlyRelease || !s.power.inReset }
      pins := { (resetState s0).pins with i3c0 := I3c.reset } } (.pwrGood false) := by
  refine ⟨_, ?_, ?_, ?_, if_pos h⟩ <;> rfl

/-- What a loss of PWR_GOOD leaves of a powered device. -/
theorem powerLost_of_good (s : State) (h : s.power.pwrGood = true) :
    (powerLost s).power = { Power.reset with
      pwrGood := false, busAt := s.power.busAt, earlyRelease := s.power.earlyRelease || !s.power.inReset, trip := s.power.trip
      tripOff := s.power.tripOff, inputMv := s.power.inputMv } ∧
    (powerLost s).boot = { Boot.reset with up := s.boot.up } ∧ (powerLost s).pins = { Pins.reset with levels := s.pins.levels } ∧
    (powerLost s).regs = [] := by
  obtain ⟨s0, hp, hb, hpins, e⟩ := powerLost_eq s h
  obtain ⟨ts, o, e0⟩ := resetState_eq s0
  rw [e, e0, hp, hb, hpins]
  exact ⟨rfl, rfl, rfl, rfl⟩

/-- Settles O45, by the branches of each command. -/
theorem powerAndReset : Obligations.PowerAndReset := by
  intro s p
  refine ⟨fun hg ht hlo hhi => ⟨_, rfl, ?_⟩, fun ns h => ?_, fun ns h => ?_, rfl, fun h => if_neg (by rw [h]; nofun), powerLost_of_good s,
    fun hr => ⟨fun hg he => ?_, fun h => ?_, fun hg he ho => ?_⟩, fun hr hz => congrArg _ (if_pos ⟨hr, hz⟩), rfl⟩
  · rw [if_neg (by simp only [not_or]; exact ⟨by rw [hg]; nofun, by rw [ht]; nofun, Nat.not_lt.mpr hlo, Nat.not_lt.mpr hhi⟩)]
    exact ⟨rfl, rfl, rfl⟩
  · exact congrArg Host.Outcome.next (if_pos h)
  · exact congrArg Host.Outcome.next ((if_neg (by omega)).trans (if_pos h))
  · exact congrArg Host.Outcome.next ((if_neg (by rw [hr]; nofun)).trans (if_neg (by rw [hg, he]; nofun)))
  · exact congrArg Host.Outcome.next ((if_neg (by rw [hr]; nofun)).trans (if_pos (by rcases h with h | h <;> rw [h] <;> simp)))
  · exact congrArg Host.Outcome.next (if_pos (by rw [hr, hg, ho, he]; rfl))

-- bring-up ----------------------------------------------------------------------------------------------------------------------

/-- All foremen started. -/
theorem startForemen_eq (l : List Nat) (s : State) :
    ∃ f, l.foldl (fun t f => setForeman t f { foreman t f with st := 1, tables := true }) s = { s with foremen := f } := by
  induction l generalizing s with
  | nil => exact ⟨s.foremen, rfl⟩
  | cons n rest ih =>
    obtain ⟨f, e⟩ := ih (setForeman s n { foreman s n with st := 1, tables := true })
    exact ⟨f, e⟩

/-- The seed is what was measured. -/
def measured (s : State) : State := { s with security := { s.security with aliasSeed := measuredBytes s } }

/-- A device whose bring-up runs has been released and is not safe. -/
theorem booting_iff (s : State) : booting s = true ↔ s.boot.released = true ∧ isSafe s 0 = false := by
  simp [booting]

/-- Settles O47, by the branches of each command. -/
theorem bringUp : Obligations.BringUp := by
  intro s hb
  have hrel := ((booting_iff s).mp hb).1
  refine ⟨fun hz ht hs => ?_, fun h => ?_, fun h1 h2 h3 h4 => ?_, fun im h1 h2 h3 => ?_, fun im h1 h2 => ?_, fun h => ?_,
    fun h1 => ⟨fun h0 => ?_, fun t0 hl ht => ?_, fun hl ht => ?_⟩, fun f hf => ?_⟩
  · exact congrArg Host.Outcome.next ((if_neg (by rw [hb, hz, ht]; nofun)).trans ((if_neg (by rw [hs]; nofun)).trans (if_pos rfl)))
  · exact congrArg Host.Outcome.next (if_pos ⟨hb, h⟩)
  · exact congrArg Host.Outcome.next (if_pos ⟨hb, h1, h2, h3, h4⟩)
  · refine congrArg Host.Outcome.next ((if_neg (by rw [hb, h2]; simp [h1])).trans ?_)
    simp only [setStep, h3, Nat.lt_one_iff, if_true]
  · obtain ⟨f, e⟩ := startForemen_eq (List.range 8) (measured { s with security := { s.security with fm := some (imageOf im) } })
    refine ⟨_, congrArg Host.Outcome.next ((if_neg (by rw [hb, h2]; simp; omega)).trans
      (ite_congr rfl (fun _ => congrArg (fun t => bootProgress (powerDomains (setStep t 2))) e) fun _ => rfl)),
      rfl, rfl, rfl, rfl⟩
  · exact congrArg Host.Outcome.next (if_pos ⟨hrel, h⟩)
  · exact congrArg Host.Outcome.next (if_pos ⟨h0, h1⟩)
  · change execHeadframeTakeover s = _
    simp only [execHeadframeTakeover, hl]
    rw [if_pos ⟨h1, ht⟩]
    rfl
  · exact congrArg Host.Outcome.next (if_pos ⟨h1, hl, ht⟩)
  · intro u hu
    exact congrArg Host.Outcome.next ((if_pos hf).trans (if_neg (by rw [hu]; nofun)))

-- faults ------------------------------------------------------------------------------------------------------------------------

/-- Settles O52, by the branches of each command. -/
theorem faultsAndDrain : Obligations.FaultsAndDrain := by
  intro s die d
  refine ⟨fun pll h => congrArg Host.Outcome.next (if_pos h), rfl, fun t0 he hd hn ht => congrArg Host.Outcome.next (if_pos ?_),
    fun hs hd => congrArg Host.Outcome.next (if_pos ⟨hs, hd⟩), fun hr hb => ⟨congrArg Host.Outcome.next (if_pos ⟨hr, .inl hb⟩),
      congrArg Host.Outcome.next (if_pos ⟨hr, hb⟩)⟩, fun t0 h ht => ?_⟩
  · simp [windowOver, d, he, hd, hn, ht]
  · change execBridgeRetrainTimeout s = _
    simp only [execBridgeRetrainTimeout, h]
    rw [if_pos ht]

-- samples -----------------------------------------------------------------------------------------------------------------------

/-- When a rail's or the input's samples make dies safe (R330). -/
theorem railDue_eq (s : State) (ds : List Nat) (n : Nat) :
    railDue s ds n = (s.boot.released && (decide (n = 10) || (decide (10 < n) && !ds.all (isSafe s)))) := by
  rw [railDue, List.not_all_eq_any_not]

/-- A half-level has been below a bound of its step for 1 ms (Table 17-8). -/
def cooled (h : Option Ns) (t : Ns) : Bool := match h with
  | some t0 => decide (t0 + 1000000 ≤ t)
  | none => false

section
variable (x : HalfLevel) (c : Nat) (t : Ns)

theorem stepAfter_of_overheated (h : 110 ≤ c) : stepAfter x c t = 3 := if_pos h

theorem stepAfter_of_throttled (hlo : 102 ≤ c) (hhi : c < 110) : stepAfter x c t = Nat.max 2 x.step := by
  rw [stepAfter, if_neg (Nat.not_le.mpr hhi), if_pos hlo]

theorem stepAfter_of_warm (hx : x.step ≤ 1) (hc : c < 102) :
    stepAfter x c t = if 95 ≤ c then 1 else if x.step = 1 ∧ cooled x.lt92 t = true then 0 else x.step := by
  rw [stepAfter, if_neg (by omega), if_neg (by omega), if_pos hx]
  rfl

theorem stepAfter_of_two (hx : x.step = 2) (hc : c < 102) :
    stepAfter x c t = if cooled x.lt92 t then 0 else if cooled x.lt98 t then 1 else 2 := by
  rw [stepAfter, if_neg (by omega), if_neg (by omega), if_neg (by omega), if_pos hx]
  rfl

end

/-- Settles O51, by the branches of each command; a junction's step by those of `stepAfter`. -/
theorem samples : Obligations.Samples := by
  intro s
  refine ⟨fun r inB hg => ?_, fun mv => ?_, fun mv hlo hhi => ?_, fun w hg h => ?_, fun w hg hc hw => ?_, fun h c => ?_⟩
  · intro n s1
    have e : exec (.railSample r inB) s = .next (if railDue s1 (railDies r) n then railFails s1 (railDies r) (railUnit r).1 (railUnit r).2 (railRow r) else s1) :=
      congrArg Host.Outcome.next (if_neg (by rw [hg]; nofun))
    have hall : (railDies r).all (isSafe s1) = (railDies r).all (isSafe s) := rfl
    have hrel : s1.boot.released = s.boot.released := rfl
    rw [e, railDue_eq, hall, hrel]
    refine ⟨fun h => ?_, fun h ha => ?_, fun h hr => ?_, fun h => ?_⟩
    · rw [if_neg]
      have h1 : n ≠ 10 := by omega
      have h2 : ¬ 10 < n := by omega
      simp [h1, h2]
    · rw [if_neg]
      have h1 : n ≠ 10 := by omega
      simp [h1, ha]
    · rw [if_pos]
      rcases h with h | ⟨h, ha⟩
      · simp [hr, h]
      · simp [hr, h, ha]
    · rw [if_neg (by rw [h]; nofun)]
  · intro p n s1
    have e (hmv : mv < 40000 ∨ 60000 < mv) : exec (.inputSample mv) s = .next (if mv < 36000 ∨ 63000 < mv then powerLost s1
        else if p.pwrGood && railDue s1 [0, 1] n then railFails s1 [0, 1] 0 ⟨btDie, 0⟩ 0xFF else s1) := by
      change execInputSample mv s = _
      unfold execInputSample
      dsimp only
      rw [if_neg (show ¬ (40000 ≤ mv ∧ mv ≤ 60000) by omega)]
      rfl
    have hall : [0, 1].all (isSafe s1) = (isSafe s 0 && isSafe s 1) := by
      rw [List.all_cons, List.all_cons, List.all_nil, Bool.and_true]
      rfl
    have hrel : s1.boot.released = s.boot.released := rfl
    refine ⟨fun h => ?_, fun h1 h2 h3 => ⟨fun h => ?_, fun h hr hg => ?_⟩⟩
    · rw [e (by omega), if_pos h]
    · rw [e h3, if_neg (by omega), if_neg]
      rw [railDue_eq, hall, hrel]
      rcases h with h | ⟨h, ha, hb⟩ | h | h
      · have h1 : n ≠ 10 := by omega
        have h2 : ¬ 10 < n := by omega
        simp [h1, h2]
      · have h1 : n ≠ 10 := by omega
        simp [h1, ha, hb]
      · simp [h]
      · simp [h]
    · rw [e h3, if_neg (by omega), if_pos]
      rw [railDue_eq, hall, hrel]
      have hg' : p.pwrGood = true := hg
      rcases h with h | ⟨h, ha | ha⟩
      · simp [hr, hg', h]
      · simp [hr, hg', h, ha]
      · simp [hr, hg', h, ha]
  · change execInputSample mv s = _
    unfold execInputSample
    dsimp only
    rw [if_pos (show 40000 ≤ mv ∧ mv ≤ 60000 from ⟨hlo, hhi⟩), if_neg (show ¬ (mv < 36000 ∨ 63000 < mv) by omega), railDue_eq]
    have hcool : (s.power.tripOff && decide (36000 ≤ mv)) = s.power.tripOff := by rw [decide_eq_true (by omega), Bool.and_true]
    simp [hcool]
  · refine congrArg Host.Outcome.next ((if_neg (by rw [hg]; nofun)).trans ?_)
    rcases h with h | h
    · simp [h]
    · have h1 : ¬ 2400 < w := by omega
      cases hc : s.power.capped <;> simp [h1]
  · refine congrArg Host.Outcome.next ((if_neg (by rw [hg]; nofun)).trans ?_)
    simp [hc, hw]
  · intro x t from_ x1 step
    have e (k : Nat) (hr : s.boot.released = true) (hk : stepAfter x1 c.toNat t = k) : exec (.junctionSample h c) s = .next (
        let s2 := if x.step = 0 ∧ k ≠ 0 then
          bump (step k) (pgForeman (quadOf (256 * (h.val / 32) + 16 * (h.val % 32 / 2) + 8 * (h.val % 2)))) THERM_EVENTS 1 else step k
        let s3 := if x.step < 2 ∧ 2 ≤ k then bump s2 (pgDie (h.val / 32)) THROTTLES 1 else s2
        if k = 3 ∧ isSafe s (h.val / 32) = false then
          dieFail (report s3 ⟨h.val / 32, ⟨btDie, h.val / 32⟩, 0x0C, .never, c.toNat, none⟩) (h.val / 32) 7 5 false
        else s3) := by
      subst hk
      exact congrArg Host.Outcome.next (if_neg (by rw [hr]; nofun))
    have hx : x1.step = x.step := rfl
    refine ⟨fun hr h0 hc => ?_, fun hr h0 hlo hhi => ?_, fun t0 hr hst hc hcool ht => ?_, fun t0 hr hst hc hcool ht hn => ?_, fun hr h1 hlo hhi => ?_,
      fun hr h1 hlo hhi => ?_, fun hr h2 hc hs => ?_⟩
    · rw [e 0 hr (by rw [stepAfter_of_warm _ _ _ (by omega) (by omega), if_neg (by omega), if_neg (by omega), hx, h0])]
      simp
    · rw [e 1 hr (by rw [stepAfter_of_warm _ _ _ (by omega) hhi, if_pos hlo])]
      simp [h0]
    · have hl : cooled x1.lt92 t = true := by simp [x1, from_, hc, hcool, cooled, ht]
      rw [e 0 hr (by
        rcases hst with hst | hst
        · rw [stepAfter_of_warm _ _ _ (by omega) (by omega), if_neg (by omega), if_pos ⟨hst, hl⟩]
        · rw [stepAfter_of_two x1 c.toNat t hst (by omega), if_pos hl])]
      simp
    · have hl : cooled x1.lt98 t = true := by simp [x1, from_, hc, hcool, cooled, ht]
      have hl2 : cooled x1.lt92 t = false := by
        rcases hn with hn | hn
        · simp [x1, from_, Nat.not_lt.mpr hn, cooled]
        · cases h92 : x.lt92 with
          | none => by_cases hc2 : c.toNat < 92 <;> simp [x1, from_, hc2, cooled, h92]
          | some t1 =>
            have := hn t1 h92
            by_cases hc2 : c.toNat < 92 <;> simp [x1, from_, hc2, cooled, h92, this]
      rw [e 1 hr (by rw [stepAfter_of_two x1 c.toNat t hst (by omega), if_neg (by rw [hl2]; nofun), if_pos hl])]
      simp [hst]
    · rw [e 1 hr (by rw [stepAfter_of_warm _ _ _ (by omega) hhi, if_pos hlo])]
      simp [h1]
    · rw [e 2 hr (by rw [stepAfter_of_throttled _ _ _ hlo hhi, hx, h1]; rfl)]
      simp [h1]
    · rw [e 3 hr (stepAfter_of_overheated _ _ _ hc)]
      simp [h2, show isSafe s (h.val / 32) = false from hs]

end Sys2Proof.Machine
end

section
/-!
Apertures and configuration requests (R274, R276, R282, R318), profile copies (R299), power domains and operating points (R19, R322 to R327).
-/

namespace Sys2Proof.Machine

-- apertures ---------------------------------------------------------------------------------------------------------------------

section
variable {s : State}

/-- An aperture access is turned away by a device that is safe or has not reached `STEP` 1 (R276, R318). -/
theorem apTurnedAway_of_safe (write : Bool) (o : Nat) (h : isSafe s 0 = true) : apTurnedAway s write o = some .completerAbort := by
  simp [apTurnedAway, h]

/-- An access that its aperture does not serve is unsupported. -/
theorem apTurnedAway_of_disabled {write : Bool} {o : Nat} (hs : isSafe s 0 = false) (hstep : 1 ≤ s.boot.step)
    (h : fld (apCtl s (o / 2 ^ 32)) 0 0 = 0 ∨ (write = true ∧ fld (apCtl s (o / 2 ^ 32)) 3 3 = 0)) : apTurnedAway s write o = some .unsupported := by
  unfold apTurnedAway
  dsimp only
  rw [if_neg (by rw [hs]; simp; omega), if_pos (.inr h)]

/-- An enabled aperture of a ready device takes a read, and a write where it has `WR`. -/
theorem apTurnedAway_of_enabled {write : Bool} {o : Nat} (hs : isSafe s 0 = false) (hstep : 1 ≤ s.boot.step) (hr : beforeReady s = false)
    (he : fld (apCtl s (o / 2 ^ 32)) 0 0 = 1) (hw : write = true → fld (apCtl s (o / 2 ^ 32)) 3 3 = 1) : apTurnedAway s write o = none := by
  unfold apTurnedAway
  dsimp only
  rw [if_neg (by rw [hs]; simp; omega), if_neg]
  rintro (h | h | ⟨h1, h2⟩)
  · rw [hr] at h; cases h
  · omega
  · have := hw h1; omega

theorem exec_apertureRead (off : BitVec 36) (len : Nat) (hl : s.host.linkUp = true) (hf : apFits off.toNat len = true) :
    exec (.apertureRead off len) s = .next (match apTurnedAway s false off.toNat with
      | some out => emit s out
      | none => releaseReads { s with host := { s.host with aps := s.host.aps ++ [newAp s false off.toNat len []] }, nextOp := s.nextOp + 1 }) :=
  congrArg Host.Outcome.next (if_neg (by rw [hl, hf]; nofun))

theorem exec_apertureWrite (off : BitVec 36) (data : List Byte) (hl : s.host.linkUp = true) (hf : apFits off.toNat data.length = true) :
    exec (.apertureWrite off data) s = .next (match apTurnedAway s true off.toNat with
      | some out => emit s out
      | none =>
        let x := newAp s true off.toNat data.length data
        let t := { s with host := { s.host with aps := s.host.aps ++ [x] }, nextOp := s.nextOp + 1 }
        if s.host.aps.any (fun y => y.held && y.write) then t else issueAp t x) :=
  congrArg Host.Outcome.next (if_neg (by rw [hl, hf]; nofun))

end

/-- Settles O40: accesses by what turns them away, configuration requests by their branches. -/
theorem aperturesAndConfiguration : Obligations.AperturesAndConfiguration := by
  intro s
  refine ⟨fun hl off => ?_, fun x hx => ?_, fun hr o => ⟨fun hl => ?_, fun hl hs => ?_, fun hl hs => ?_⟩⟩
  · intro o joins c
    refine ⟨fun hs hstep hr he => ⟨fun len hf => ?_, fun data hf hw hh => ?_, fun data hf hw hh => ?_⟩, fun data hf =>
      ⟨fun hs => ⟨?_, ?_⟩, fun hs hstep he => ?_, fun hs hstep he => ?_⟩⟩
    · rw [exec_apertureRead off len hl hf, apTurnedAway_of_enabled (write := false) hs hstep hr he nofun]
    · rw [exec_apertureWrite off data hl hf, apTurnedAway_of_enabled hs hstep hr he (fun _ => hw)]
      exact congrArg Host.Outcome.next (if_neg (by rw [hh]; nofun))
    · rw [exec_apertureWrite off data hl hf, apTurnedAway_of_enabled hs hstep hr he (fun _ => hw)]
      exact congrArg Host.Outcome.next (if_pos hh)
    · rw [exec_apertureRead off data.length hl hf, apTurnedAway_of_safe _ _ hs]
    · rw [exec_apertureWrite off data hl hf, apTurnedAway_of_safe _ _ hs]
    · rw [exec_apertureRead off data.length hl hf, apTurnedAway_of_disabled hs hstep (.inl he)]
    · rw [exec_apertureWrite off data hl hf, apTurnedAway_of_disabled hs hstep (he.imp id fun h => ⟨rfl, h⟩)]
  · change execApertureWriteRelease s = _
    simp only [execApertureWriteRelease, hx]
  · exact congrArg Host.Outcome.next ((if_neg (by rw [hr]; nofun)).trans (if_pos (by rw [hl]; rfl)))
  · exact congrArg Host.Outcome.next ((if_neg (by rw [hr]; nofun)).trans ((if_neg (by rw [hl]; nofun)).trans (if_pos hs)))
  · exact congrArg Host.Outcome.next ((if_neg (by rw [hr]; nofun)).trans ((if_neg (by rw [hl]; nofun)).trans (if_neg (by rw [hs]; nofun))))

-- profile copies ----------------------------------------------------------------------------------------------------------------

/-- A state, not one that a run reaches, whose list of routers names die 0's twice, the first time with its reset value. -/
def twiceListedRouter : State :=
  { State.reset with routers := [(0, Router.reset), (0, { Router.reset with live := ProfCopy.reset 1 })], copying := [0], split := true }

/-- The copy's end leaves die 0 at reset, which takes the first entry away and shows the second. -/
theorem router_after_copyDone : ∃ t, exec (.profileCopyDone 0) twiceListedRouter = .next t ∧ (router t 0).live.gen = 1 :=
  ⟨_, rfl, rfl⟩

/-- Refutes O44: the statement is of every state, and in one whose list of routers names a die twice the router that PROFILE_COPY_DONE returns to its
reset value reads as the second entry. -/
theorem not_commits : ¬ Obligations.Commits := by
  intro h
  obtain ⟨-, -, -, -, hdone, -⟩ := h twiceListedRouter 0
  obtain ⟨t, ht, hr, -⟩ := hdone rfl
  obtain ⟨u, hu, hgen⟩ := router_after_copyDone
  cases ht.symm.trans hu
  have := congrArg (fun r => r.live.gen) (hr 0 (by decide))
  rw [hgen] at this
  exact absurd this (by decide)

-- power domains and operating points ----------------------------------------------------------------------------------------------

/-- A domain command that may be taken is noted, and its domain's change asked for. -/
theorem domCmd_of_allowed {s : State} {w : Agent} {f : Fin 8} {i : Nat} (on : Bool) (hs : isSafe s (f.val / 4) = false)
    (hw : w = acting s (f.val / 4) ∨ (w = ⟨btForeman, f.val⟩ ∧ foremanFailed s f = false)) (hi : i < 12)
    (h1 : domain s (localDomain f i) ≠ 1) (h3 : domain s (localDomain f i) ≠ 3) (hu : Unrivalled s w (pgForeman f) DOM_CMD) :
    domCmd s w f i on = noteRanked s w (pgForeman f) DOM_CMD (domainUndo s f) (requestDomain s (localDomain f i) on) := by
  have hallowed : (decide (w = acting s (f.val / 4)) || (decide (w = ⟨btForeman, f.val⟩) && !foremanFailed s f)) = true := by
    rcases hw with h | ⟨h, h'⟩
    · simp [h]
    · simp [h, h']
  unfold domCmd
  dsimp only
  rw [if_neg (by rw [hs]; nofun), if_neg (by rw [hallowed, decide_eq_false (Nat.not_le.mpr hi)]; nofun), ranked_unrivalled _ _ _ _ _ _ hu,
    if_neg (by simp [h1, h3])]

/-- Settles O50, by the branches of each command. -/
theorem domainsAndPoints : Obligations.DomainsAndPoints := by
  intro s
  refine ⟨fun w f i hs hw hi h1 h3 hu => ⟨?_, ?_⟩, fun n => ⟨fun h hn => ?_, fun h hlo hhi => ?_, fun h hn => ?_, fun h hq => ?_⟩, fun die p => ?_⟩
  · exact congrArg Host.Outcome.next (domCmd_of_allowed true hs hw hi h1 h3 hu)
  · exact congrArg Host.Outcome.next (domCmd_of_allowed false hs hw hi h1 h3 hu)
  · refine congrArg Host.Outcome.next ((if_pos h).trans ?_)
    simp only [if_pos hn]
  · refine congrArg Host.Outcome.next ((if_pos h).trans ?_)
    simp only [if_neg (Nat.not_lt.mpr hlo), if_pos hhi]
  · refine congrArg Host.Outcome.next ((if_pos h).trans ?_)
    simp only [if_neg (show ¬ n.val < 64 by omega), if_neg (Nat.not_lt.mpr hn)]
  · exact congrArg Host.Outcome.next (if_pos ⟨h, hq⟩)
  · intro v hv
    refine ⟨fun hsw hall => ?_, fun hsw => ?_⟩
    · have hsome : v.target.isSome = true := Option.isSome_iff_exists.mpr ⟨p, hv⟩
      have hwait : (longOps s die).all (fun o => !v.waitOps.contains o) = true :=
        List.all_eq_true.mpr fun o ho => by simpa using hall o ho
      exact congrArg Host.Outcome.next (if_pos ⟨hsome, hsw, hwait⟩)
    · change execDvfsChangeEnd die s = _
      have hv' : (dvfs s die).target = some p := hv
      have hsw' : (dvfs s die).switched = true := hsw
      simp only [execDvfsChangeEnd, hv', hsw', if_true]

end Sys2Proof.Machine
end

section
/-!
Pins and the I3C target (R320, R374, R376, R379).
-/

namespace Sys2Proof.Machine

-- bits --------------------------------------------------------------------------------------------------------------------------

/-- One bit of a number. -/
theorem bitsOf_bit (x n : Nat) : bitsOf x n n = if x.testBit n then 1 else 0 := by
  rw [bitsOf_eq, Nat.testBit_eq_decide_div_mod_eq]
  simp only [Nat.add_sub_cancel_left, Nat.pow_one, decide_eq_true_eq]
  split <;> omega

/-- The bits set one after another. -/
theorem testBit_foldl_set (l : List Nat) (x n : Nat) : (l.foldl (fun a i => a ||| 2 ^ i) x).testBit n = (x.testBit n || decide (n ∈ l)) := by
  induction l generalizing x with
  | nil => simp
  | cons i rest ih =>
    rw [List.foldl_cons, ih, Nat.testBit_or, Nat.testBit_two_pow]
    by_cases h : n = i
    · simp [h]
    · simp [h, Ne.symm h]

-- pin functions -----------------------------------------------------------------------------------------------------------------

/-- The function of one of the first eight pins, once `PIN_FUNC_LO` has been written. -/
theorem pinFunc_of_written {t : State} {v : W32} {n : Nat} (h : rd t (pgHeadframe 0) PIN_FUNC_LO = v) (hn : n < 8) :
    pinFunc t n = bitsOf v.toNat (4 * n + 3) (4 * n) := by
  rw [pinFunc, if_pos hn, h, Nat.mod_eq_of_lt hn]

/-- The pins of the first eight whose function a value of `PIN_FUNC_LO` changes. -/
def changedPins (s : State) (v : W32) : List Nat :=
  (List.range 8).filter (fun i => decide (bitsOf v.toNat (4 * i + 3) (4 * i) ≠ pinFunc s i))

/-- What a write of the first eight pins' functions does where no pin is parked. -/
theorem pinFuncWrite_low {s : State} {w : Agent} {v : W32} (hr : s.boot.released = true) (hs : isSafe s 0 = false) (hstep : 1 ≤ s.boot.step)
    (hp : s.pins.parks = []) (hv : ∀ i < 8, pinAllows i (bitsOf v.toNat (4 * i + 3) (4 * i)) = true) :
    let s1 := wr s (pgHeadframe 0) PIN_FUNC_LO v
    pinFuncWrite s w false v = if changedPins s v = [] then s1 else
      { s1 with pins := { s1.pins with parks := s.pins.parks ++ [((changedPins s v).foldl (fun a i => a ||| 2 ^ i) 0, elapsed s - s.sclk % 4 + 4)] } } := by
  intro s1
  have hnone : ∀ b, parkedFor s b = 0 := fun b => by simp [parkedFor, hp, hs]
  unfold pinFuncWrite
  dsimp only
  rw [if_neg (by rw [hr]; nofun), if_neg (by rw [hs]; nofun), if_neg]
  · simp only [Bool.false_eq_true, if_false, Nat.zero_add]
    rfl
  · have hok : (List.range 8).any (fun i => !pinAllows (0 + i) (bitsOf v.toNat (4 * i + 3) (4 * i))) = false := by
      simpa using hv
    have h1 : ¬ s.boot.step < 1 := by omega
    simp only [Bool.false_eq_true, if_false, hnone, hok, h1, decide_false, Bool.or_false, Bool.false_or]
    simp [bitsOf_eq]

/-- The pins parked by one entry that has not run out. -/
theorem parked_of_one {t : State} {m e : Nat} (hs : isSafe t 0 = false) (hp : t.pins.parks = [(m, e)]) (he : elapsed t < e + 32) : parked t = m := by
  simp [parked, parkedFor, hs, hp, he]

/-- The functions written read back, and the pins whose function changes are parked. -/
theorem pinFuncWrite_low_parks {s : State} {w : Agent} {v : W32} (hr : s.boot.released = true) (hs : isSafe s 0 = false) (hstep : 1 ≤ s.boot.step)
    (hp : s.pins.parks = []) (hv : ∀ i < 8, pinAllows i (bitsOf v.toNat (4 * i + 3) (4 * i)) = true) :
    let t := pinFuncWrite s w false v
    rd t (pgHeadframe 0) PIN_FUNC_LO = v ∧ (∀ n < 8, bitsOf (parked t) n n = if pinFunc t n = pinFunc s n then 0 else 1) ∧
      t = { s with regs := t.regs, pins := t.pins } := by
  intro t
  have e := pinFuncWrite_low (w := w) hr hs hstep hp hv
  dsimp only at e
  split at e
  next hc =>
    have hrd : rd t (pgHeadframe 0) PIN_FUNC_LO = v := by rw [show t = _ from e, rd_wr_same]
    refine ⟨hrd, fun n hn => ?_, by rw [show t = _ from e]; rfl⟩
    have hpark : parked t = 0 := by
      rw [show t = _ from e]
      simp [parked, parkedFor, hp, show isSafe (wr s (pgHeadframe 0) PIN_FUNC_LO v) 0 = false from hs]
    have hsame : pinFunc t n = pinFunc s n := by
      rw [pinFunc_of_written hrd hn]
      refine Classical.byContradiction fun hne => ?_
      have hmem : n ∈ changedPins s v :=
        List.mem_filter.mpr ⟨List.mem_range.mpr hn, decide_eq_true hne⟩
      rw [hc] at hmem
      cases hmem
    rw [hpark, if_pos hsame, bitsOf_eq, Nat.zero_div, Nat.zero_mod]
  next hc =>
    have hrd : rd t (pgHeadframe 0) PIN_FUNC_LO = v := by rw [show t = _ from e]; exact rd_wr_same ..
    refine ⟨hrd, fun n hn => ?_, by rw [show t = _ from e]; rfl⟩
    have hpark : parked t = (changedPins s v).foldl (fun a i => a ||| 2 ^ i) 0 := by
      rw [show t = _ from e, hp]
      have later : ∀ a b : Nat, a < a - b % 4 + 4 + 32 := by omega
      exact parked_of_one (e := elapsed s - s.sclk % 4 + 4) hs rfl (later _ _)
    rw [hpark, bitsOf_bit, testBit_foldl_set, pinFunc_of_written hrd hn]
    simp [changedPins, List.mem_filter, hn]

/-- Settles O49, by the branches of each command. -/
theorem pinsAndI3c : Obligations.PinsAndI3c := by
  intro s
  refine ⟨fun w v hr hs hstep hp hv => ⟨_, rfl, pinFuncWrite_low_parks hr hs hstep hp hv⟩, fun hs => congrArg Host.Outcome.next (if_neg (by rw [hs]; nofun)), fun hr => ⟨fun fan h => ?_, fun c h => ?_,
    fun hb hstep => ⟨fun ht hok => ?_, fun c t0 rest hh => ?_⟩⟩, fun bus ha => ⟨fun a hd => ?_, fun hd => ⟨fun bs hl h1 h2 => ?_, fun hr hab => ?_⟩⟩⟩
  · exact congrArg Host.Outcome.next (if_pos (by rw [hr, h]; rfl))
  · exact congrArg Host.Outcome.next (if_pos (by rw [hr, h]; rfl))
  · refine congrArg Host.Outcome.next ((if_neg ?_).trans (if_neg (by rw [hok]; decide)))
    have h1 : ¬ s.boot.step < 1 := by omega
    simp [hb, h1, ht]
  · intro x r hok
    change execCaptureNotice c s = _
    have h1 : ¬ s.boot.step < 1 := by omega
    have hok' : (postNotice s 17 0xF2 (toLE 8 t0 ++ toLE 1 c ++ toLE 1 (Sparse.get Capture.reset s.pins.captures c).lost)).2 = some sOK := hok
    simp only [execCaptureNotice, hh]
    rw [if_neg (by simp [hb, h1]), if_neg (by rw [hok']; decide)]
  · exact congrArg Host.Outcome.next (if_pos ⟨ha, hd⟩)
  · intro a pg s1 hr hab
    have hsome : (i3c s bus).dyn.isNone = false := Option.isNone_eq_false_iff.mpr (Option.isSome_iff_ne_none.mpr hd)
    have h3 : leAt bs 0 4 / 2 ^ 26 = 0 := by omega
    have h4 : leAt bs 0 4 / 2 ^ 14 % 2 ^ 12 % 4 = 0 := by omega
    refine congrArg Host.Outcome.next ((if_neg ?_).trans ((if_pos hl).trans ?_))
    · rw [ha, hsome, h3, h4, hl]
      decide
    · have hsize : wellSized (leAt bs 0 4 / 2 ^ 14 % 2 ^ 12) (bs.drop 4).length = true := by
        simpa [wellSized, hl] using h2
      exact if_neg (by rw [hr, hab, hsize]; simp)
  · have hsome : (i3c s bus).dyn.isNone = false := Option.isNone_eq_false_iff.mpr (Option.isSome_iff_ne_none.mpr hd)
    refine congrArg Host.Outcome.next ((if_neg (by rw [ha, hsome]; nofun)).trans ?_)
    simp only [hr, hab, if_true, Bool.false_eq_true, if_false]

end Sys2Proof.Machine
end

section
/-!
Loads and stores of a stope: performed, collided, poisoned, denied or misaligned (R116, R137, R139, R143).
-/

namespace Sys2Proof.Machine

section
variable (s : State) (st : Fin 512) (d a b : Byte) (imm : W32) (bk : Nat) (busy : Bool)

/-- The word at the pc beside a port-B access is that of its opcode and fields. -/
theorem localAtPc_lds : localAtPc s bk st (wordOf 0x11 d a b imm) busy =
    issue s st 0x11 d a b imm (fun s => doLoad metIn false busy s st d a b imm) := by
  obtain ⟨hop, hd, ha, hb, himm⟩ := fld_wordOf 0x11 d a b imm (by decide)
  simp only [localAtPc, hop, hd, ha, hb, himm, BitVec.ofNat_toNat, BitVec.setWidth_eq]

theorem localAtPc_sts : localAtPc s bk st (wordOf 0x12 d a b imm) busy =
    issue s st 0x12 d a b imm (fun s => doStore metIn false busy s st d a b imm) := by
  obtain ⟨hop, hd, ha, hb, himm⟩ := fld_wordOf 0x12 d a b imm (by decide)
  simp only [localAtPc, hop, hd, ha, hb, himm, BitVec.ofNat_toNat, BitVec.setWidth_eq]

theorem localAtPc_vld (hbk : bk < 512) : localAtPc s bk st (wordOf 0x3D d a b imm) busy =
    issue s st 0x3D d a b imm (fun s => doLoad metIn true busy s st d a b imm) := by
  obtain ⟨hop, hd, ha, hb, himm⟩ := fld_wordOf 0x3D d a b imm (by decide)
  simp only [localAtPc, hop, hd, ha, hb, himm, hbk, if_true, BitVec.ofNat_toNat, BitVec.setWidth_eq]

theorem localAtPc_vst (hbk : bk < 512) : localAtPc s bk st (wordOf 0x3E d a b imm) busy =
    issue s st 0x3E d a b imm (fun s => doStore metIn true busy s st d a b imm) := by
  obtain ⟨hop, hd, ha, hb, himm⟩ := fld_wordOf 0x3E d a b imm (by decide)
  simp only [localAtPc, hop, hd, ha, hb, himm, hbk, if_true, BitVec.ofNat_toNat, BitVec.setWidth_eq]

end

section
variable {rep : Reporter} {vec busy : Bool} {s : State} {n : Nat} {d a b : Byte} {imm : W32}

theorem doLoad_of_misaligned (h : memAddr s n a imm % accAlign vec ≠ 0) : doLoad rep vec busy s n d a b imm = progFault s n cMISALIGN := if_pos h
theorem doStore_of_misaligned (h : memAddr s n a imm % accAlign vec ≠ 0) : doStore rep vec busy s n d a b imm = progFault s n cMISALIGN := if_pos h

variable (hal : memAddr s n a imm % accAlign vec = 0)
include hal

theorem doLoad_of_denied {c : Option Nat} (hg : portAGate s n (memAddr s n a imm) (accLen vec) false = .denied c) :
    doLoad rep vec busy s n d a b imm = denyLocal s n b c := by
  simp only [doLoad, hal, hg, ne_eq, not_true, if_false]

theorem doStore_of_denied {c : Option Nat} (hg : portAGate s n (memAddr s n a imm) (accLen vec) true = .denied c) :
    doStore rep vec busy s n d a b imm = denyLocal s n b c := by
  simp only [doStore, hal, hg, ne_eq, not_true, if_false]

/-- A vector access of which words have been performed goes on with those that are left (R137). -/
theorem doLoad_of_part {bk : Nat} (hg : portAGate s n (memAddr s n a imm) (accLen vec) false = .pass bk) (hv : vec = true)
    (hp : (stope s n).part ≠ none) :
    doLoad rep vec busy s n d a b imm = vecRest rep false n d b (memAddr s n a imm) vecWords (served s n bk) := by
  have hpart : (vec && (stope s n).part.isSome) = true := by rw [hv, Bool.true_and, Option.isSome_iff_ne_none]; exact hp
  simp only [doLoad, hal, hg, hpart, ne_eq, not_true, if_false, if_true]

theorem doStore_of_part {bk : Nat} (hg : portAGate s n (memAddr s n a imm) (accLen vec) true = .pass bk) (hv : vec = true)
    (hp : (stope s n).part ≠ none) :
    doStore rep vec busy s n d a b imm = vecRest rep true n d b (memAddr s n a imm) vecWords (served s n bk) := by
  have hpart : (vec && (stope s n).part.isSome) = true := by rw [hv, Bool.true_and, Option.isSome_iff_ne_none]; exact hp
  simp only [doStore, hal, hg, hpart, ne_eq, not_true, if_false, if_true]

/-- A load that its bank serves writes its destination, with 0 where it collided or met an error. -/
theorem doLoad_of_pass {bk : Nat} (hg : portAGate s n (memAddr s n a imm) (accLen vec) false = .pass bk)
    (hp : vec = true → (stope s n).part = none) :
    let ad := memAddr s n a imm
    let s1 := served s n bk
    let ends (bs : List Byte) (status : Nat) : State := statusTo (setStope s1 n (loadTo vec (stope s1 n) d bs)) n b status
    doLoad rep vec busy s n d a b imm = if busy then ends [] sCOLLIDED
      else if anyBad s ad (accLen vec) then rep (ends [] sPOISONED) ad (accLen vec) else ends (readMem s ad (accLen vec)) sOK := by
  have hpart : (vec && (stope s n).part.isSome) = false := by
    cases vec
    · rfl
    · simp [hp rfl]
  have hread : readMem (served s n bk) (memAddr s n a imm) (accLen vec) = readMem s (memAddr s n a imm) (accLen vec) := by
    unfold served; split <;> rfl
  simp only [doLoad, hal, hg, hpart, ne_eq, not_true, if_false, Bool.false_eq_true, load, anyBad_served, hread]
  by_cases hb : anyBad s (memAddr s n a imm) (accLen vec) = true <;> cases busy <;> simp [hb]

/-- A store that its bank serves writes its words but for those that hold an error, and says whether one did. -/
theorem doStore_of_pass {bk : Nat} (hg : portAGate s n (memAddr s n a imm) (accLen vec) true = .pass bk)
    (hp : vec = true → (stope s n).part = none) :
    let ad := memAddr s n a imm
    let r := store (served s n bk) ad (storeBytes vec (stope s n) d)
    doStore rep vec busy s n d a b imm = if r.2 then rep (statusTo r.1 n b sPOISONED) ad (accLen vec)
      else statusTo r.1 n b (if busy then sCOLLIDED else sOK) := by
  have hpart : (vec && (stope s n).part.isSome) = false := by
    cases vec
    · rfl
    · simp [hp rfl]
  simp only [doStore, hal, hg, hpart, ne_eq, not_true, if_false, Bool.false_eq_true]
  split <;> simp_all

end

/-- Settles O7: a load and a store by the equations of `doLoad` and `doStore`, each for both lengths. -/
theorem localAccesses : Obligations.LocalAccesses := by
  intro s st d a b imm hd ha hb n ad loaded cleared written stored judged
  have loads (vec : Bool) (i : Instr) (hi : exec i s = .next (doLoad metIn vec false s st d a b imm))
      (hl : ∀ bb, bb < 512 ∨ vec = false → localAtPc s bb st (wordOf (if vec then 0x3D else 0x11) d a b imm) true =
        doLoad metIn vec true s st d a b imm) : judged i vec false (loaded vec) := by
    have next {t : State} (h : doLoad metIn vec false s st d a b imm = t) : exec i s = .next t := hi.trans (congrArg _ h)
    refine ⟨fun hal => next (doLoad_of_misaligned hal), fun hal bk hg => ⟨fun hp => ⟨fun hbad => next ?_, fun _ hbad => next ?_, nofun, fun bb hbb => ?_⟩,
      fun hv hp => next (doLoad_of_part hal hg hv hp)⟩, fun hal c hg => next (doLoad_of_denied hal hg)⟩
    · exact (doLoad_of_pass hal hg hp).trans ((if_neg nofun).trans (if_neg (ne_true_of_eq_false hbad)))
    · exact (doLoad_of_pass hal hg hp).trans ((if_neg nofun).trans (if_pos hbad))
    · exact (hl bb hbb).trans ((doLoad_of_pass hal hg hp).trans (if_pos rfl))
  have stores (vec : Bool) (i : Instr) (hi : exec i s = .next (doStore metIn vec false s st d a b imm))
      (hl : ∀ bb, bb < 512 ∨ vec = false → localAtPc s bb st (wordOf (if vec then 0x3E else 0x12) d a b imm) true =
        doStore metIn vec true s st d a b imm) : judged i vec true (stored vec) := by
    have next {t : State} (h : doStore metIn vec false s st d a b imm = t) : exec i s = .next t := hi.trans (congrArg _ h)
    refine ⟨fun hal => next (doStore_of_misaligned hal), fun hal bk hg => ⟨fun hp => ⟨fun hbad => next ?_, nofun, fun _ hbad => next ?_, fun bb hbb => ?_⟩,
      fun hv hp => next (doStore_of_part hal hg hv hp)⟩, fun hal c hg => next (doStore_of_denied hal hg)⟩
    · exact (doStore_of_pass hal hg hp).trans (if_neg (ne_true_of_eq_false (store_ok_of_good s st d hal hg hbad)))
    · exact (doStore_of_pass hal hg hp).trans (if_pos hbad)
    · exact (hl bb hbb).trans (doStore_of_pass hal hg hp)
  have legal (op : Nat) (h : op = 0x11 ∨ op = 0x12 ∨ op = 0x3D ∨ op = 0x3E) : legalFields op d a b imm = true := by
    rcases h with rfl | rfl | rfl | rfl <;> simp [legalFields, inFile, hd, ha, hb]
  refine ⟨fun h => loads false _ ?_ fun bb _ => ?_, fun h => stores false _ ?_ fun bb _ => ?_, fun h => loads true _ ?_ fun bb hbb => ?_,
    fun h => stores true _ ?_ fun bb hbb => ?_⟩
  · exact congrArg _ (issue_of_atWord h (legal _ (by decide)))
  · exact (localAtPc_lds ..).trans (issue_of_atWord h (legal _ (by decide)))
  · exact congrArg _ (issue_of_atWord h (legal _ (by decide)))
  · exact (localAtPc_sts ..).trans (issue_of_atWord h (legal _ (by decide)))
  · exact congrArg _ (issue_of_atWord h (legal _ (by decide)))
  · exact (localAtPc_vld _ _ _ _ _ _ _ _ (by simpa using hbb)).trans (issue_of_atWord h (legal _ (by decide)))
  · exact congrArg _ (issue_of_atWord h (legal _ (by decide)))
  · exact (localAtPc_vst _ _ _ _ _ _ _ _ (by simpa using hbb)).trans (issue_of_atWord h (legal _ (by decide)))

end Sys2Proof.Machine
end

section
/-!
Asynchronous instructions accepted, and the commands of a hoist channel (R119, R195 to R197, R210, R214).
-/

namespace Sys2Proof.Machine

section
variable {s s1 : State} {st : Fin 512} {n : Nat} {d : Byte} {imm : W32} {k : Nat}

/-- An asynchronous instruction that does not stall is judged with the ticket it takes. -/
theorem withTicket_of_takes {remote : Bool} {judge : State → Nat → State} (hs : asyncStalls (stope s n) remote = false)
    (hk : TakesTicket (stope s n) d k) : withTicket s n d remote judge = judge s k := by
  refine (if_neg (ne_true_of_eq_false hs)).trans ?_
  rcases hk with ⟨hd, rfl⟩ | ⟨hd, hk⟩
  · exact if_pos hd
  · exact (if_neg hd).trans (by rw [hk])

/-- An accepted remote operation takes a ticket and one deadline, and starts (R119, R214). -/
theorem judgeRemote_of_accepted {r : Remote}
    (hok : remoteOk r.opc r.sub r.addr r.len = true) (hrt : stopeRights s st r = true) (hroot : r.opc = 5 → isRoot s (st / 256) (groupOf r.addr) = true)
    (hopen : stopeOpen s st = true) :
    let e := st.val / 256
    let dl := now s e + budgetOf s st imm
    let reads := if r.opc = 1 ∨ r.opc = 3 ∨ r.opc = 5 then r.len else 0
    let o := newOp s e s.nextOp (.stope st) (newMsg s e 0 st r.opc r.sub r.cls r.addr r.len dl r.bell r.data) r.buf reads
    windowOpen s e o = true →
    admitOp { s with nextOp := s.nextOp + 1 } e (.stope st) r.opc r.cls r.addr r.len (budgetOf s st imm) (budgetCap s st r.cls) false = some s1 →
    judgeRemote s st d imm r k =
      startOp (acceptAsync s1 st d k ⟨s.nextOp, k, dl, true, (remoteSpans s st r).1, (remoteSpans s st r).2⟩) e o reads := by
  intro e dl reads o hw ha
  have hst : Fin.ofNat 512 st.val = st := Fin.ofNat_val_eq_self st
  have hno : (!remoteOk r.opc r.sub r.addr r.len || !stopeRights s st r || (decide (r.opc = 5) && !isRoot s (st / 256) (groupOf r.addr))) = false := by
    rw [hok, hrt]
    by_cases h5 : r.opc = 5
    · simp [hroot h5]
    · simp [h5]
  have hopn : (!stopeOpen s st || !windowOpen s e o) = false := by rw [hopen, hw]; rfl
  refine (if_neg (ne_true_of_eq_false hno)).trans ?_
  dsimp only
  rw [hst]
  refine (if_neg (ne_true_of_eq_false hopn)).trans ?_
  simp only [freshOp, e, ha, o, reads, dl]

end

/-- Settles O13: the legal word acts, the operation takes its ticket and passes its judgement. -/
theorem remoteIssue : Obligations.RemoteIssue := by
  intro s s1 st d a b imm k n x e c accept
  have acts (w : Nat) (i : Instr) (opc sub bell len : Nat) (data : List Byte)
      (hi : exec i s = .next (remoteIns s st w d a b imm opc sub bell)) (hlen : len = if opc = 4 then 8 else c)
      (hdata : data = if opc = 4 then toLE 8 c else []) : accept w i opc sub bell len data := by
    unfold accept
    intro r budget m reads o hw hl hs hk hok hrt hroot hopen hwin ha
    refine hi.trans (congrArg Host.Outcome.next ((issue_of_atWord hw hl).trans ((withTicket_of_takes hs hk).trans ?_)))
    subst hlen hdata
    exact judgeRemote_of_accepted (r := r) hok hrt hroot hopen hwin ha
  exact ⟨acts 0x50 (.put st d a b imm) 1 0 0 c [] rfl rfl rfl, acts 0x51 (.get st d a b imm) 2 0 0 c [] rfl rfl rfl,
    acts 0x52 (.atom st d a b imm) 3 (immSub imm) 0 c [] rfl rfl rfl,
    acts 0x53 (.flag st d a b imm) 4 (immSub imm) (immBell imm) 8 (toLE 8 c) rfl rfl rfl,
    acts 0x54 (.mcast st d a b imm) 5 0 0 c [] rfl rfl rfl⟩

/-- Settles O14. -/
theorem longIssue : Obligations.LongIssue := by
  intro s st d a b imm k n x e addr budget legal fits
  have acts (op : Nat) (i : Instr) (kind : LongKind) (judge : State → Nat → Nat → State × Sum W32 Job)
      (select : State → Nat → Job → Nat → State × Bool) (hi : exec i s = .next (longIns s st op d a b imm kind judge select))
      (j : Job) (hl : legal op) (hf : fits j) (hj : judge s n addr = (s, .inr j)) :
      let c := select s n j (now s e + budget)
      let t := queueLong c.1 n d k (now s e + budget) kind addr c.2 j
      exec i s = .next (if c.2 then copyTile t st c.1.nextOp j.desc j.area (now s e + budget) else t) := by
    obtain ⟨hw, hlf, hs, hk, h0, h32⟩ := hl
    obtain ⟨hq, hgate, hrun⟩ := hf
    have hfit : ¬ (budget = 0 ∨ 2 ^ 32 ≤ budget ∨ now s e + budget < now s e + endsIn s n j.cycles) := by
      have : endsIn s n j.cycles ≤ budget := hrun
      have h32' : budget < 2 ^ 32 := h32
      have h0' : 0 < budget := h0
      have fit (x y z : Nat) (h1 : 0 < y) (h2 : y < 2 ^ 32) (h3 : z ≤ y) : ¬ (y = 0 ∨ 2 ^ 32 ≤ y ∨ x + y < x + z) := by omega
      exact fit _ _ _ h0' h32' this
    refine hi.trans (congrArg Host.Outcome.next ((issue_of_atWord hw hlf).trans ?_))
    refine (if_neg (Nat.not_le.mpr hq)).trans ((withTicket_of_takes hs hk).trans ?_)
    refine (if_neg (by rw [show longGate s st (immClass imm) = true from hgate]; nofun)).trans ?_
    dsimp only
    rw [show judge s st (areg s st a.toNat).toNat = (s, .inr j) from hj]
    exact if_neg hfit
  refine ⟨acts 0x20 (.face st d a b imm) .face judgeFace selectCanary rfl, acts 0x21 (.upd st d a b imm) .upd judgeUpd noCanary rfl,
    acts 0x22 (.quant st d a b imm) .quant judgeQuant noCanary rfl, ?_⟩
  intro hl sel c hsel hall href hopen
  obtain ⟨hw, hlf, hs, hk, -, -⟩ := hl
  refine congrArg Host.Outcome.next ((issue_of_atWord hw hlf).trans ((withTicket_of_takes hs hk).trans ?_))
  have h4 : sel / 32 % 4 = sel / 32 := by omega
  show judgeHoist s n d imm addr sel k = _
  unfold judgeHoist
  dsimp only
  rw [h4]
  refine (if_neg ?_).trans ((if_neg ?_).trans rfl)
  · rintro (h | h)
    · omega
    · exact absurd (hall.symm.trans h) nofun
  · rw [show launchRefused s (128 * (n / 256) + 4 * (sel % 32) + sel / 32) (immClass imm) (budgetOf s n imm) false = false from href, hopen]; nofun

/-- Settles O27. -/
theorem channelCommands : Obligations.ChannelCommands := by
  intro s w c hsafe pg cls dl budget addr
  refine ⟨fun hserv hready hall href => ?_, fun r hh hr he => ?_, fun hh => ?_⟩
  · have hdr : draining s (channelDie c) = false := by simp [draining, hserv]
    refine congrArg Host.Outcome.next (show channelLaunch s w c = _ from ?_)
    unfold channelLaunch
    dsimp only
    rw [if_neg (by rw [hsafe]; nofun), if_neg (by rw [hready]; nofun), if_neg (by rw [show launchAllowed _ _ _ _ _ = true from hall]; nofun)]
    simp only [hdr, Bool.false_and]
    exact (if_neg (by rw [show launchRefused _ _ _ _ false = false from href]; nofun)).trans rfl
  · refine congrArg Host.Outcome.next (show channelStop s w c = _ from ?_)
    refine (if_neg (ne_true_of_eq_false hsafe)).trans ((if_neg (Classical.not_not.mpr hh)).trans ?_)
    simp only [stopScript, hr, he, rDeadline]
    rfl
  · exact congrArg Host.Outcome.next ((if_neg (ne_true_of_eq_false hsafe)).trans (if_pos hh))

end Sys2Proof.Machine
end

section
/-!
Canaries (R337 to R339), and port B alone and beside port A (R139 to R144, R148, R153 to R155).
-/

namespace Sys2Proof.Machine

-- canaries ------------------------------------------------------------------------------------------------------------------------

/-- Settles O17: by the branches of the result's return and of the mismatch. -/
theorem canaries : Obligations.Canaries := by
  intro s st op o n pg
  refine ⟨fun h => ?_, fun k r errs e2 e3 h hr hf => ⟨fun hok hclip => ?_, ?_⟩⟩
  · refine congrArg Host.Outcome.next ?_
    rw [h]
    rfl
  · refine congrArg Host.Outcome.next ?_
    dsimp only
    rw [h]
    dsimp only
    rw [hr]
    exact (if_neg (ne_true_of_eq_false hf)).trans (if_pos ⟨hok, hclip⟩)
  · intro hst fb there copy theirs theirAgain own back sent differs ev ends hp
    have hpass : canaryPass s st copy there fb errs e3 = (s, some theirs.outs) := if_pos (by rw [show (facePass s st copy there fb errs).fails = false from hp]; rfl)
    have hend : ends (if theirs.outs = r.outs then sent else resolveCanary sent st o r theirs.outs own theirAgain) := by
      refine congrArg Host.Outcome.next ?_
      dsimp only
      rw [h]
      dsimp only
      split
      next r' hr' =>
        obtain rfl : r = r' := Option.some.inj (hr.symm.trans hr')
        refine (if_neg (ne_true_of_eq_false hf)).trans ((if_neg fun hn => hst.elim hn.1 hn.2).trans ?_)
        rw [show canaryPass s st { o with scales := _ } _ _ errs e3 = (s, some theirs.outs) from hpass]
      next hr' => exact absurd (hr.symm.trans hr') nofun
    have hdiff (hne : theirs.outs ≠ r.outs) : ends (resolveCanary sent st o r theirs.outs own theirAgain) := hend.trans (congrArg _ (if_neg hne))
    refine ⟨fun he => hend.trans (congrArg _ (if_pos he)), fun hne hown => ⟨fun he => ?_, fun he hagain => ?_, fun h1 h2 => ?_⟩⟩
    · exact (hdiff hne).trans (congrArg _ ((if_neg (ne_true_of_eq_false hown)).trans (if_pos he)))
    · refine (hdiff hne).trans (congrArg _ ((if_neg (ne_true_of_eq_false hown)).trans ((if_neg (fun h => hne (h.symm.trans he))).trans
        ((if_pos he).trans ?_))))
      rw [hagain, Bool.false_or]
      exact congrArg (report · _) (if_neg nofun)
    · exact (hdiff hne).trans (congrArg _ ((if_neg (ne_true_of_eq_false hown)).trans ((if_neg h1).trans (if_neg h2))))

-- port B -------------------------------------------------------------------------------------------------------------------------

/-- What follows a performed word: the doorbell of a FLAG that is complete, and the access leaves or stays. -/
def wordEnds (b : Nat) (r : State × Access) : State := afterWordB (if r.2.len ≤ r.2.done then ringFor r.1 r.2 else r.1) b r.2

/-- An access at the head of its bank's queue that is neither dropped nor denied. -/
structure Presented (s : State) (b : Nat) (x : Access) : Prop where
  head : edfHead (bank s b).queue = some x
  mode : (bank s b).toMode = none
  inTime : now s (aDie x.addr) < x.deadline ∨ hasBegun s x = true
  outside : x.done = 0 → x.by_.ty ≠ btAssay → inCanaryArea s b x.addr x.len = false
  allowed : x.done = 0 → x.kind ≠ .read → exclDenies s x.by_ x.entered x.addr x.len = false

section
variable {s : State} {b : Fin 544} {x : Access} {sel : AccKind → Bool}

/-- Port B with the access that is presented: how it shares the cycle decides. -/
theorem portBCycle_of_presented (h : Presented s b x) (hsel : sel x.kind = true) (pas : List PortA) :
    let served := portAServes s b pas
    let u := served.map (fun p => p.2)
    let pa := (served.map (fun p => p.1)).getD (.poll 0)
    portBCycle s b ⟨pas, false⟩ sel = match shareOf s x u with
      | .stallB => bump (portAAct s b pa false) (pgBank b) CONFLICT 1
      | .meet => wordEnds b (performMeet s b x pa (u.getD ⟨0, 0, false⟩))
      | .apart => wordEnds b (performWord (portAAct s b pa false) b x none)
      | .stallA => wordEnds b (performWord (stallPortA s pa) b x none)
      | .alone => wordEnds b (performWord s b x none) := by
  obtain ⟨hhead, hmode, htime, hout, hall⟩ := h
  intro served u pa
  unfold portBCycle
  rw [hhead]
  refine (if_neg (by simp [hmode, hsel])).trans ((if_neg ?_).trans ((if_neg ?_).trans ((if_neg ?_).trans rfl)))
  · rintro ⟨hle, hb⟩
    rcases htime with hlt | hb'
    · exact absurd hle (Nat.not_le.mpr hlt)
    · exact absurd (hb'.symm.trans hb) nofun
  · rintro ⟨h0, hty, ha⟩
    exact absurd ((hout h0 hty).symm.trans ha) nofun
  · rintro ⟨h0, hd⟩
    by_cases hr : x.kind = .read
    · rw [hr] at hd; exact absurd hd nofun
    · have := hall h0 hr
      split at hd <;> simp_all

/-- With no port-A access the word is performed. -/
theorem portBCycle_of_alone (h : Presented s b x) (hsel : sel x.kind = true) :
    portBCycle s b ⟨[], false⟩ sel = wordEnds b (performWord s b x none) :=
  portBCycle_of_presented h hsel []

end

/-- A cycle of the bank for port B's access `x` and port A's `pa`, by how they share it (R141 to R144). -/
def sharing (s : State) (b : Fin 544) (x : Access) (pa : PortA) (u : PortAUse) : Share → State
  | .stallB => bump (portAAct s b pa false) (pgBank b) CONFLICT 1
  | .meet => wordEnds b (performMeet s b x pa u)
  | .apart => wordEnds b (performWord (portAAct s b pa false) b x none)
  | .stallA => wordEnds b (performWord (stallPortA s pa) b x none)
  | .alone => wordEnds b (performWord s b x none)

section
variable {s : State} {b : Fin 544} {x : Access} {sel : AccKind → Bool} {pa : PortA} {u : PortAUse}

theorem portBCycle_of_use (h : Presented s b x) (hsel : sel x.kind = true) (hu : portAUse s b pa = some u) :
    portBCycle s b ⟨[pa], false⟩ sel = sharing s b x pa u (shareOf s x (some u)) := by
  have hs : portAServes s b [pa] = some (pa, u) := by simp [portAServes, hu]
  have := portBCycle_of_presented h hsel [pa]
  rw [hs] at this
  refine this.trans ?_
  simp only [Option.map_some, Option.getD_some]
  cases shareOf s x (some u) <;> rfl

/-- Beside a port-A write, a port-B write comes second, and the meeting counts one; beside a read it comes second too. -/
theorem performMeet_of_writes (hk : x.kind ≠ .read) (hw : u.write = true) : performMeet s b x pa u =
    performWord (portAAct (bump s (pgBank b) B_COLL 1) b pa (reReadsAlways pa)) b x (some u) := by
  have hne : (x.kind != .read) = true := bne_iff_ne.mpr hk
  simp only [performMeet, hne, hw, Bool.and_true, marksGiven, portABusy, Bool.not_true, Bool.and_false]
  cases hx : x.kind with
  | read => exact absurd hx hk
  | write => rfl
  | atomic _ => rfl
  | flagSet _ => rfl
  | flagAdd _ => rfl

theorem performMeet_of_write_beside_read (hk : x.kind ≠ .read) (hw : u.write = false) : performMeet s b x pa u =
    performWord (portAAct (bump s (pgBank b) B_COLL (if normalMode s b then 2 else 0)) b pa (normalMode s b || reReadsAlways pa)) b x (some u) := by
  have hne : (x.kind != .read) = true := bne_iff_ne.mpr hk
  simp only [performMeet, hne, hw, Bool.and_true, marksGiven, portABusy, Bool.not_false, Bool.false_eq_true, if_false]

end

/-- The command that presents an access of a kind. -/
def presents (b : Fin 544) : AccKind → Option (BankCycle → Instr)
  | .read | .write => some (.bankPortBAccess b)
  | .atomic k => [Instr.iadd32 b, .iadd64 b, .fadd32 b, .fadd16 b, .swap b, .cas b][k]?
  | .flagSet _ => some (.flagSet b)
  | .flagAdd _ => some (.flagAdd b)

/-- The command that presents an access of a kind is a cycle of port B for that kind. -/
theorem exec_of_presents {b : Fin 544} {k : AccKind} {i : BankCycle → Instr} (h : presents b k = some i) :
    ∃ sel : AccKind → Bool, sel k = true ∧ ∀ cyc s, exec (i cyc) s = .next (portBCycle s b cyc sel) := by
  cases k with
  | read => cases h; exact ⟨_, rfl, fun _ _ => rfl⟩
  | write => cases h; exact ⟨_, rfl, fun _ _ => rfl⟩
  | flagSet bell => cases h; exact ⟨_, rfl, fun _ _ => rfl⟩
  | flagAdd bell => cases h; exact ⟨_, rfl, fun _ _ => rfl⟩
  | atomic sub =>
    match sub, h with
    | 0, h => cases h; exact ⟨_, rfl, fun _ _ => rfl⟩
    | 1, h => cases h; exact ⟨_, rfl, fun _ _ => rfl⟩
    | 2, h => cases h; exact ⟨_, rfl, fun _ _ => rfl⟩
    | 3, h => cases h; exact ⟨_, rfl, fun _ _ => rfl⟩
    | 4, h => cases h; exact ⟨_, rfl, fun _ _ => rfl⟩
    | 5, h => cases h; exact ⟨_, rfl, fun _ _ => rfl⟩
    | _ + 6, h => exact absurd h nofun

-- the word -----------------------------------------------------------------------------------------------------------------------

section
variable {s : State} {b : Nat} {x : Access} {a : Option PortAUse}

theorem writePiece_ok_of_good {w : Nat} {bs : List Byte} (h : isBad s w = false) : (writePiece s w bs).2 = false := by
  simp [writePiece, h, apply_ite Prod.snd]

/-- A read of a good word takes its bytes, or, where it is made for an operation and meets a write, is made again. -/
theorem performWord_of_read (hk : x.kind = .read) (hg : isBad s (x.addr + x.done) = false) :
    let hit := normalMode s b && (match a with
      | some u => u.write
      | none => false)
    performWord s b x a = (markBegun s x,
      if hit && (match x.client with
        | .source _ _ | .canary _ _ _ => true
        | _ => false) then x
      else { x with done := x.done + wordLen x, coll := x.coll || hit, got := x.got ++ readMem s (x.addr + x.done) (wordLen x) }) := by
  cases a with
  | none =>
    simp only [performWord, hk, hg, Bool.and_false, Bool.false_and, Bool.or_false, Bool.false_eq_true, if_false]
    cases x.client <;> rfl
  | some u =>
    simp only [performWord, hk, hg, Bool.or_false, Bool.false_eq_true, if_false]
    cases normalMode s b && u.write <;> cases x.client <;> rfl

/-- A write of a good word puts its own bytes. -/
theorem performWord_of_write (hk : x.kind = .write) (hg : isBad s (x.addr + x.done) = false) :
    performWord s b x a = (markBegun (writePiece s (x.addr + x.done) (sliceB x.data x.done (wordLen x))).1 x,
      { x with done := x.done + wordLen x, coll := x.coll || (match a with
        | some u => u.write || normalMode s b
        | none => false) }) := by
  cases a <;> simp only [performWord, hk, writePiece_ok_of_good hg, Bool.or_false, Bool.false_eq_true, if_false]

/-- An atomic replaces each element of a good word by its result and returns the old ones. -/
theorem performWord_of_atomic {sub : Nat} (hk : accSub x.kind = some sub) (hg : isBad s (x.addr + x.done) = false) :
    let old := readMem s (x.addr + x.done) (wordLen x)
    performWord s b x a = (writeMem (markBegun s x) (x.addr + x.done)
        (atomBytes sub old (sliceB x.data x.done (wordLen x)) (leAt x.data 8 8)),
      { x with done := x.done + wordLen x, got := x.got ++ old ++ (if sub = 5 then sliceB x.data 8 8 else []) }) := by
  intro old
  cases hx : x.kind <;> rw [hx] at hk <;> cases hk <;>
    simp only [performWord, hx, hg, accSub, Option.getD_some, Bool.false_eq_true, if_false, old] <;> rfl

theorem length_readMem (s : State) (w n : Nat) : (readMem s w n).length = n := by
  simp [readMem]

end

/-- The result of an atomic whose element has `k` bytes. -/
theorem atomBytes_eq {sub k : Nat} {f : Nat → Nat → Nat} (s : State) (w n : Nat) (arg : List Byte) (c : Nat) (hk : atomElem sub = k)
    (hf : ∀ p q, atomOp sub p q c = f p q) :
    let old := readMem s w n
    atomBytes sub old arg c = (List.range (n / k)).flatMap (fun e => toLE k (f (leAt old (k * e) k) (leAt arg (k * e) k))) := by
  simp only [atomBytes, hk, hf, length_readMem]

section
variable {s : State} {b : Fin 544} {x : Access} {i : BankCycle → Instr}

/-- The access that is presented alone has its word performed. -/
theorem exec_of_alone (h : Presented s b x) (hi : presents b x.kind = some i) :
    exec (i ⟨[], false⟩) s = .next (wordEnds b (performWord s b x none)) := by
  obtain ⟨sel, hsel, hexec⟩ := exec_of_presents hi
  exact (hexec _ s).trans (congrArg _ (portBCycle_of_alone h hsel))

/-- An atomic other than CAS, alone: each element is replaced and the old ones are returned. -/
theorem exec_of_atomic {sub k : Nat} {f : Nat → Nat → Nat} (h : Presented s b x) (hi : presents b x.kind = some i)
    (hg : isBad s (x.addr + x.done) = false) (hs : accSub x.kind = some sub) (h5 : sub ≠ 5) (hk : atomElem sub = k)
    (hf : ∀ p q, atomOp sub p q (leAt x.data 8 8) = f p q) :
    let w := x.addr + x.done
    let n := wordLen x
    let old := readMem s w n
    let arg := sliceB x.data x.done n
    exec (i ⟨[], false⟩) s = .next (wordEnds b
      (writeMem (markBegun s x) w ((List.range (n / k)).flatMap (fun e => toLE k (f (leAt old (k * e) k) (leAt arg (k * e) k)))),
        { x with done := x.done + n, got := x.got ++ old })) := by
  intro w n old arg
  rw [exec_of_alone h hi, performWord_of_atomic hs hg, if_neg h5, List.append_nil, atomBytes_eq s _ _ _ _ hk hf]

/-- The access that meets port A's. -/
theorem exec_of_meeting {pa : PortA} {u : PortAUse} (h : Presented s b x) (hi : presents b x.kind = some i) (hu : portAUse s b pa = some u)
    (hm : meets (x.addr + x.done) (wordLen x) u = true) :
    exec (i ⟨[pa], false⟩) s = .next (wordEnds b (performMeet s b x pa u)) := by
  obtain ⟨sel, hsel, hexec⟩ := exec_of_presents hi
  exact (hexec _ s).trans (congrArg _ ((portBCycle_of_use h hsel hu).trans (congrArg _ (if_pos hm))))

end

/-- Settles O20: alone by the equations of `performWord`, beside port A by how the cycle is shared. -/
theorem portB : Obligations.PortB := by
  intro s b x hhead hmode htime hout hall w n old arg after
  have hp : Presented s b x := ⟨hhead, hmode, htime, hout, hall⟩
  refine ⟨?_, ?_⟩
  · intro hg on atom
    have element (i : BankCycle → Instr) (sub k : Nat) (f : Nat → Nat → Nat) (hi : presents b x.kind = some i) (hs : accSub x.kind = some sub)
        (h5 : sub ≠ 5) (hk : atomElem sub = k) (hf : ∀ p q, atomOp sub p q (leAt x.data 8 8) = f p q) : atom i k f :=
      exec_of_atomic hp hi hg hs h5 hk hf
    refine ⟨fun hk => ?_, fun hk => ?_, fun hk => ?_, fun hk => ?_, fun hk => ?_, fun hk => ?_, fun hk => ?_, fun bell hk => ?_, fun bell hk => ?_,
      fun hk => ?_⟩
    · refine (exec_of_alone hp (by rw [hk]; rfl)).trans (congrArg (fun r => Host.Outcome.next (wordEnds b r)) ((performWord_of_read hk hg).trans ?_))
      simp only [Bool.and_false, Bool.false_and, Bool.or_false, Bool.false_eq_true, if_false]
      rfl
    · refine (exec_of_alone hp (by rw [hk]; rfl)).trans (congrArg (fun r => Host.Outcome.next (wordEnds b r)) ((performWord_of_write hk hg).trans ?_))
      simp only [Bool.or_false]
      rfl
    · exact element (.iadd32 b) 0 4 (fun p q => (p + q) % 2 ^ 32) (by rw [hk]; rfl) (by rw [hk]; rfl) (by decide) rfl (fun _ _ => by simp only [atomOp])
    · exact element (.iadd64 b) 1 8 (fun p q => (p + q) % 2 ^ 64) (by rw [hk]; rfl) (by rw [hk]; rfl) (by decide) rfl (fun _ _ => by simp only [atomOp])
    · exact element (.fadd32 b) 2 4 (fpAdd fp32) (by rw [hk]; rfl) (by rw [hk]; rfl) (by decide) rfl (fun _ _ => by simp only [atomOp])
    · exact element (.fadd16 b) 3 2 (fpAdd bf16) (by rw [hk]; rfl) (by rw [hk]; rfl) (by decide) rfl (fun _ _ => by simp only [atomOp])
    · exact element (.swap b) 4 8 (fun _ q => q) (by rw [hk]; rfl) (by rw [hk]; rfl) (by decide) rfl (fun _ _ => by simp only [atomOp])
    · exact element (.flagSet b) 4 8 (fun _ q => q) (by rw [hk]; rfl) (by rw [hk]; rfl) (by decide) rfl (fun _ _ => by simp only [atomOp])
    · exact element (.flagAdd b) 1 8 (fun p q => (p + q) % 2 ^ 64) (by rw [hk]; rfl) (by rw [hk]; rfl) (by decide) rfl (fun _ _ => by simp only [atomOp])
    · refine (exec_of_alone (i := .cas b) hp (by rw [hk]; rfl)).trans (congrArg (fun r => Host.Outcome.next (wordEnds b r)) ((performWord_of_atomic (by rw [hk]; rfl) hg).trans ?_))
      rw [atomBytes_eq s _ _ _ _ rfl (fun _ _ => rfl), if_pos rfl]
      rfl
  · intro i pa u hu hi gives normal due count
    have hi' : presents b x.kind = some i := by
      cases hx : x.kind <;> rw [hx] at hi <;> exact hi
    obtain ⟨sel, hsel, hexec⟩ := exec_of_presents hi'
    have shared {sh : Share} (hsh : shareOf s x (some u) = sh) : gives (sharing s b x pa u sh) :=
      (hexec _ s).trans (congrArg _ ((portBCycle_of_use hp hsel hu).trans (congrArg _ hsh)))
    have meeting (hm : meets w n u = true) {t : State} (h : wordEnds b (performMeet s b x pa u) = t) : gives t :=
      (exec_of_meeting hp hi' hu hm).trans (congrArg _ h)
    refine ⟨fun hm hs => ⟨fun hd => ?_, fun hd => ?_⟩, fun hm hs => ?_, fun hm hk hw => meeting hm ?_, fun hm hk hw => meeting hm ?_,
      fun hm hk hw => meeting hm ?_, fun hm hk hw => meeting hm ?_, ?_⟩
    · exact shared ((if_neg (ne_true_of_eq_false hm)).trans ((if_pos hs).trans (if_neg hd)))
    · exact shared ((if_neg (ne_true_of_eq_false hm)).trans ((if_pos hs).trans (if_pos hd)))
    · exact shared ((if_neg (ne_true_of_eq_false hm)).trans (if_neg (ne_true_of_eq_false hs)))
    · simp only [performMeet, marksGiven, portABusy, hk, hw, bne_self_eq_false, Bool.and_false, Bool.or_false, Bool.and_true, Bool.not_true, Bool.false_eq_true,
        if_false]
      rfl
    · simp only [performMeet, marksGiven, portABusy, hk, hw, bne_self_eq_false, Bool.and_false, Bool.or_false, Bool.false_and, Bool.false_eq_true, if_false]
      rfl
    · rw [performMeet_of_writes hk hw]
      rfl
    · rw [performMeet_of_write_beside_read hk hw]
      rfl
    · intro t hg marked
      exact ⟨fun hk => performWord_of_read hk hg, fun hk => performWord_of_write hk hg⟩

end Sys2Proof.Machine
end

section
/-!
Stacks: accesses, remaps, refresh, heat and zeroing (R158 to R169, R380).
-/

namespace Sys2Proof.Machine

-- what the ECC meets --------------------------------------------------------------------------------------------------------------

@[simp] theorem correctedAt_mem (s : State) (k w : Nat) : (correctedAt s k w).mem = s.mem := rfl

@[simp] theorem markBad_mem (s : State) (a : Nat) : (markBad s a).mem = s.mem := by
  unfold markBad
  split <;> rfl

@[simp] theorem meetErrors_mem (s : State) (k : Nat) (x : Access) (errs : List SectorErr) : (meetErrors s k x errs).mem = s.mem := by
  unfold meetErrors
  induction errs generalizing s with
  | nil => rfl
  | cons e errs ih =>
    refine (ih _).trans ?_
    dsimp only
    split
    · split <;> simp
    · rfl

/-- Bytes are read from memory alone. -/
theorem readMem_of_mem_eq {s t : State} (h : t.mem = s.mem) (a n : Nat) : readMem t a n = readMem s a n := by
  simp only [readMem, readByte, h]

section
variable {s : State} {x : Access}

/-- A request with no error in its sectors is performed whole. -/
theorem stackPerform_of_good (hbad : (sectorsOf x).filter (fun q => isBad s q && readsSector x q) = []) (hl : regionListed s x = false) :
    (x.kind = .read → stackPerform s x = (s, ⟨readMem s x.addr x.len, false, false, false, 0, false⟩)) ∧
    (x.kind = .write → stackPerform s x = ((store s x.addr x.data).1, ⟨[], false, false, false, 0, false⟩)) := by
  constructor <;> intro hk <;> simp [stackPerform, hbad, hl, hk]

/-- A read that meets one, or whose region is listed, answers POISONED. -/
theorem stackPerform_of_bad (h : (sectorsOf x).filter (fun q => isBad s q && readsSector x q) ≠ [] ∨ regionListed s x = true) (hk : x.kind = .read) :
    stackPerform s x = (((sectorsOf x).filter (fun q => isBad s q && readsSector x q)).foldl metError s, ⟨[], false, true, false, 0, false⟩) := by
  have hp : (decide ((sectorsOf x).filter (fun q => isBad s q && readsSector x q) ≠ []) || regionListed s x) = true := by
    rcases h with h | h
    · rw [decide_eq_true h]; rfl
    · rw [h, Bool.or_true]
  simp only [stackPerform, hp, hk, if_true]

end

-- what waits for an access -----------------------------------------------------------------------------------------------------------

/-- What an access that ends whole gives its operation at the home. -/
def HomeOp.gets (h : HomeOp) (off : Nat) (data : List Byte) : List Byte := if data = [] then h.data else spliceB h.data off data

section
variable {t : State} {a : Access} {data : List Byte} {d id off : Nat} {h : HomeOp}

/-- A piece of an operation at its home that ends whole: the others are waited for, or the operation ends. -/
theorem accessDone_of_home (hc : a.client = .home d id off) (hf : (layer t d).homes.find? (fun h => h.id = id) = some h) :
    let h1 := { h with left := h.left - 1, data := h.gets off data }
    accessDone t a ⟨data, false, false, false, 0, false⟩ = if h.left - 1 = 0 then homeFinish serveHeld t d h1
      else setLayer t d { layer t d with homes := (layer t d).homes.map (fun y => if y.id = id then h1 else y) } := by
  have hr : (if h.reason = 0 then 0 else h.reason) = h.reason := by
    split
    next h0 => exact h0.symm
    next => rfl
  simp only [accessDone, hc, homePiece, hf, Bool.or_false, hr, HomeOp.gets]

theorem HomeOp.status_of_good (h1 : h.denied = false) (h2 : h.poison = false) (h3 : h.reason = 0) (h4 : h.coll = false) : h.status = sOK := by
  simp [HomeOp.status, h1, h2, h3, h4]

variable {serve : State → Nat → Nat → State} {g : HomeOp}

/-- An operation that ends OK at its home answers with its data. -/
theorem homeFinish_remote_of_good (hfor : g.for_ = .remote) (hst : g.status = sOK) (hl : g.late = false) :
    let t1 := setLayer t d { layer t d with homes := (layer t d).homes.filter (fun y => y.id ≠ g.id) }
    homeFinish serve t d g = afterWrite serve (homeComp t1 d g.msg sOK 0 (if g.msg.opc = 2 ∨ g.msg.opc = 3 then g.data else [])) d g.msg := by
  simp only [homeFinish, hfor, hst, hl, Bool.false_eq_true, if_false, true_and]
  rfl

theorem homeFinish_hoist_of_good {c op : Nat} (hfor : g.for_ = .hoist c op) (hst : g.status = sOK) (hl : g.late = false) :
    let t1 := setLayer t d { layer t d with homes := (layer t d).homes.filter (fun y => y.id ≠ g.id) }
    homeFinish serve t d g = afterWrite serve (innerDone t1 c op sOK 0 (if g.msg.opc = 2 then g.data else [])) d g.msg := by
  simp only [homeFinish, hfor, hst, hl, Bool.false_eq_true, if_false, true_and]
  rfl

theorem homeFinish_image_of_good {n tag : Nat} (hfor : g.for_ = .image n tag) (hst : g.status = sOK) (hl : g.late = false) :
    homeFinish serve t d g = imageRead (setLayer t d { layer t d with homes := (layer t d).homes.filter (fun y => y.id ≠ g.id) }) n tag true g.data := by
  simp only [homeFinish, hfor, hst, hl, decide_true, Bool.not_false, Bool.and_true]

end

/-- What an access that ends whole does for its client. -/
theorem stacks_answer (t : State) (a : Access) (data : List Byte) :
    let answer (t' : State) : Prop := accessDone t a ⟨data, false, false, false, 0, false⟩ = t'
    (a.client = .none → answer t) ∧
    (∀ d op o, a.client = .source d op → findOp t d op = some o →
      answer (flush (putOp t d { o with phase := .ready, msg := { o.msg with data := data } }) d)) ∧
    (∀ d op o st rs, a.client = .writeBack d op → findOp t d op = some o → o.phase = .back st rs → answer (finishOp t d o st rs [] false)) ∧
    (∀ d id off h, a.client = .home d id off → (layer t d).homes.find? (fun h => h.id = id) = some h →
      let got := if data = [] then h.data else spliceB h.data off data
      (2 ≤ h.left → answer (setLayer t d { layer t d with
        homes := (layer t d).homes.map (fun y => if y.id = id then { h with left := h.left - 1, data := got } else y) })) ∧
      (h.left = 1 → h.late = false → h.denied = false → h.poison = false → h.reason = 0 → h.coll = false →
        let t1 := setLayer t d { layer t d with homes := (layer t d).homes.filter (fun y => y.id ≠ h.id) }
        (h.for_ = .remote → answer (afterWrite serveHeld (homeComp t1 d h.msg sOK 0 (if h.msg.opc = 2 ∨ h.msg.opc = 3 then got else [])) d h.msg)) ∧
        (∀ c op, h.for_ = .hoist c op →
          answer (afterWrite serveHeld (innerDone t1 c op sOK 0 (if h.msg.opc = 2 then got else [])) d h.msg)) ∧
        (∀ cached lease, h.for_ = .fill cached lease → answer (fillDone t1 d { h with left := 0, data := got } cached lease)) ∧
        (∀ n tag, h.for_ = .image n tag → answer (imageRead t1 n tag true got)))) := by
  intro answer
  refine ⟨fun hc => ?_, fun d op o hc hf => ?_, fun d op o st rs hc hf hp => ?_, ?_⟩
  · simp only [answer, accessDone, hc]
  · simp only [answer, accessDone, hc, hf, Bool.false_eq_true, if_false]
  · simp only [answer, accessDone, hc, backDone, hf, hp, Bool.false_eq_true, false_and, if_false]
  · intro d id off h hc hf got
    have hend := accessDone_of_home (data := data) hc hf
    refine ⟨fun hleft => hend.trans (if_neg (by omega)), ?_⟩
    intro hleft hlate hden hpoi hres hcol t1
    have hst : HomeOp.status { h with left := h.left - 1, data := h.gets off data } = sOK := HomeOp.status_of_good hden hpoi hres hcol
    have hfin : answer (homeFinish serveHeld t d { h with left := h.left - 1, data := h.gets off data }) := hend.trans (if_pos (by omega))
    refine ⟨fun hfor => hfin.trans ?_, fun c op hfor => hfin.trans ?_, fun cached lease hfor => hfin.trans ?_, fun n tag hfor => hfin.trans ?_⟩
    · exact homeFinish_remote_of_good hfor hst hlate
    · exact homeFinish_hoist_of_good hfor hst hlate
    · simp only [homeFinish, hfor, hleft]
      rfl
    · exact homeFinish_image_of_good hfor hst hlate

/-- Settles O24: each event by its branches. -/
theorem stacks_holds : Obligations.Stacks := by
  intro s k e x pg seen
  refine ⟨?_, stacks_answer, ?_, fun hc hd hs => ?_, fun h => ?_, ?_, fun w hs hp hu hd hh ht => ?_, fun hd ho => ?_⟩
  · intro a errs ha s1 begun u bad gives
    have hgives : gives (if a.deadline ≤ now s e ∧ homeBegun s a = false then accessDone s1 a ⟨[], false, false, false, 0, true⟩
        else accessDone (stackPerform u a).1 a (stackPerform u a).2) := by
      refine congrArg Host.Outcome.next ?_
      dsimp only
      rw [show stackTakes (stack s k) (now s (k.val / 4)) (Config.takesAhead s.free) = some a from ha]
      rfl
    have performs (ht : now s e < a.deadline ∨ homeBegun s a = true) {r : State × Piece} (hr : stackPerform u a = r) : gives (accessDone r.1 a r.2) := by
      refine hgives.trans (congrArg _ ((if_neg ?_).trans (by rw [hr])))
      rintro ⟨hle, hb⟩
      rcases ht with hlt | hb'
      · exact absurd hle (Nat.not_le.mpr hlt)
      · exact absurd (hb'.symm.trans hb) nofun
    have hmem : u.mem = s.mem := by
      refine (meetErrors_mem _ _ _ _).trans ?_
      unfold begun
      split <;> rfl
    refine ⟨fun hle hb => hgives.trans (congrArg _ (if_pos ⟨hle, hb⟩)), fun ht => ⟨fun hbad hl => ⟨fun hk => ?_, fun hk => ?_⟩, fun hbad hk => ?_⟩⟩
    · rw [← readMem_of_mem_eq hmem]
      exact performs ht ((stackPerform_of_good hbad hl).1 hk)
    · exact performs ht ((stackPerform_of_good hbad hl).2 hk)
    · exact performs ht (stackPerform_of_bad hbad hk)
  · intro g rest hg left spare s1 h s2
    refine congrArg Host.Outcome.next ?_
    dsimp only
    rw [show (stack s k).remapping = g :: rest from hg]
    simp only [decide_eq_true_eq]
    rfl
  · refine congrArg Host.Outcome.next (if_neg ?_)
    rintro (h | h | h)
    · exact absurd (hc.symm.trans h) nofun
    · exact h hd
    · exact absurd (hs.symm.trans h) nofun
  · exact congrArg Host.Outcome.next (if_pos h)
  · intro c hd s1 held gives
    have sample {t : State} (h : (if isSafe s (k.val / 4) then s1 else match x.thermal with
        | 0 => if c.toNat < 85 then s1 else if c.toNat < 105 then stackHotEntry s1 k c.toNat else stackCriticalEntry (stackHotEntry s1 k c.toNat) k
        | 1 =>
          if 105 ≤ c.toNat then stackCriticalEntry s1 k
          else if heldFor (seen c.toNat).le80 (elapsed s) 1000000 then setThrottle (setStack s1 k { seen c.toNat with thermal := 0 }) k 0 0
          else if 95 ≤ c.toNat then setThrottle s1 k 2 2
          else if heldFor (seen c.toNat).lt95 (elapsed s) 1000000 then setThrottle s1 k 1 2
          else s1
        | _ => s1) = t) : gives t :=
      congrArg Host.Outcome.next ((if_neg (Classical.not_not.mpr hd)).trans h)
    refine ⟨fun h => sample ?_, fun hs h0 => sample ?_, fun hs h1 => sample ?_⟩
    · by_cases hs : isSafe s (k.val / 4) = true
      · exact if_pos hs
      · refine (if_neg hs).trans ?_
        have h2 : 2 ≤ x.thermal := h.resolve_left hs
        split
        next h0 => omega
        next h1 => omega
        next => rfl
    · rw [if_neg (by rw [show isSafe s (k.val / 4) = false from hs]; nofun), h0]
      rfl
    · rw [if_neg (by rw [show isSafe s (k.val / 4) = false from hs]; nofun), h1]
      rfl
  · refine congrArg Host.Outcome.next (show stackResume s w k = _ from ?_)
    have hgo : (!isParent s w (pgStack k) || decide (domain s (domStack k) ≠ 2) || !heldFor (stack s k).le95 (elapsed s) 10000000) = false := by
      simp [show isParent s w (pgStack k) = true from hp, hd, show heldFor (stack s k).le95 (elapsed s) 10000000 = true from hh]
    unfold stackResume
    dsimp only
    rw [if_neg (by rw [show isSafe s (k.val / 4) = false from hs]; nofun), if_neg (by rw [hgo]; nofun), ranked_unrivalled _ _ _ _ _ _ hu,
      if_neg (Classical.not_not.mpr ht)]
  · exact congrArg Host.Outcome.next (if_pos ⟨hd, ho⟩)

end Sys2Proof.Machine
end

section
/-!
Hoist descriptors as they issue, and the events of a running script (R194, R199 to R210).
-/

namespace Sys2Proof.Machine

section
variable {s t : State} {c : Fin 256} {r q : Script} {d : HDesc}

/-- A channel whose script is ready, in its turn, issues the descriptor that has been read under the command of its operation. -/
theorem issueDesc_of_read {op : Nat} {f : State → Script → HDesc → State} (hr : (channel s c).run = some r) (he : r.ended = none)
    (hp : r.phase = .ready) (hs : isSafe s (channelDie c) = false) (ht : engineTurn s c = true) (hf : fetchDesc s c r.idx = .ok t [])
    (hq : (channel t c).run = some q) (hd : q.desc q.idx = some d) (hok : d.ok = true) (hl : d.link = false) (hop : d.op = op) (hle : op ≤ hFENCE)
    (h0 : op = hHEAD ↔ q.idx = 0) : issueDesc s c op f = f t q d := by
  have hgo : ¬ (r.ended.isSome ∨ r.phase ≠ .ready ∨ isSafe s (channelDie c) = true ∨ engineTurn s c = false) := by simp [he, hp, hs, ht]
  have hfine : (!d.ok || d.link || (decide (op = hHEAD) != decide (q.idx = 0))) = false := by simp [hok, hl, h0]
  simp only [issueDesc, hr, hf, hq, hd, if_neg hgo]
  rw [if_neg (by rw [hop]; exact Nat.not_lt.mpr hle), if_neg (Classical.not_not.mpr hop), if_neg (ne_true_of_eq_false hfine)]

/-- A descriptor that moves rows begins its first step where its side streams keep R201. -/
theorem beginRows_of_leadOk {u : State} {v : Script} (hf : fetchSides 4 t c (q.idx + 1) = .ok u []) (hv : (channel u c).run = some v)
    (hl : leadOk d (v.sides v.idx) = true) : beginRows t c q d =
      runStep (updScript u c (fun x => { x with phase := .run, step := 0, stepsDone := 0, inner := [] })) c false := by
  simp only [beginRows, hf, hv, hl, if_true]

theorem beginRows_of_brokenLink {u : State} {v : Script} {k : Nat} (hf : fetchSides 4 t c (q.idx + 1) = .ok u []) (hv : (channel u c).run = some v)
    (hl : leadOk d (v.sides v.idx) = false) (hb : brokenLink d (v.sides v.idx) = some k) :
    beginRows t c q d = endDescAt u c (v.idx + 1 + k) sPOISONED 0 := by
  simp only [beginRows, hf, hv, hl, hb, Bool.false_eq_true, if_false]

/-- A WAIT's read that has come is judged by the flag's test. -/
theorem pollWait_of_read {u : State} {bs : List Byte} (h : readUnit s c uPoll d.addr 8 = .ok u bs) :
    pollWait s c d = if flagTest d.role (leNat bs) d.value then doneDesc u c 0 else u := by
  simp only [pollWait, h]

/-- A step's event in the channel's turn. -/
theorem stepEvent_of_turn {f : State → State} (hr : (channel s c).run = some r) (he : r.ended = none) (ht : engineTurn s c = true) :
    stepEvent s c f = runStep (f s) c false :=
  if_pos (by simp [scriptRuns, hr, he, ht])

end

/-- Settles O25: the descriptor issues, and each operation's own effect is that of its command. -/
theorem hoistDescriptors : Obligations.HoistDescriptors := by
  intro s t c r q d hr he hp hs ht hf hq hd hok hl upd starts
  have issues {op : Nat} {f : State → Script → HDesc → State} {u : State} (hop : d.op = op) (hle : op ≤ hFENCE) (h0 : op = hHEAD ↔ q.idx = 0)
      (hu : f t q d = u) : Host.Outcome.next (issueDesc s c op f) = (.next u : Out) :=
    congrArg _ ((issueDesc_of_read hr he hp hs ht hf hq hd hok hl hop hle h0).trans hu)
  refine ⟨fun hop h0 => issues hop (by decide) (by simp [h0]) rfl, fun h0 => ?_⟩
  have one {op : Nat} {f : State → Script → HDesc → State} {u : State} (hop : d.op = op) (hle : op ≤ hFENCE) (hne : op ≠ hHEAD)
      (hu : f t q d = u) : Host.Outcome.next (issueDesc s c op f) = (.next u : Out) := issues hop hle (iff_of_false hne h0) hu
  refine ⟨?_, ?_, fun hop => one hop (by decide) (by decide) rfl, fun hop => one hop (by decide) (by decide) rfl,
    fun hop => one hop (by decide) (by decide) rfl, fun hop hloop => one hop (by decide) (by decide) ?_,
    fun hop hw => one hop (by decide) (by decide) ?_, fun hop => one hop (by decide) (by decide) rfl,
    fun hop => one hop (by decide) (by decide) rfl, fun hop => one hop (by decide) (by decide) rfl⟩
  · intro u v hfs hv hlead
    have hb := beginRows_of_leadOk hfs hv hlead
    exact ⟨fun hop => one hop (by decide) (by decide) hb, fun hop => one hop (by decide) (by decide) hb, fun hop => one hop (by decide) (by decide) hb⟩
  · intro u v k hfs hv hlead hk
    have hb := beginRows_of_brokenLink hfs hv hlead hk
    exact ⟨fun hop => one hop (by decide) (by decide) hb, fun hop => one hop (by decide) (by decide) hb, fun hop => one hop (by decide) (by decide) hb⟩
  · exact if_neg (by rw [hloop]; nofun)
  · exact if_neg (by rw [hw]; nofun)

/-- Settles O26: each event by the branch of its phase. -/
theorem hoistEvents : Obligations.HoistEvents := by
  intro s c r hr
  refine ⟨?_, fun he ht => ⟨?_, fun e hp => ?_, fun hends => ?_⟩, fun he hi => ?_, fun st rs he hq hsum hrecs => ?_⟩
  · intro d due hw again
    have polls {u : State} (h : pollWait again c d = u) : exec (.hoistWaitPoll c) s = .next u := by
      refine congrArg Host.Outcome.next ?_
      rw [hw]
      exact h
    have hphase : r.phase = .waitFlag due ∧ r.desc r.idx = some d := by
      unfold waiting at hw
      rw [hr] at hw
      dsimp only at hw
      split at hw
      next hp hd =>
        split at hw
        next => exact absurd hw nofun
        next =>
          cases hw
          exact ⟨hp, hd⟩
      next => exact absurd hw nofun
    refine ⟨fun u hu => polls ?_, fun u bs hu => polls (pollWait_of_read hu), fun u bs hu => ?_, fun hdue => ?_⟩
    · simp only [pollWait, hu]
    · have hstep : runStep s c false = pollWait s c d := by
        simp [runStep, hr, hphase.1, hphase.2]
      exact hstep.trans (pollWait_of_read hu)
    · refine congrArg Host.Outcome.next ?_
      rw [hw]
      exact if_pos hdue
  · intro d u stored hp hd hop hplace hread
    have releases {v : State} (h : releaseBlock s c r d (r.sides r.idx) = v) : exec (.blockRelease c r.step) s = .next (runStep v c false) := by
      refine congrArg Host.Outcome.next ?_
      simp only [hr, hp, hd]
      exact (if_pos ⟨trivial, hop, hplace⟩).trans ((stepEvent_of_turn hr he ht).trans (by rw [← h]))
    exact ⟨fun data hv => releases (by simp only [releaseBlock, hread, hv]), fun w hv => releases (by simp only [releaseBlock, hread, hv])⟩
  · refine congrArg Host.Outcome.next ?_
    simp only [hr, hp]
    exact (if_pos trivial).trans (stepEvent_of_turn hr he ht)
  · refine congrArg Host.Outcome.next ?_
    simp only [hr, hends]
    exact (if_pos (by simp)).trans (stepEvent_of_turn hr he ht)
  · exact congrArg Host.Outcome.next (if_pos (by simp [scriptRuns, hr, he, hi]))
  · refine congrArg Host.Outcome.next ?_
    simp only [hr, he, hq, hsum, hrecs, scriptLate, decide_true, Bool.and_true, if_true, decide_eq_true_eq]

end Sys2Proof.Machine
end

section
/-!
Messages at their home, and completions, acknowledgements and timers at the originator (R215 to R224, R252, R253, R265).
-/

namespace Sys2Proof.Machine

-- at the home -----------------------------------------------------------------------------------------------------------------------

section
variable {s s1 s2 s3 : State} {d : Nat} {m : Msg}

/-- A PUT that its stream and its checks let pass is performed, or held for order. -/
theorem putArrives_of_passed (hs : judgeStream s1 d m = (s2, true)) (ho : judgeOp s2 d m = (s3, true)) :
    putArrives s1 d m = if isHeld s3 d m then
      recordSeq (setLayer s3 d { layer s3 d with heldPuts := (layer s3 d).heldPuts ++ [m] }) d m (.performing true)
    else performWrite s3 d m := by
  simp only [putArrives, hs, ho, Bool.not_true, Bool.false_eq_true, if_false]

/-- A GET that its stream and its checks let pass is served. -/
theorem getArrives_of_passed (hs : judgeStream s1 d m = (s2, true)) (ho : judgeOp s2 d m = (s3, true)) :
    getArrives s1 d m = if aSpace m.addr.toNat = 2
      then homeComp (remoteRead s3 m d (msgLen m)).1 d m (remoteRead s3 m d (msgLen m)).2.1 0 (remoteRead s3 m d (msgLen m)).2.2
      else performAt s3 d m .remote := by
  simp only [getArrives, hs, ho, Bool.not_true, Bool.false_eq_true, if_false]

end

/-- Settles O28. -/
theorem messagesAtHome : Obligations.MessagesAtHome := by
  intro s die m hs d
  refine ⟨fun s1 i s2 s3 ht hj ho => ⟨fun hop hh => ?_, fun hop hh => ?_, fun hop => ?_⟩, fun s3 hm hh ho => ?_, fun hm hd => ?_, ?_⟩
  · refine congrArg Host.Outcome.next ((if_neg (ne_true_of_eq_false hs)).trans ?_)
    rw [ht]
    exact (if_pos hop).trans ((putArrives_of_passed hj ho).trans (if_neg (ne_true_of_eq_false hh)))
  · refine congrArg Host.Outcome.next ((if_neg (ne_true_of_eq_false hs)).trans ?_)
    rw [ht]
    exact (if_pos (Or.inl hop)).trans ((putArrives_of_passed hj ho).trans (if_pos hh))
  · refine congrArg Host.Outcome.next ((if_neg (ne_true_of_eq_false hs)).trans ?_)
    rw [ht]
    exact (if_pos hop).trans (getArrives_of_passed hj ho)
  · refine congrArg Host.Outcome.next ((if_pos (by simp [show m ∈ (layer s die).heldPuts from hm, show isHeld s die m = false from hh])).trans ?_)
    dsimp only
    rw [show judgeOp (unhold s die m) die m = (s3, true) from ho]
    rfl
  · exact congrArg Host.Outcome.next (if_pos (by simp [show m ∈ (layer s die).heldPuts from hm, show m.deadline.toNat ≤ now s die from hd]))
  · intro p s1 i hp ht hop hvia haddr e h31 hup hhops hroom
    have hpd : portDie p.val = d := hp
    refine congrArg Host.Outcome.next ?_
    simp only [hpd]
    rw [if_neg (ne_true_of_eq_false hs), ht]
    refine (if_neg ?_).trans ((if_neg (Classical.not_not.mpr haddr)).trans ((if_neg ?_).trans ((if_neg ?_).trans (if_neg ?_))))
    · rintro (h | h)
      · exact h hop
      · exact h hvia
    · rintro (h | h)
      · exact absurd (h31.symm.trans h) (by decide)
      · exact h hup
    · rintro ⟨h1, h2⟩
      exact hhops.elim (fun h => h h1) (fun h => h2 h)
    · rw [hroom]; nofun

-- at the originator -----------------------------------------------------------------------------------------------------------------

/-- A completion that comes before its operation's timer has fired is received, and the operation goes on with it. -/
theorem compArrives_of_timely {s : State} {d : Nat} {m : Msg} {inside : Bool} {o : ROp}
    (hf : (layer s d).ops.find? (fun o => decide (o.phase = .sent) && answers m inside o) = some o)
    (ht : now s d + guardNs o.origin ≤ o.msg.deadline.toNat) :
    let s1 := if o.msg.opc = 5 then bump s (pgRmop d) MC_FAIL (bitsOf m.addr.toNat 46 32) else s
    let rs := if m.sub.toNat = sFAILED then m.reason.toNat else 0
    let o1 := { o with phase := .back m.sub.toNat rs }
    compArrives s d m inside = arriveData (putOp (received s1 d o) d o1) d o1 m.sub.toNat rs (if o.msg.opc = 2 ∨ o.msg.opc = 3 then m.data else []) := by
  intro s1 rs o1
  have hpast : timerPast s d o = false := decide_eq_false (Nat.not_lt.mpr ht)
  unfold compArrives
  rw [hf]
  exact if_neg (ne_true_of_eq_false hpast)

/-- Settles O29. -/
theorem completions : Obligations.Completions := by
  intro s die m d
  refine ⟨?_, ?_, fun s1 i x hs ht hop hx hi => ?_, ?_, fun op e o ho hp hs hr hdl => ?_, fun op e o ho ht => ?_, fun op n o ho hl hd hc => ?_,
    fun op c r ho hl hr hd => ?_, ?_⟩
  · intro s1 i o hs ht hop hvia hf hin s2 rs o1
    refine congrArg Host.Outcome.next ((if_neg (ne_true_of_eq_false hs)).trans ?_)
    rw [ht]
    refine (if_neg (Classical.not_not.mpr hop)).trans ?_
    rw [hvia]
    exact congrArg resume (compArrives_of_timely hf hin)
  · intro s1 i p e c hs ht hop hvia hc came failed
    have parts {t : State} (h : combinePart s1 e p m c = t) : exec (.comp die m) s = .next t := by
      refine congrArg Host.Outcome.next ((if_neg (ne_true_of_eq_false hs)).trans ?_)
      rw [ht]
      refine (if_neg (Classical.not_not.mpr hop)).trans ?_
      rw [hvia, Option.bind_some, hc]
      exact h
    exact ⟨fun h => parts (if_pos (by simpa using h)), fun h hp => parts (if_neg (by simp [h, hp]))⟩
  · refine congrArg Host.Outcome.next ((if_neg (ne_true_of_eq_false hs)).trans ?_)
    rw [ht]
    refine (if_neg (Classical.not_not.mpr hop)).trans ?_
    rw [hx]
    exact if_pos hi
  · intro dest kind agent cls x t0 is hx hdue hs ht
    refine congrArg Host.Outcome.next ?_
    rw [hx]
    dsimp only
    rw [hdue]
    exact if_neg fun h => h.elim (fun h => absurd (hs.symm.trans h) nofun) fun h => absurd h (Nat.not_lt.mpr ht)
  · refine congrArg Host.Outcome.next ?_
    rw [ho]
    exact if_pos ⟨hp, hr, hs, hdl⟩
  · refine congrArg Host.Outcome.next ?_
    rw [ho]
    exact if_neg (Nat.not_lt.mpr ht)
  · refine congrArg Host.Outcome.next ?_
    rw [ho]
    dsimp only
    rw [hl]
    refine (if_neg (Nat.not_lt.mpr hd)).trans ?_
    rw [hc]
  · refine congrArg Host.Outcome.next ?_
    rw [ho]
    dsimp only
    rw [hl]
    dsimp only
    rw [hr]
    exact if_neg (Nat.not_lt.mpr hd)
  · intro copy c hc hd c1 c2
    refine congrArg Host.Outcome.next ?_
    dsimp only
    rw [hc]
    exact if_neg (Nat.not_lt.mpr hd)

end Sys2Proof.Machine
end

section
/-!
The directory and the cache (R230 to R234).
-/

namespace Sys2Proof.Machine

section
variable {s : State} {d : Nat} {m : Msg}

/-- The GETs that a FILL serves take its line. -/
def fillsTake (t : State) (d : Nat) (m : Msg) (ops : List Nat) (lease : Option Ns) : State :=
  finishFills (setLayer t d { layer t d with fills := (layer t d).fills.map (fun f =>
    if ops.contains f.op then f.take m.addr.toNat m.sub.toNat m.reason.toNat m.data lease else f) }) d

/-- A FILL without a lease serves the first GET that waits and is not kept. -/
theorem fillArrives_of_uncached (h : m.deadline = 0) :
    fillArrives s d m = fillsTake s d m (fillServes s d m.addr.toNat (decide (m.deadline ≠ 0))) none := by
  have h0 : decide (m.deadline ≠ 0) = false := decide_eq_false (Classical.not_not.mpr h)
  simp only [fillArrives, fillsTake, h0, Bool.false_and, Bool.false_eq_true, if_false]

/-- A FILL whose lease runs serves every GET that waits for its line. -/
theorem fillArrives_of_leased (h : m.deadline ≠ 0) (ht : now s d < m.deadline.toNat) :
    fillArrives s d m = fillsTake
      (if m.sub = 0 ∧ inDoubt s d = false then keepLine s d m.addr.toNat m.deadline.toNat m.cls.toNat m.deadline.toNat m.data else s)
      d m (fillServes s d m.addr.toNat (decide (m.deadline ≠ 0))) (some m.deadline.toNat) := by
  have h0 : decide (m.deadline ≠ 0) = true := decide_eq_true h
  have hlate : decide (m.deadline.toNat ≤ now s d) = false := decide_eq_false (Nat.not_le.mpr ht)
  have hok : m.sub.toNat = sOK ↔ m.sub = 0 := by
    rw [BitVec.toNat_eq]
    rfl
  simp only [fillArrives, fillsTake, h0, hlate, hok, Bool.true_and, Bool.false_eq_true, if_false, if_true, Bool.and_eq_true, decide_eq_true_eq,
    Bool.not_eq_true']

/-- A FILL whose lease has ended serves nothing: its GETs miss again. -/
theorem fillArrives_of_ended (h : m.deadline ≠ 0) (ht : m.deadline.toNat ≤ now s d) :
    let ops := fillServes s d m.addr.toNat (decide (m.deadline ≠ 0))
    fillArrives s d m = ((layer s d).ops.filter (fun o => ops.contains o.id)).foldl (fun t o => sendGets t d m.addr.toNat o.msg)
      (bump s (pgRmop d) RC_MISSES ops.length) :=
  if_pos (by rw [decide_eq_true h, decide_eq_true ht]; rfl)

/-- Whether the line of an answer has a sharer whose INV carried its tag. -/
theorem tagOut_of_line {l : DirLine} (h : dirLine s d (low50 m.addr.toNat) = some l) :
    tagOut s d m = l.sharers.any (fun x => decide (x.node = m.src.toNat) && decide (x.tag = some m.tag.toNat)) := by
  simp only [tagOut, h]

theorem tagOut_of_untagged (h : ∀ l, dirLine s d (low50 m.addr.toNat) = some l →
    l.sharers.any (fun x => decide (x.node = m.src.toNat) && decide (x.tag = some m.tag.toNat)) = false) : tagOut s d m = false := by
  cases hl : dirLine s d (low50 m.addr.toNat) with
  | none => simp only [tagOut, hl]
  | some l => exact (tagOut_of_line hl).trans (h l hl)

end

/-- A coherence message that is taken in its order is acted on. -/
theorem exec_of_cohTake {s s1 : State} {d opc : Nat} {m : Msg} {f : State → State} (h : cohTake s d opc m = (s1, true)) :
    (let r := cohTake s d opc m
     if r.2 then f r.1 else r.1) = f s1 := by
  rw [h]
  rfl

/-- Settles O30. -/
theorem coherence : Obligations.Coherence := by
  intro s s1 die m d line tagged uncounted
  refine ⟨?_, ?_, ?_, fun l hl ht => ⟨fun h => ?_, fun h => ?_⟩, fun ht => ⟨fun h => ?_, fun h => ?_⟩, ?_, fun a l hl hw hlive => ?_, fun a l n hl => ?_⟩
  · intro h l
    refine congrArg Host.Outcome.next ?_
    dsimp only
    rw [show cohTake s die 0x10 m = (s1, true) from h]
    rfl
  · intro h takes ops
    have fills {t : State} (ht : fillArrives s1 d m = t) : exec (.fill die m) s = .next t :=
      congrArg Host.Outcome.next ((exec_of_cohTake (f := fun t => fillArrives t d m) h).trans ht)
    exact ⟨fun h0 => fills (fillArrives_of_uncached h0), fun h0 ht => fills (fillArrives_of_leased h0 ht), fun h0 ht => fills (fillArrives_of_ended h0 ht)⟩
  · intro h held s2
    refine congrArg Host.Outcome.next ?_
    dsimp only
    rw [show cohTake s die 0x12 m = (s1, true) from h]
    rfl
  · refine congrArg Host.Outcome.next ((exec_of_cohTake (f := fun t => if tagOut t d m then sharerGone t d m else discardTag t d m) h).trans ?_)
    refine (if_pos ((tagOut_of_line hl).trans ht)).trans ?_
    simp only [sharerGone, show dirLine s1 d (low50 m.addr.toNat) = some l from hl]
    rfl
  · exact congrArg Host.Outcome.next ((exec_of_cohTake (f := fun t => if tagOut t d m then t else discardTag t d m) h).trans
      (if_pos ((tagOut_of_line hl).trans ht)))
  · exact congrArg Host.Outcome.next ((exec_of_cohTake (f := fun t => if tagOut t d m then sharerGone t d m else discardTag t d m) h).trans
      (if_neg (ne_true_of_eq_false (tagOut_of_untagged ht))))
  · exact congrArg Host.Outcome.next ((exec_of_cohTake (f := fun t => if tagOut t d m then t else discardTag t d m) h).trans
      (if_neg (ne_true_of_eq_false (tagOut_of_untagged ht))))
  · intro l h hl tags s2
    refine congrArg Host.Outcome.next ?_
    dsimp only
    rw [show cohTake s die 0x15 m = (s1, true) from h]
    dsimp only
    rw [show dirLine s1 die (low50 m.addr.toNat) = some l from hl]
    rfl
  · refine congrArg Host.Outcome.next ?_
    rw [hl]
    exact if_pos ⟨hw, hlive⟩
  · refine congrArg Host.Outcome.next ?_
    rw [hl]

end Sys2Proof.Machine
end

section
/-!
Frames that arrive, leave and are forwarded, and training (R238 to R248, R267, R268, R364; Table 12-2).
-/

namespace Sys2Proof.Machine

-- arrival -------------------------------------------------------------------------------------------------------------------------

theorem leAt_lt (bs : List Byte) (o n : Nat) : leAt bs o n < 256 ^ n := by
  refine Nat.lt_of_lt_of_le (leNat_lt _) (Nat.pow_le_pow_right (by decide) ?_)
  simp only [sliceB, List.length_append, List.length_replicate, List.length_take]
  omega

/-- A frame whose CRC fails after its `HCRC`: NAK, and the copies that have begun end stomped. -/
theorem stompRest_of_broken {s : State} {p : Nat} {bs : List Byte} {g : RxFrame} (hc : checkFrame bs = .broken g) (hr : linkRuns s p = true) (ty : Nat) :
    receive s p bs ty = (sendNak (bump s (pgPort p) CRC_ERR 1) p, none) ∧ ∀ t, stompRest s t p bs ty = stompCopy t p g := by
  constructor
  · simp only [receive, hr, hc, Bool.not_true, Bool.false_eq_true, if_false]
  · intro t
    simp only [stompRest, hr, hc, if_true]

/-- An operation frame without its encryption's tag is not accepted, and the copies that have begun end stomped. -/
theorem receive_of_tagFails {s : State} {p : Nat} {bs : List Byte} {g : RxFrame} (hc : checkFrame bs = .good g) (hty : g.ftype = 0)
    (hr : linkRuns s p = true) (ht : tagFails (port s p) g = true) :
    receive s p bs 0 = (sendNak (bump s (pgPort p) CRC_ERR 1) p, none) := by
  have ho : openFrame (port s p) 0 g = none := by
    cases hk : (port s p).keys with
    | none => simp [tagFails, hk] at ht
    | some k =>
      have hnone : openBody k g = none := by simpa [tagFails, hk, hty] using ht
      simp [openFrame, hk, hnone]
  rw [receive_of_good s p bs 0 g hr hc hty (by decide) (by decide), ho]

/-- The peer's identity and revision of an agree frame in the port's page. -/
def notePeer (s : State) (p : Nat) (b : List Byte) : State :=
  wr (wr s (pgPort p) PEER (BitVec.ofNat 32 (leAt b 8 4 % 2 ^ 15 + 2 ^ 16 * (leAt b 8 4 / 2 ^ 16 % 32)))) (pgPort p) PEER_REV
    (BitVec.ofNat 32 (leAt b 4 4))

theorem notePeer_peer (s : State) (p : Nat) (b : List Byte) : fld (rd (notePeer s p b) (pgPort p) PEER) 14 0 = leAt b 8 4 % 2 ^ 15 := by
  unfold notePeer
  rw [rd_wr_other _ _ _ _ _ _ (by simp [rkey, PEER, PEER_REV]), rd_wr_same, fld_low]
  simp only [BitVec.toNat_ofNat]
  omega

theorem notePeer_rev (s : State) (p : Nat) (b : List Byte) : (rd (notePeer s p b) (pgPort p) PEER_REV).toNat = leAt b 4 4 := by
  unfold notePeer
  rw [rd_wr_same]
  exact Nat.mod_eq_of_lt (leAt_lt b 4 4)

/-- Settles O32: each type by what its receipt leaves to it. -/
theorem framesArrive : Obligations.FramesArrive := by
  intro s s1 p bs f x got
  refine ⟨fun h => ⟨fun hc hl m hm => ?_, fun hst => ?_⟩, fun g hc hr => ⟨?_, ?_⟩, fun g hc hty hr ht => ?_, fun h => ?_, fun h hst m hm => ?_, fun h => ?_, ?_,
    fun h hat hst hok hlen hoff => ?_, fun h => ?_⟩
  · refine congrArg Host.Outcome.next ?_
    rw [h]
    refine (if_neg ?_).trans ?_
    · rintro (h' | h')
      · exact absurd (hc.symm.trans h') nofun
      · exact hl h'
    · rw [hm]
  · refine congrArg Host.Outcome.next ?_
    rw [h]
    refine (if_pos (Or.inl ?_)).trans (if_pos hst)
    rw [show (port s1 p).st = 3 from hst]
    rfl
  · refine congrArg Host.Outcome.next ?_
    obtain ⟨hrec, hst⟩ := stompRest_of_broken hc hr 0
    rw [hrec]
    exact hst _
  · refine congrArg Host.Outcome.next ?_
    obtain ⟨hrec, hst⟩ := stompRest_of_broken hc hr 4
    rw [hrec]
    exact hst _
  · refine congrArg Host.Outcome.next ?_
    rw [receive_of_tagFails hc hty hr ht]
    simp only [stompRest, hr, hc, hty, ht, decide_true, Bool.and_self, if_true]
  · exact congrArg (fun r => Host.Outcome.next r.1) h
  · refine congrArg Host.Outcome.next ?_
    rw [h]
    refine (if_neg (Nat.not_lt.mpr hst)).trans ?_
    rw [hm]
  · refine ⟨(notePeer got p (sliceB f.body 0 80)).regs, congrArg Host.Outcome.next ?_, notePeer_peer .., notePeer_rev ..⟩
    rw [h]
    rfl
  · intro h y die tx echo rx theta t u v
    refine congrArg Host.Outcome.next ?_
    rw [h]
    simp only [Bool.and_eq_true, decide_eq_true_eq]
    rfl
  · refine congrArg Host.Outcome.next ?_
    rw [h]
    refine (if_pos ⟨hat, hst⟩).trans ?_
    unfold takeFragment
    dsimp only
    rw [if_neg (by rw [show fragmentOk _ f.body = true from hok]; nofun), if_neg hoff]
    exact if_pos (by rw [List.length_append]; exact hlen)
  · refine congrArg Host.Outcome.next ?_
    rw [h]

-- departure -----------------------------------------------------------------------------------------------------------------------

/-- Places of the frames of a die's port queues count from its port `12 - m` on. -/
theorem dropAtPort_of_late {s : State} {d i : Nat} {f : LFrame} : ∀ (m c : Nat), m ≤ 12 → c < m →
    let p := 12 * d + (12 - m + c)
    (port s p).queue[i]? = some f → f.late (now s d) = true →
    dropAtPort s d m (((List.range' (12 - m) c).map (fun k => (port s (12 * d + k)).queue.length)).sum + i) =
      countLate (setPort s p { port s p with queue := (port s p).queue.eraseIdx i }) f.inPort
  | 0, c, _, hc => absurd hc (Nat.not_lt_zero c)
  | m + 1, 0, hm, _ => by
    intro p hf hl
    have hp : p = 12 * d + (11 - m) := by omega
    rw [hp] at hf ⊢
    simp only [dropAtPort, List.range'_zero, List.map_nil, List.sum_nil, Nat.zero_add, hf, hl, if_true]
  | m + 1, c + 1, hm, hc => by
    intro p hf hl
    have h11 : 12 - (m + 1) = 11 - m := by omega
    have hnext : 11 - m + 1 = 12 - m := by omega
    have hp : p = 12 * d + (12 - m + c) := by omega
    have ih := dropAtPort_of_late m c (by omega) (by omega) (hp ▸ hf) hl
    rw [h11, List.range'_succ, hnext, List.map_cons, List.sum_cons, Nat.add_assoc]
    have hpast (q : List LFrame) (k : Nat) : q[q.length + k]? = none := List.getElem?_eq_none (Nat.le_add_right _ _)
    simp only [dropAtPort, hpast, Nat.add_sub_cancel_left]
    rw [hp]
    exact ih

/-- Settles O33. -/
theorem framesLeave : Obligations.FramesLeave := by
  intro s p x t
  refine ⟨?_, fun hr ht => ?_, fun hr h3 ht => ?_, fun hr hh ht hlt => ?_, fun hr ha ht => ?_, fun ho hs ht => ?_, fun die i q hq => ⟨fun hs hall => ?_, fun dl hdl ht => ?_⟩, ?_⟩
  · intro hr s1 y due first
    have sends {u : State} (h : transmitNext s p = u) : exec (.frameTransmit p) s = .next u := congrArg Host.Outcome.next ((if_pos hr).trans h)
    refine ⟨fun f hf => sends ?_, fun f hd hf => sends ?_, fun hd hf => sends ?_⟩
    · unfold transmitNext
      dsimp only
      rw [show (port (dropLate s p) p).held.find? _ = some f from hf]
    · unfold transmitNext
      dsimp only
      rw [show (port (dropLate s p) p).held.find? _ = none from hd]
      dsimp only
      rw [show firstFrame _ = some f from hf]
    · unfold transmitNext
      dsimp only
      rw [show (port (dropLate s p) p).held.find? _ = none from hd]
      dsimp only
      rw [show firstFrame _ = none from hf]
  · exact congrArg Host.Outcome.next (if_pos (by rw [hr, Bool.true_and]; exact decide_eq_true ht))
  · exact congrArg Host.Outcome.next (if_pos (by rw [hr, Bool.true_and, Bool.and_eq_true]; exact ⟨decide_eq_true h3, decide_eq_true ht⟩))
  · refine congrArg Host.Outcome.next ((if_pos (by rw [hr, Bool.true_and, Bool.and_eq_true]; exact ⟨decide_eq_true hh, decide_eq_true ht⟩)).trans ?_)
    exact if_neg (Nat.not_le.mpr hlt)
  · exact congrArg Host.Outcome.next (if_pos (by rw [hr, Bool.true_and, Bool.and_eq_true]; exact ⟨ha, decide_eq_true ht⟩))
  · exact congrArg Host.Outcome.next (if_pos (by rw [ho, Bool.true_and, Bool.and_eq_true]; exact ⟨hs, decide_eq_true ht⟩))
  · refine congrArg Host.Outcome.next ((if_neg (ne_true_of_eq_false hs)).trans ?_)
    rw [hq]
    refine if_neg ?_
    intro hany
    obtain ⟨r, hr, hserved⟩ := List.any_eq_true.mp hany
    rw [Bool.and_eq_true, decide_eq_true_eq] at hserved
    exact hserved.2 (hall r hr hserved.1)
  · refine congrArg Host.Outcome.next ?_
    rw [hq]
    dsimp only
    rw [hdl]
    exact if_pos ht
  · intro die n i f hn hf hl q
    refine congrArg Host.Outcome.next ?_
    rw [List.getElem?_eq_none (by omega)]
    dsimp only
    rw [Nat.add_assoc, Nat.add_sub_cancel_left, List.range_eq_range']
    have h := dropAtPort_of_late (s := s) (d := die) (i := i) (f := f) 12 n (Nat.le_refl _) hn
    simp only [Nat.sub_self, Nat.zero_add] at h
    exact h hf hl

-- training --------------------------------------------------------------------------------------------------------------------------

/-- A parent's command of a port that is on, without a rival, acts and is noted (R17). -/
theorem portCmd_of_parent {s : State} {w : Agent} {p : Nat} (act : State → State) (hs : isSafe s (portDie p) = false) (hd : domain s (domPort p) = 2)
    (hp : isParent s w (pgPort p) = true) (hu : Unrivalled s w (pgPort p) P_CMD) :
    portCmd s w p act = noteRanked s w (pgPort p) P_CMD (portUndo s p) (act s) := by
  refine (if_neg (ne_true_of_eq_false hs)).trans ((if_neg (by rw [hp]; nofun)).trans ?_)
  rw [ranked_unrivalled _ _ _ _ _ _ hu, if_pos hd]

/-- Settles O34. -/
theorem training : Obligations.Training := by
  intro s p hs hd x t
  have hon : portOn s p = true := decide_eq_true (by omega)
  have runs {b : Bool} (hb : b = true) : (portOn s p && !isSafe s (portDie p) && b) = true := by rw [hon, hs, hb]; rfl
  refine ⟨?_, fun hf => ⟨?_, ?_⟩, fun he => ⟨fun f hf => ?_, fun f hlo hhi => ?_, ?_⟩, fun t0 hf ht => ?_, fun h1 hn => ?_, fun t0 ha hr ht => ?_,
    fun hr ha ht => ?_⟩
  · intro w hp hu done
    have cmd (act : State → State) {u : State} (h : act s = u) : Host.Outcome.next (portCmd s w p act) = done u :=
      congrArg Host.Outcome.next ((portCmd_of_parent act hs hd hp hu).trans (congrArg _ h))
    exact ⟨fun h3 h5 hn => cmd _ (if_pos ⟨h3, h5, hn⟩), cmd _ rfl, cmd _ rfl⟩
  · exact congrArg Host.Outcome.next (if_pos (runs (decide_eq_true hf)))
  · exact congrArg Host.Outcome.next (if_pos (runs (decide_eq_true hf)))
  · refine congrArg Host.Outcome.next ((if_pos (runs (decide_eq_true he))).trans ((if_pos hf).trans ?_))
    rw [Nat.mod_eq_of_lt (by omega)]
  · refine congrArg Host.Outcome.next ((if_pos (runs (decide_eq_true he))).trans ((if_neg (Nat.not_le.mpr hlo)).trans ?_))
    rw [Nat.mod_eq_of_lt hhi]
    rfl
  · exact congrArg Host.Outcome.next (if_pos (runs (decide_eq_true he)))
  · refine congrArg Host.Outcome.next ?_
    rw [show (port s p).training = .failed t0 from hf]
    exact if_pos (runs (decide_eq_true ht))
  · exact congrArg Host.Outcome.next (if_pos (by simp [hd, hs, show (port s p).st = 1 from h1, show (port s p).training = .none from hn]))
  · refine congrArg Host.Outcome.next ?_
    rw [show (port s p).training = .agree t0 from ha]
    exact if_pos (by rw [hr, Bool.true_and]; exact decide_eq_true ht)
  · exact congrArg Host.Outcome.next (if_pos (by rw [hr, Bool.true_and, Bool.and_eq_true]; exact ⟨decide_eq_true ha, decide_eq_true ht⟩))

end Sys2Proof.Machine
end

section
/-!
What steps keep. The core of a state is what the lasting properties speak of; most functions of the model leave it as it is.
`(rfl)` in brackets keeps a lemma from `dsimp`, by which a fold's side condition would be left without a proof to assign.
-/

namespace Sys2Proof.Machine

/-- Memory, the version floors and the revoked keys, who is safe and split, the node and its profile, and time. -/
structure Core where
  mem : List Host.Cell
  floors : List Nat
  revoked : List Nat
  service : Sparse Service
  split : Bool
  node : Nat
  assigned : Bool
  profile : List Byte
  cycleFrame : Option (List Byte × Bool)
  cycleAssign : Bool
  up : Ns
  times : Sparse TimeBlk

/-- The core of a state. -/
def core (s : State) : Core :=
  ⟨s.mem, s.security.floors, s.security.revoked, s.service, s.split, s.boot.node, s.boot.assigned, s.boot.profile, s.boot.cycleFrame,
    s.boot.cycleAssign, s.boot.up, s.times⟩

@[simp] theorem core_ite (c : Prop) [Decidable c] (s t : State) : core (if c then s else t) = if c then core s else core t := apply_ite core c s t

@[simp] theorem core_ite_fst {α : Type} (c : Prop) [Decidable c] (x y : State × α) :
    core (if c then x else y).1 = if c then core x.1 else core y.1 := by
  split <;> rfl

@[simp] theorem core_foldl {α : Type} (f : State → α → State) (l : List α) (s : State) (h : ∀ t a, core (f t a) = core t) :
    core (l.foldl f s) = core s := by
  induction l generalizing s with
  | nil => rfl
  | cons a l ih => exact (ih _).trans (h s a)

@[simp] theorem core_foldr {α : Type} (f : α → State → State) (l : List α) (s : State) (h : ∀ a t, core (f a t) = core t) :
    core (l.foldr f s) = core s := by
  induction l with
  | nil => rfl
  | cons a l ih => exact (h a _).trans ih

/-! An update of a field that the core does not hold. -/

@[simp] theorem core_withHost (s : State) (h : HostPort) : core { s with host := h } = core s := (rfl)

@[simp] theorem core_withCanaries (s : State) (l : List Canary) : core { s with canaries := l } = core s := (rfl)

@[simp] theorem core_withCommits (s : State) (l : List Commit) : core { s with commits := l } = core s := (rfl)

@[simp] theorem core_withRanked (s : State) (l : List RankedWrite) : core { s with ranked := l } = core s := (rfl)

@[simp] theorem core_withFree (s : State) (n : Nat) : core { s with free := n } = core s := (rfl)

@[simp] theorem core_withPins (s : State) (p : Pins) : core { s with pins := p } = core s := (rfl)

@[simp] theorem core_withPower (s : State) (p : Power) : core { s with power := p } = core s := (rfl)

@[simp] theorem core_withQueues (s : State) (b : Sparse Bank) (k : Sparse Stack) :
    core { s with banks := b, stackTab := k } = core s := (rfl)

@[simp] theorem core_withKeys (s : State) (n : Nat) (l : List TensorKey) :
    core { s with security := { s.security with keyResult := n, keys := l } } = core s := (rfl)

/-! Functions of `Machine/Regs`. -/

@[simp] theorem core_wr (s pg off v) : core (wr s pg off v) = core s := (rfl)

@[simp] theorem core_wrStaged (s pg off v) : core (wrStaged s pg off v) = core s := (rfl)

@[simp] theorem core_bump (s pg off n) : core (bump s pg off n) = core s := by simp [bump]

@[simp] theorem core_setBits (s pg off bits) : core (setBits s pg off bits) = core s := by simp [setBits]

@[simp] theorem core_parentIrq (s pg bits mask) : core (parentIrq s pg bits mask) = core s := (rfl)

@[simp] theorem core_setIrq (s pg bits) : core (setIrq s pg bits) = core s := by simp [setIrq]

@[simp] theorem core_event (s pg) : core (event s pg) = core s := by simp [event]

@[simp] theorem core_blkErr (s pg bit) : core (blkErr s pg bit) = core s := by simp [blkErr]

@[simp] theorem core_recordRefused (s w pg off) : core (recordRefused s w pg off) = core s := by simp [recordRefused]

@[simp] theorem core_refuseWrite (s w pg off) : core (refuseWrite s w pg off) = core s := by simp [refuseWrite]

/-! Functions of `Machine/Ops`. -/

@[simp] theorem core_setStope (s n x) : core (setStope s n x) = core s := (rfl)

@[simp] theorem core_setBank (s b x) : core (setBank s b x) = core s := (rfl)

@[simp] theorem core_setStack (s k x) : core (setStack s k x) = core s := (rfl)

@[simp] theorem core_setEngine (s e x) : core (setEngine s e x) = core s := (rfl)

@[simp] theorem core_setChannel (s c x) : core (setChannel s c x) = core s := (rfl)

@[simp] theorem core_setLayer (s d x) : core (setLayer s d x) = core s := (rfl)

@[simp] theorem core_setRouter (s d x) : core (setRouter s d x) = core s := (rfl)

@[simp] theorem core_setPort (s p x) : core (setPort s p x) = core s := (rfl)

@[simp] theorem core_setHistory (s d x) : core (setHistory s d x) = core s := (rfl)

@[simp] theorem core_setForeman (s f x) : core (setForeman s f x) = core s := (rfl)

@[simp] theorem core_setHalfLevel (s h x) : core (setHalfLevel s h x) = core s := (rfl)

@[simp] theorem core_setDvfs (s d x) : core (setDvfs s d x) = core s := (rfl)

@[simp] theorem core_setDomain (s n v) : core (setDomain s n v) = core s := (rfl)

@[simp] theorem core_setMailbox (s m x) : core (setMailbox s m x) = core s := (rfl)

@[simp] theorem core_freshOp (s) : core (freshOp s).1 = core s := (rfl)

@[simp] theorem core_freshValue (s) : core (freshValue s).1 = core s := (rfl)

@[simp] theorem core_emit (s o) : core (emit s o) = core s := (rfl)

@[simp] theorem core_undoApply (pg : Nat) (s : State) (u : Undo) : core (u.apply pg s) = core s := by
  cases u <;> simp [Undo.apply]
  rfl

@[simp] theorem core_noteRanked (s w pg off saved t) : core (noteRanked s w pg off saved t) = core t := (rfl)

@[simp] theorem core_giveWay (s e) : core (giveWay s e) = core s := by simp [giveWay]

@[simp] theorem core_ranked (s w pg off saved) (f : State → State) (h : ∀ t, core (f t) = core t) :
    core (ranked s w pg off saved f) = core s := by
  simp [ranked, h]

@[simp] theorem core_markBad (s a) : core (markBad s a) = core s := by
  unfold markBad
  repeat' split
  all_goals rfl

@[simp] theorem core_completeAsync (s n op w) : core (completeAsync s n op w) = core s := by
  unfold completeAsync
  dsimp only
  split <;> simp

@[simp] theorem core_progFault (s n cause) : core (progFault s n cause) = core s := by simp [progFault]

/-! Functions of `Machine/Operands`. -/

@[simp] theorem core_jumpTo (s n t) : core (jumpTo s n t) = core s := by simp [jumpTo]

@[simp] theorem core_issue (s st op d a b imm) (act : State → State) (h : core (act s) = core s) :
    core (issue s st op d a b imm act) = core s := by
  unfold issue
  split <;> (try split) <;> simp [h]

@[simp] theorem core_putS (s n d v) : core (putS s n d v) = core s := by simp [putS]

@[simp] theorem core_putA (s n d v) : core (putA s n d v) = core s := by simp [putA]

@[simp] theorem core_putV (s n d v) : core (putV s n d v) = core s := by simp [putV]

@[simp] theorem core_regReg (s st op d a b imm f) : core (regReg s st op d a b imm f) = core s := by simp [regReg]

@[simp] theorem core_regImm (s st op d a b imm f) : core (regImm s st op d a b imm f) = core s := by simp [regImm]

@[simp] theorem core_branch (s st op d a b imm c) : core (branch s st op d a b imm c) = core s := by simp [branch]

/-! Functions of `Machine/VectorUnit`. -/

@[simp] theorem core_vectorOp (s st op d a b imm f) : core (vectorOp s st op d a b imm f) = core s := by simp [vectorOp]

@[simp] theorem core_binary (s st op d a b imm f) : core (binary s st op d a b imm f) = core s := by simp [binary]

@[simp] theorem core_unary (s st op d a b imm f) : core (unary s st op d a b imm f) = core s := by simp [unary]

/-! Functions of `Machine/LocalMem`. -/

@[simp] theorem core_countDenied (s c) : core (countDenied s c) = core s := by
  unfold countDenied
  split <;> simp

@[simp] theorem core_served (s n b) : core (served s n b) = core s := by simp [served]

@[simp] theorem core_statusTo (s n b st) : core (statusTo s n b st) = core s := by simp [statusTo]

@[simp] theorem core_denyLocal (s n b c) : core (denyLocal s n b c) = core s := by simp [denyLocal]

@[simp] theorem core_endVec (s n d b write p) : core (endVec s n d b write p) = core s := by simp [endVec]

/-! Functions of `Machine/Promise`. -/

@[simp] theorem core_settleBuckets (s d) : core (settleBuckets s d) = core s := (rfl)

theorem core_takeCredit {s t : State} {d i cls len setting} (h : takeCredit s d i cls len setting = some t) : core t = core s := by
  obtain ⟨-, h⟩ := Option.ite_none_left_eq_some.1 h
  exact Option.some.inj h ▸ rfl

@[simp] theorem core_countRefused (s d) : core (countRefused s d) = core s := by simp [countRefused]

/-! Functions of `Machine/HostOps`. -/

@[simp] theorem core_msix (s v) : core (msix s v) = core s := by
  unfold msix
  repeat' split
  all_goals rfl

@[simp] theorem core_hfInterrupt (s) : core (hfInterrupt s) = core s := (rfl)

@[simp] theorem core_passEntry (s) : core (passEntry s) = core s := (rfl)

@[simp] theorem core_writeEntry (s user status reason) : core (writeEntry s user status reason) = core s := by simp [writeEntry]

@[simp] theorem core_hostComplete (s op status reason data) : core (hostComplete s op status reason data) = core s := by
  unfold hostComplete
  cases s.host.reqs.find? (fun r => r.op = op) with
  | none => rfl
  | some r => dsimp only; simp

@[simp] theorem core_finishAperture (s a) : core (finishAperture s a) = core s := by simp [finishAperture]

@[simp] theorem core_aperturePiece (s id op status data) : core (aperturePiece s id op status data) = core s := by
  unfold aperturePiece
  dsimp only
  split
  · split <;> simp
  · simp

@[simp] theorem core_ringDoorbell (s0 b) : core (ringDoorbell s0 b) = core s0 := by simp [ringDoorbell]

@[simp] theorem core_mbResult (s m sender seq status) : core (mbResult s m sender seq status) = core s := by simp [mbResult]

@[simp] theorem core_noteIrq (s m) : core (noteIrq s m) = core s := by simp [noteIrq]

@[simp] theorem core_mbJudge (s m bs) : core (mbJudge s m bs).1 = core s := by simp [mbJudge]

@[simp] theorem core_mbPost (s m bs) : core (mbPost s m bs).1 = core s := by simp [mbPost]

@[simp] theorem core_unpost (s p) : core (unpost s p) = core s := (rfl)

@[simp] theorem core_beforePosts (s m) (f : State → State) (h : ∀ t, core (f t) = core t) : core (beforePosts s m f) = core s := by
  simp [beforePosts, h]

/-! Functions of `Machine/Pins`. -/

@[simp] theorem core_setI3c (s bus x) : core (setI3c s bus x) = core s := (rfl)

/-! Functions of `Machine/Remote`. -/

@[simp] theorem core_toInbox (s d m) : core (toInbox s d m) = core s := by simp [toInbox]

@[simp] theorem core_queueFrame (s d q) : core (queueFrame s d q) = core s := by simp [queueFrame]

@[simp] theorem core_sendMsg (del : State → Nat → Msg → State) (s d dest m) (h : ∀ t d m, core (del t d m) = core t) :
    core (sendMsg del s d dest m) = core s := by
  unfold sendMsg
  split <;> (try split) <;> (try split) <;> simp [h]

@[simp] theorem core_putInStream (s d m x) : core (putInStream s d m x) = core s := by simp [putInStream]

@[simp] theorem core_recordSeq (s d m st) : core (recordSeq s d m st) = core s := by
  unfold recordSeq
  split <;> simp

@[simp] theorem core_sendComp (s d c) : core (sendComp s d c) = core s := by simp [sendComp]

@[simp] theorem core_combineDone (s d c) : core (combineDone s d c) = core s := by simp [combineDone]

@[simp] theorem core_updCombine (s d c) : core (updCombine s d c) = core s := by simp [updCombine]

@[simp] theorem core_combineOwn (s e m status reason) : core (combineOwn s e m status reason) = core s := by
  unfold combineOwn
  dsimp only
  repeat' split
  all_goals simp

@[simp] theorem core_homeComp (s d m status reason data) : core (homeComp s d m status reason data) = core s := by simp [homeComp]

@[simp] theorem core_enqueueBank (s x) : core (enqueueBank s x) = core s := by simp [enqueueBank]

@[simp] theorem core_putOutStream (s d o x) : core (putOutStream s d o x) = core s := by simp [putOutStream]

@[simp] theorem core_innerDone (s c op status reason data) : core (innerDone s c op status reason data) = core s := by
  unfold innerDone
  dsimp only
  split <;> simp

@[simp] theorem core_completeOrigin (s o status reason data) : core (completeOrigin s o status reason data) = core s := by
  unfold completeOrigin
  split <;> simp

@[simp] theorem core_countDeadline (s d status reason) : core (countDeadline s d status reason) = core s := by simp [countDeadline]

@[simp] theorem core_takeBack (s d h) : core (takeBack s d h) = core s := by simp [takeBack]

@[simp] theorem core_forgetHomes (s d p) : core (forgetHomes s d p) = core s := by simp [forgetHomes]

@[simp] theorem core_dropHeld (s d p) : core (dropHeld s d p) = core s := by simp [dropHeld]

@[simp] theorem core_dropLocal (s0 d o) : core (dropLocal s0 d o) = core s0 := by simp [dropLocal]

@[simp] theorem core_endOp (s0 d o status reason data timer) : core (endOp s0 d o status reason data timer) = core s0 := by
  unfold endOp
  split <;> simp

@[simp] theorem core_putOp (s d o) : core (putOp s d o) = core s := by simp [putOp]

@[simp] theorem core_openHome (s d m f parts) : core (openHome s d m f parts).1 = core s := by simp [openHome]

@[simp] theorem core_atomToBank (s d m) : core (atomToBank s d m) = core s := by simp [atomToBank]

@[simp] theorem core_putDir (s d l) : core (putDir s d l) = core s := by simp [putDir]

@[simp] theorem core_sendCoh (s d peer src kind opc cls addr deadline tag status reason data due) :
    core (sendCoh s d peer src kind opc cls addr deadline tag status reason data due) = core s := by simp [sendCoh]

@[simp] theorem core_sendInv (s d cls deadline l x) : core (sendInv s d cls deadline l x).1 = core s := by
  unfold sendInv
  split <;> simp

@[simp] theorem core_sendInvs (s d cls deadline l) (xs : List Sharer) : core (sendInvs s d cls deadline l xs).1 = core s := by
  induction xs generalizing s with
  | nil => rfl
  | cons x rest ih => simp [sendInvs, ih]

@[simp] theorem core_invLine (s d cls deadline line) : core (invLine s d cls deadline line).1 = core s := by
  unfold invLine
  split <;> simp

@[simp] theorem core_invLines (s d cls deadline) (ls : List Nat) : core (invLines s d cls deadline ls).1 = core s := by
  induction ls generalizing s with
  | nil => rfl
  | cons x rest ih => simp [invLines, ih]

@[simp] theorem core_holdWrite (s d line m f) : core (holdWrite s d line m f) = core s := by
  unfold holdWrite
  split <;> simp

@[simp] theorem core_dropStale (s d m) : core (dropStale s d m) = core s := by simp [dropStale]

@[simp] theorem core_judgeStream (s d m) : core (judgeStream s d m).1 = core s := by
  unfold judgeStream
  dsimp only
  repeat' split
  all_goals simp

@[simp] theorem core_judgeOp (s d m) : core (judgeOp s d m).1 = core s := by
  simp only [judgeOp, core_ite_fst]
  split <;> (try split) <;> (try split) <;> (try split) <;> simp

@[simp] theorem core_arriveAtomic (s d m) : core (arriveAtomic s d m) = core s := by
  unfold arriveAtomic
  dsimp only
  repeat' split
  all_goals simp

@[simp] theorem core_deliver (s d m) : core (deliver s d m) = core s := by simp [deliver]

@[simp] theorem core_multicast (s d m up hopsLeft) : core (multicast s d m up hopsLeft).1 = core s := by simp [multicast]

@[simp] theorem core_combineIfDone (s d m) : core (combineIfDone s d m) = core s := by
  unfold combineIfDone
  split <;> simp

@[simp] theorem core_transmit (s d o m) : core (transmit s d o m) = core s := by simp [transmit]

@[simp] theorem core_sendOp (s d o) : core (sendOp s d o) = core s := by simp [sendOp]

@[simp] theorem core_flushN (n : Nat) (s d) : core (flushN n s d) = core s := by
  induction n generalizing s with
  | zero => rfl
  | succ n ih =>
    unfold flushN
    split <;> simp [ih]

@[simp] theorem core_flush (s d) : core (flush s d) = core s := by simp [flush]

@[simp] theorem core_finishOp (s d o status reason data timer) :
    core (finishOp s d o status reason data timer) = core s := by simp [finishOp]

/-! Functions of `Machine/Sending`. -/

@[simp] theorem core_freed (s p ln n) : core (freed s p ln n) = core s := by simp [freed]

@[simp] theorem core_emitFrame (s p seq ln hops pl nak) : core (emitFrame s p seq ln hops pl nak) = core s := by simp [emitFrame]

@[simp] theorem core_emitIdle (s p nak) : core (emitIdle s p nak) = core s := by simp [emitIdle]

@[simp] theorem core_queueOwn (s p pl) : core (queueOwn s p pl) = core s := by simp [queueOwn]

@[simp] theorem core_countLate (s inPort) : core (countLate s inPort) = core s := by
  unfold countLate
  split <;> simp

@[simp] theorem core_dropLate (s p) : core (dropLate s p) = core s := by simp [dropLate]

@[simp] theorem core_sendFrame (s p f) : core (sendFrame s p f) = core s := by simp [sendFrame]

@[simp] theorem core_transmitNext (s p) : core (transmitNext s p) = core s := by
  unfold transmitNext
  dsimp only
  repeat' split
  all_goals simp

@[simp] theorem core_resendHeld (s p) : core (resendHeld s p) = core s := by simp [resendHeld]

@[simp] theorem core_sendLast (s d q) : core (sendLast s d q) = core s := by
  unfold sendLast
  dsimp only
  repeat' split
  all_goals simp

@[simp] theorem core_sendOwnComps (s d) : core (sendOwnComps s d) = core s := by simp [sendOwnComps]

/-! Functions of `Machine/Home`. -/

@[simp] theorem core_queuePieces (s d id m) : core (queuePieces s d id m) = core s := by simp [queuePieces]

@[simp] theorem core_orderedBack (s d o data) : core (orderedBack s d o data) = core s := by
  simp only [orderedBack]
  split <;> simp

@[simp] theorem core_arriveData (s d o status reason data) : core (arriveData s d o status reason data) = core s := by
  unfold arriveData
  split <;> (try split) <;> simp

@[simp] theorem core_sendGets (s d line m) : core (sendGets s d line m) = core s := by simp [sendGets]

@[simp] theorem core_finishFill (s d f) : core (finishFill s d f) = core s := by
  unfold finishFill
  split <;> simp

@[simp] theorem core_finishFills (s d) : core (finishFills s d) = core s := by simp [finishFills]

@[simp] theorem core_hitDone (s d op line lease st rs data) : core (hitDone s d op line lease st rs data) = core s := by simp [hitDone]

@[simp] theorem core_keepDone (s d line place st) : core (keepDone s d line place st) = core s := by simp [keepDone]

@[simp] theorem core_backDone (s d op p) : core (backDone s d op p) = core s := by
  unfold backDone
  split <;> (try split) <;> simp

@[simp] theorem core_imageRead (s n tag ok data) : core (imageRead s n tag ok data) = core s := by simp [imageRead]

@[simp] theorem core_afterWrite (serve : State → Nat → Nat → State) (s d m) (h : ∀ t d l, core (serve t d l) = core t) :
    core (afterWrite serve s d m) = core s := by
  simp [afterWrite, h]

@[simp] theorem core_fillDone (s d h cached lease) : core (fillDone s d h cached lease) = core s := by
  unfold fillDone
  dsimp only
  split <;> (try split) <;> (try split) <;> (try split) <;> (try split) <;> simp

@[simp] theorem core_homeFinish (serve : State → Nat → Nat → State) (s d h) (hs : ∀ t d l, core (serve t d l) = core t) :
    core (homeFinish serve s d h) = core s := by
  unfold homeFinish
  dsimp only
  cases h.for_ <;> simp [hs]

@[simp] theorem core_performWith (serve : State → Nat → Nat → State) (s d m f) (hs : ∀ t d l, core (serve t d l) = core t) :
    core (performWith serve s d m f) = core s := by
  unfold performWith
  dsimp only
  split <;> (try split) <;> simp [hs]

@[simp] theorem core_serveGets (serve : State → Nat → Nat → State) (s d m) (h : ∀ t d l, core (serve t d l) = core t) :
    core (serveGets serve s d m) = core s := by
  simp [serveGets, h]

@[simp] theorem core_serveHeldN (n : Nat) (s d line) : core (serveHeldN n s d line) = core s := by
  induction n generalizing s d line with
  | zero => rfl
  | succ n ih =>
    unfold serveHeldN
    split <;> (try split) <;> simp [ih]

@[simp] theorem core_serveHeld (s d line) : core (serveHeld s d line) = core s := by simp [serveHeld]

@[simp] theorem core_performAt (s d m f) : core (performAt s d m f) = core s := by simp [performAt]

@[simp] theorem core_writeAt (s d m f) : core (writeAt s d m f) = core s := by
  unfold writeAt
  dsimp only
  split <;> simp

@[simp] theorem core_homePiece (s d id off p) : core (homePiece s d id off p) = core s := by
  unfold homePiece
  split <;> simp

@[simp] theorem core_dropPieces (s d id) : core (dropPieces s d id) = core s := by simp [dropPieces]

@[simp] theorem core_failHome (s d id reason) : core (failHome s d id reason) = core s := by
  unfold failHome
  split <;> simp

@[simp] theorem core_queueCanary (s st op dst kind a len due data) :
    core (queueCanary s st op dst kind a len due data) = core s := by simp [queueCanary]

@[simp] theorem core_canaryFails (s st op) : core (canaryFails s st op) = core s := by
  unfold canaryFails
  dsimp only
  split <;> simp

@[simp] theorem core_canaryDone (s st op dst due p) : core (canaryDone s st op dst due p) = core s := by
  unfold canaryDone
  cases dst <;> simp

@[simp] theorem core_accessDone (s x p) : core (accessDone s x p) = core s := by
  unfold accessDone
  split <;> (try split) <;> simp

@[simp] theorem core_addOp (s d o readLen) : core (addOp s d o readLen) = core s := by simp [addOp]

/-! Functions of `Machine/Ingress`. -/

@[simp] theorem core_updScript (s c f) : core (updScript s c f) = core s := by simp [updScript]

theorem core_judgeInner {s t : State} {c r opc sub a len} (h : judgeInner s c r opc sub a len = .go t) : core t = core s := by
  unfold judgeInner at h
  dsimp only at h
  cases hf : routeFloor s (channelDie c) (aNodeDie a) (aSpace a) with
  | none =>
    simp only [hf] at h
    split at h <;> (try split at h) <;> (try split at h) <;> cases h
  | some f =>
    cases hk : takeCredit s (channelDie c) (.hoist (engineOf c)) r.cls len (strictest s r.cls (touchedStacks s a len)) with
    | none =>
      simp only [hf, hk] at h
      split at h <;> (try split at h) <;> (try split at h) <;> (try split at h) <;> (try split at h) <;> cases h
    | some u =>
      simp only [hf, hk] at h
      split at h <;> (try split at h) <;> (try split at h) <;> (try split at h) <;> (try split at h) <;> cases h
      exact core_takeCredit hk

@[simp] theorem core_recGone (s c id) : core (recGone s c id) = core s := by simp [recGone]

theorem core_issueRecord {s t : State} {c r w} (h : issueRecord s c r w = some t) : core t = core s := by
  unfold issueRecord at h
  dsimp only at h
  split at h
  · split at h
    · cases h; simp
    · split at h <;> cases h
      simp
  · cases hj : judgeInner s c r 1 0 (r.recAddr + 16 * w.index) 16 with
    | no a b =>
      rw [hj] at h
      cases h; simp
    | later b => rw [hj] at h; cases h
    | go u =>
      rw [hj] at h
      cases h
      simp [core_judgeInner hj]

@[simp] theorem core_pumpRecords (s c) (l : List RecWrite) : core (pumpRecords s c l) = core s := by
  induction l generalizing s with
  | nil => rfl
  | cons w rest ih =>
    unfold pumpRecords
    split
    · exact ih s
    · cases (channel s c).run with
      | none => rfl
      | some r =>
        dsimp only
        cases hi : issueRecord s c r w with
        | none => rfl
        | some t => exact (ih t).trans (core_issueRecord hi)

@[simp] theorem core_pump (s c) : core (pump s c) = core s := by simp [pump]

@[simp] theorem core_addRecord (s c bs) : core (addRecord s c bs) = core s := by simp [addRecord]

/-! Functions of `Machine/Ends`. -/

@[simp] theorem core_startHead (s n) : core (startHead s n) = core s := by
  unfold startHead
  dsimp only
  split <;> simp

@[simp] theorem core_keepWord (s n k w) : core (keepWord s n k w) = core s := by
  unfold keepWord
  split <;> simp

@[simp] theorem core_applyVals (s c) : core (applyVals s c) = core s := by simp [applyVals]

@[simp] theorem core_tileBoundary (s n) : core (tileBoundary s n) = core s := by simp [tileBoundary]

@[simp] theorem core_endLong (s n o w) : core (endLong s n o w) = core s := by
  simp [endLong]

@[simp] theorem core_countFallBack (s n o) : core (countFallBack s n o) = core s := by simp [countFallBack]

@[simp] theorem core_failOps (s d reason p) : core (failOps s d reason p) = core s := by simp [failOps]

@[simp] theorem core_failHeld (s) : core (failHeld s) = core s := by simp [failHeld]

@[simp] theorem core_noFill (s d m) : core (noFill s d m) = core s := by simp [noFill]

@[simp] theorem core_failWaiting (d s i) : core (failWaiting d s i) = core s := by simp [failWaiting]

@[simp] theorem core_failHomes (s ds) : core (failHomes s ds) = core s := by
  unfold failHomes
  refine core_foldl _ _ _ fun t d => ?_
  dsimp only
  rw [core_foldl]
  · simp
  · rintro u ⟨m, f⟩
    cases f <;> simp

end Sys2Proof.Machine
end

section
/-!
Functions that leave the core as it is, from the tallies to the pages and the hoist.
-/

namespace Sys2Proof.Machine

/-! Functions of `Machine/Tallies`. -/

@[simp] theorem core_stopScript (s c reason) : core (stopScript s c reason) = core s := by
  unfold stopScript
  dsimp only
  split <;> simp

@[simp] theorem core_modeWrite (s w b v) : core (modeWrite s w b v) = core s := by simp [modeWrite]

/-! Functions of `Machine/Faults`. -/

@[simp] theorem core_clearBody (s pg) : core (clearBody s pg) = core s := (rfl)

@[simp] theorem core_resetStope (s n) : core (resetStope s n) = core s := by simp [resetStope]

@[simp] theorem core_halfOff (s h) : core (halfOff s h) = core s := by simp [halfOff]

@[simp] theorem core_seal_ (s d reason) : core (seal_ s d reason) = core s := by simp [seal_]

@[simp] theorem core_stateChanged (s d n) : core (stateChanged s d n) = core s := by simp [stateChanged]

@[simp] theorem core_stopProgram (s n) : core (stopProgram s n) = core s := by
  unfold stopProgram
  dsimp only
  split <;> simp

@[simp] theorem core_standbyActs (s) : core (standbyActs s) = core s := by
  unfold standbyActs
  repeat' split
  all_goals rfl

@[simp] theorem core_farSplit (s f) : core (farSplit s f) = core s := by
  unfold farSplit
  split <;> simp

@[simp] theorem core_failFar (s d) : core (failFar s d) = core s := by simp [failFar]

@[simp] theorem core_crossing (s0) : core (crossing s0) = core s0 := by simp [crossing]

@[simp] theorem core_recordEvent (s e) : core (recordEvent s e).1 = core s := by simp [recordEvent]

@[simp] theorem core_splitPages (s) : core (splitPages s) = core s := (rfl)

/-! Functions of `Machine/Coherence`. -/

@[simp] theorem core_readHit (s d o c) : core (readHit s d o c) = core s := by simp [readHit]

@[simp] theorem core_lookUp (s d o) : core (lookUp s d o) = core s := by simp [lookUp]

@[simp] theorem core_startOp (s d o readLen) : core (startOp s d o readLen) = core s := by simp [startOp]

@[simp] theorem core_evictLines (s d cls deadline p) : core (evictLines s d cls deadline p) = core s := by simp [evictLines]

@[simp] theorem core_placeLine (s d row slot line leaseEnd cls deadline data) :
    core (placeLine s d row slot line leaseEnd cls deadline data) = core s := by simp [placeLine]

@[simp] theorem core_keepLine (s d line leaseEnd cls deadline data) : core (keepLine s d line leaseEnd cls deadline data) = core s := by
  unfold keepLine
  dsimp only
  repeat' split
  all_goals simp

theorem core_takeMsg {s : State} {d m p} (h : takeMsg s d m = some p) : core p.1 = core s := by
  unfold takeMsg at h
  dsimp only at h
  cases hf : (layer s d).inbox.find? (fun i => i.m = m) <;> rw [hf] at h <;> cases h
  simp

@[simp] theorem core_cohTake (s d opc m) : core (cohTake s d opc m).1 = core s := by
  unfold cohTake
  dsimp only
  cases ht : takeMsg s d m with
  | none => rfl
  | some q =>
    have hq := core_takeMsg ht
    dsimp only
    split <;> (try split) <;> (try split) <;> (try split) <;> (try split) <;> (try split) <;> simp [hq]

@[simp] theorem core_fillArrives (s d m) : core (fillArrives s d m) = core s := by simp [fillArrives]

@[simp] theorem core_discardTag (s d m) : core (discardTag s d m) = core s := by simp [discardTag]

@[simp] theorem core_sharerGone (s d m) : core (sharerGone s d m) = core s := by
  unfold sharerGone
  split <;> simp

@[simp] theorem core_releaseWrite (s d w) : core (releaseWrite s d w) = core s := by
  unfold releaseWrite
  dsimp only
  repeat' split
  all_goals simp

/-! Functions of `Machine/Async`. -/

@[simp] theorem core_withTicket (s n d remote) (judge : State → Nat → State) (h : ∀ t, core (judge s t) = core s) :
    core (withTicket s n d remote judge) = core s := by
  unfold withTicket
  dsimp only
  split <;> (try split) <;> (try split) <;> simp [h]

@[simp] theorem core_answerNow (s n d t w) : core (answerNow s n d t w) = core s := by simp [answerNow]

@[simp] theorem core_acceptAsync (s n d t o) : core (acceptAsync s n d t o) = core s := by simp [acceptAsync]

theorem core_admitOp {s t : State} {d i opc cls a len budget cap copyOut} (h : admitOp s d i opc cls a len budget cap copyOut = some t) :
    core t = core s := by
  unfold admitOp at h
  split at h <;> (try split at h) <;> (try split at h)
  case isFalse => exact core_takeCredit h
  all_goals cases h

@[simp] theorem core_judgeRemote (s n d imm r t) : core (judgeRemote s n d imm r t) = core s := by
  unfold judgeRemote
  dsimp only
  generalize ha : admitOp _ _ _ _ _ _ _ _ _ _ = o
  cases o with
  | none => simp
  | some u => simp [core_admitOp ha]

@[simp] theorem core_remoteIns (s st op d a b imm opc sub bell) :
    core (remoteIns s st op d a b imm opc sub bell) = core s := by simp [remoteIns]

/-! Functions of `Machine/Progress`. -/

@[simp] theorem core_setStep (s n) : core (setStep s n) = core s := by
  unfold setStep
  repeat' split
  all_goals rfl

@[simp] theorem core_beginChange (s n on) : core (beginChange s n on) = core s := by simp [beginChange]

@[simp] theorem core_nextChanges (n : Nat) (s f) : core (nextChanges n s f) = core s := by
  induction n generalizing s with
  | zero => rfl
  | succ n ih =>
    unfold nextChanges
    split <;> (try split) <;> simp [ih]

@[simp] theorem core_takeChanges (s f) : core (takeChanges s f) = core s := by simp [takeChanges]

@[simp] theorem core_requestDomain (s n on) : core (requestDomain s n on) = core s := by simp [requestDomain]

@[simp] theorem core_powerDomains (s) : core (powerDomains s) = core s := by simp [powerDomains]

/-! Functions of `Machine/Links`. -/

@[simp] theorem core_startTraining (s p) : core (startTraining s p) = core s := by simp [startTraining]

@[simp] theorem core_startFast (s p) : core (startFast s p) = core s := by simp [startFast]

@[simp] theorem core_replay (s p) : core (replay s p) = core s := by simp [replay]

@[simp] theorem core_takeAck (s p f) : core (takeAck s p f) = core s := by simp [takeAck]

@[simp] theorem core_sendNak (s p) : core (sendNak s p) = core s := by simp [sendNak]

@[simp] theorem core_receive (s p bs ty) : core (receive s p bs ty).1 = core s := by
  unfold receive
  dsimp only
  repeat' split
  all_goals simp

@[simp] theorem core_consume (s p f) : core (consume s p f) = core s := by simp [consume]

@[simp] theorem core_portCmd (s w p) (act : State → State) (h : ∀ t, core (act t) = core t) : core (portCmd s w p act) = core s := by
  unfold portCmd
  split <;> (try split) <;> simp [h]

@[simp] theorem core_startAgree (s p) : core (startAgree s p) = core s := by simp [startAgree]

@[simp] theorem core_attestSend (s p isRequest m) : core (attestSend s p isRequest m) = core s := by simp [attestSend]

@[simp] theorem core_attestAsk (s p r q) : core (attestAsk s p r q) = core s := by simp [attestAsk]

@[simp] theorem core_beginAsking (s p) : core (beginAsking s p) = core s := by simp [beginAsking]

@[simp] theorem core_beginAttest (s p) : core (beginAttest s p) = core s := by simp [beginAttest]

@[simp] theorem core_applyAgree (s p compared) : core (applyAgree s p compared) = core s := by simp [applyAgree]

@[simp] theorem core_reagree (s d) : core (reagree s d) = core s := by simp [reagree]

/-! Functions of `Machine/Program`. -/

@[simp] theorem core_countReject (s) : core (countReject s) = core s := by simp [countReject]

@[simp] theorem core_refuseCmd (s w n) : core (refuseCmd s w n) = core s := by simp [refuseCmd]

@[simp] theorem core_imageNext (s n) : core (imageNext s n) = core s := by simp [imageNext]

@[simp] theorem core_tendLoads (s) : core (tendLoads s) = core s := by simp [tendLoads]

@[simp] theorem core_progLoad (s w n) : core (progLoad s w n) = core s := by simp [progLoad]

@[simp] theorem core_progLoaded (s n) : core (progLoaded s n) = core s := by simp [progLoaded]

@[simp] theorem core_progLaunch (s w n) : core (progLaunch s w n) = core s := by simp [progLaunch]

@[simp] theorem core_progStop (s n) : core (progStop s n) = core s := by simp [progStop]

/-! Functions of `Machine/Boot`. -/

@[simp] theorem core_recordTrip (s) : core (recordTrip s) = core s := by simp [recordTrip]

@[simp] theorem core_chainError (s) : core (chainError s) = core s := (rfl)

@[simp] theorem core_pinFuncWrite (s w hi v) : core (pinFuncWrite s w hi v) = core s := by
  simp only [pinFuncWrite, core_ite, core_withPins, core_wr, core_recordRefused, core_refuseWrite, ite_self]

/-! Functions of `Machine/Commits`. -/

@[simp] theorem core_cryptNow (s) : core (cryptNow s) = core s := by simp [cryptNow]

@[simp] theorem core_takeSnapshot (s d page g) : core (takeSnapshot s d page g) = core s := by simp [takeSnapshot]

@[simp] theorem core_beginPoint (s d p) : core (beginPoint s d p) = core s := by simp [beginPoint]

@[simp] theorem core_keepAssay (old s q) : core (keepAssay old s q) = core s := by
  simp [keepAssay]

/-! Functions of `Machine/HostRegs`. -/

@[simp] theorem core_byHost (s pg) (act : State → State) (h : core (act s) = core s) : core (byHost s pg act) = core s := by
  unfold byHost
  split <;> (try split) <;> simp [h]

@[simp] theorem core_byAgent (s w pg) (act : State → State) (h : core (act s) = core s) : core (byAgent s w pg act) = core s := by
  unfold byAgent
  split <;> simp [h]

@[simp] theorem core_rqTail (s w v) : core (rqTail s w v) = core s := by simp [rqTail]

@[simp] theorem core_cqHead (s w v) : core (cqHead s w v) = core s := by simp [cqHead]

@[simp] theorem core_queueCmd (s w v) : core (queueCmd s w v) = core s := by simp [queueCmd]

@[simp] theorem core_clearPage (s pg) : core (clearPage s pg) = core s := (rfl)

@[simp] theorem core_doorbellClear (s v) : core (doorbellClear s v) = core s := by
  unfold doorbellClear
  repeat' split
  all_goals rfl

@[simp] theorem core_dbMaskHost (s w v) : core (dbMaskHost s w v) = core s := by simp [dbMaskHost]

@[simp] theorem core_dbMaskHf (s w v) : core (dbMaskHf s w v) = core s := by simp [dbMaskHf]

@[simp] theorem core_popHead (s m) : core (popHead s m) = core s := by
  unfold popHead
  split <;> simp

@[simp] theorem core_pop (s m) : core (pop s m) = core s := by simp [pop]

/-! Functions of `Machine/HostReqs`. -/

theorem core_judgeHost {s t : State} {r before} (h : judgeHost s r before = .go t) : core t = core s := by
  unfold judgeHost at h
  dsimp only at h
  split at h <;> (try split at h)
  case isFalse.isFalse =>
    cases ha : admitOp s 0 .host r.opc r.cls r.addr r.len (r.budget s) (hostCap s r.cls) true with
    | none => rw [ha] at h; cases h
    | some u => rw [ha] at h; cases h; exact core_admitOp ha
  all_goals cases h

@[simp] theorem core_keepOp (s o) : core (keepOp s o) = core s := by simp [keepOp]

@[simp] theorem core_takeRequest (s bs) : core (takeRequest s bs) = core s := by
  unfold takeRequest
  dsimp only
  split
  · simp
  · cases hj : judgeHost s (requestOp bs) with
    | denied => simp
    | refused b => simp
    | go t =>
      have ht := core_judgeHost hj
      dsimp only
      split <;> simp [ht]

theorem core_judgePieces {x : ApAccess} {s : State} {before ps q} (h : judgePieces x s before ps = some q) : core q.1 = core s := by
  induction ps generalizing s before q with
  | nil => cases h; rfl
  | cons p rest ih =>
    unfold judgePieces at h
    dsimp only at h
    cases hj : judgeHost s (apOp x p) before with
    | denied =>
      rw [hj] at h
      obtain ⟨u, hu, rfl⟩ := Option.map_eq_some_iff.1 h
      simpa using ih hu
    | refused b =>
      rw [hj] at h
      cases b with
      | false =>
        obtain ⟨u, hu, rfl⟩ := Option.map_eq_some_iff.1 h
        simpa using ih hu
      | true => cases h
    | go t =>
      rw [hj] at h
      obtain ⟨u, hu, rfl⟩ := Option.map_eq_some_iff.1 h
      simpa [core_judgeHost hj] using ih hu

@[simp] theorem core_putAp (s x) : core (putAp s x) = core s := (rfl)

@[simp] theorem core_issueAp (s x) : core (issueAp s x) = core s := by
  unfold issueAp
  dsimp only
  cases hj : judgePieces x s [] (apPieces x.addr x.len) with
  | none =>
    dsimp only
    split <;> simp
  | some q =>
    have hq := core_judgePieces hj
    dsimp only
    split <;> (try split) <;> simp [hq]

@[simp] theorem core_releaseReadsN (n : Nat) (s) : core (releaseReadsN n s) = core s := by
  induction n generalizing s with
  | zero => rfl
  | succ n ih =>
    unfold releaseReadsN
    split <;> simp [ih]

@[simp] theorem core_releaseReads (s) : core (releaseReads s) = core s := by simp [releaseReads]

/-! Functions of `Machine/Attest`. -/

@[simp] theorem core_hostSpdm (ver code id message s) : core (hostSpdm ver code id message s) = core s := by
  unfold hostSpdm
  repeat' split
  all_goals rfl

@[simp] theorem core_attestFails (s p) : core (attestFails s p) = core s := by simp [attestFails]

@[simp] theorem core_attestDone (s p k) : core (attestDone s p k) = core s := by simp [attestDone]

@[simp] theorem core_maybeExchange (s p) : core (maybeExchange s p) = core s := by simp [maybeExchange]

@[simp] theorem core_takeSpdmResponse (s p a) : core (takeSpdmResponse s p a) = core s := by
  unfold takeSpdmResponse
  dsimp only
  split <;> simp

@[simp] theorem core_takeSpdmRequest (s p q) : core (takeSpdmRequest s p q) = core s := by
  unfold takeSpdmRequest
  dsimp only
  repeat' split
  all_goals simp

@[simp] theorem core_takeFragment (s p b) : core (takeFragment s p b) = core s := by simp [takeFragment]

/-! Functions of `Machine/FaceOps`. -/

@[simp] theorem core_endAtOnce (s n d t k w) : core (endAtOnce s n d t k w) = core s := by simp [endAtOnce]

@[simp] theorem core_queueLong (s n d t dl k addr canary j) : core (queueLong s n d t dl k addr canary j) = core s := by simp [queueLong]

@[simp] theorem core_copyTile (s st op desc area due) : core (copyTile s st op desc area due) = core s := by simp [copyTile]

@[simp] theorem core_longIns (s st op d a b imm k) (judge : State → Nat → Nat → State × (W32 ⊕ Job))
    (select : State → Nat → Job → Nat → State × Bool) (hj : ∀ t n a, core (judge t n a).1 = core t)
    (hs : ∀ t n j dl, core (select t n j dl).1 = core t) : core (longIns s st op d a b imm k judge select) = core s := by
  unfold longIns
  refine core_issue _ _ _ _ _ _ _ _ ?_
  dsimp only
  split
  · rfl
  · refine core_withTicket _ _ _ _ _ fun t => ?_
    split
    · simp
    · generalize hg : judge s st.val (areg s st.val a.toNat).toNat = g
      have h1 : core g.1 = core s := hg ▸ hj _ _ _
      obtain ⟨s1, w | j⟩ := g
      · simpa using h1
      · have h2 := hs s1 st.val j (now s1 (st.val / 256) + budgetOf s1 st.val imm)
        dsimp only at h1 ⊢
        split <;> (try split) <;> simp [h1, h2]

@[simp] theorem core_selectCanary (s n j dl) : core (selectCanary s n j dl).1 = core s := by simp [selectCanary]

@[simp] theorem core_putHead (s n o) : core (putHead s n o) = core s := by simp [putHead]

@[simp] theorem core_countChecks (s n p) : core (countChecks s n p) = core s := by simp [countChecks]

@[simp] theorem core_setCanary (s st p) : core (setCanary s st p) = core s := (rfl)

@[simp] theorem core_faceClear (s w n v) : core (faceClear s w n v) = core s := by simp [faceClear]

/-! Functions of `Machine/SweepOps`. -/

@[simp] theorem core_noCanary (s x1 x2 x3) : core (noCanary s x1 x2 x3).1 = core s := by simp [noCanary]

@[simp] theorem core_settleSweep (s n o st bits) : core (settleSweep s n o st bits) = core s := by simp [settleSweep]

@[simp] theorem core_countQuant (s n d q) : core (countQuant s n d q) = core s := by simp [countQuant]

/-! Functions of `Machine/Waits`. -/

@[simp] theorem core_endWaitf (s n d st reason) : core (endWaitf s n d st reason) = core s := by simp [endWaitf]

/-! Functions of `Machine/Banks`. -/

@[simp] theorem core_reRead (s b st o) : core (reRead s b st o) = core s := by
  unfold reRead
  dsimp only
  split <;> simp

@[simp] theorem core_markRetried (s st) : core (markRetried s st) = core s := by
  unfold markRetried
  dsimp only
  split <;> simp

@[simp] theorem core_stallPortA (s pa) : core (stallPortA s pa) = core s := by
  unfold stallPortA
  split <;> simp

@[simp] theorem core_markBegun (s x) : core (markBegun s x) = core s := by
  unfold markBegun
  split <;> simp

@[simp] theorem core_leaveBank (s b x) : core (leaveBank s b x) = core s := by simp [leaveBank]

@[simp] theorem core_keepBank (s b x) : core (keepBank s b x) = core s := by simp [keepBank]

@[simp] theorem core_afterWordB (s b x) : core (afterWordB s b x) = core s := by simp [afterWordB]

@[simp] theorem core_denyAccess (s b x count) : core (denyAccess s b x count) = core s := by simp [denyAccess]

@[simp] theorem core_ringFor (s x) : core (ringFor s x) = core s := by
  unfold ringFor
  split <;> (try split) <;> simp

/-! Functions of `Machine/Hoist`. -/

@[simp] theorem core_startScript (s c r) : core (startScript s c r) = core s := by simp [startScript]

@[simp] theorem core_judgeHoist (s n d imm addr sel t) : core (judgeHoist s n d imm addr sel t) = core s := by simp [judgeHoist]

@[simp] theorem core_channelLaunch (s w c) : core (channelLaunch s w c) = core s := by simp [channelLaunch]

@[simp] theorem core_channelStop (s w c) : core (channelStop s w c) = core s := by simp [channelStop]

@[simp] theorem core_hoistClear (s w e v) : core (hoistClear s w e v) = core s := by simp [hoistClear]

/-! Functions of `Machine/Keys`. -/

@[simp] theorem core_keyCmd (s w act) : core (keyCmd s w act) = core s := by simp [keyCmd]

/-! Functions of `Machine/PowerHeat`. -/

@[simp] theorem core_domCmd (s w f idx on) : core (domCmd s w f idx on) = core s := by simp [domCmd]

@[simp] theorem core_stackOn (s k) : core (stackOn s k) = core s := by simp [stackOn]

@[simp] theorem core_portPowered (s p) : core (portPowered s p) = core s := by simp [portPowered]

@[simp] theorem core_dropRequests (s k) : core (dropRequests s k) = core s := by simp [dropRequests]

/-! Functions of `Machine/Stacks`. -/

@[simp] theorem core_sendNotice (s k st) : core (sendNotice s k st) = core s := by simp [sendNotice]

@[simp] theorem core_correctedAt (s k w) : core (correctedAt s k w) = core s := by simp [correctedAt]

@[simp] theorem core_meetErrors (s k x errs) : core (meetErrors s k x errs) = core s := by simp [meetErrors]

@[simp] theorem core_setThrottle (s k bulk scav) : core (setThrottle s k bulk scav) = core s := by simp [setThrottle]

@[simp] theorem core_failStackQueue (s k reason) : core (failStackQueue s k reason) = core s := by
  unfold failStackQueue
  refine (core_foldl _ _ _ fun t x => ?_).trans (by simp)
  cases x.client <;> simp

@[simp] theorem core_stackCriticalEntry (s k) : core (stackCriticalEntry s k) = core s := by simp [stackCriticalEntry]

@[simp] theorem core_stackHotEntry (s k c) : core (stackHotEntry s k c) = core s := by simp [stackHotEntry]

@[simp] theorem core_stackResume (s w k) : core (stackResume s w k) = core s := by simp [stackResume]

/-! Functions of `Machine/TimeOps`. -/

@[simp] theorem core_timeWait (s p) : core (timeWait s p) = core s := by simp [timeWait]

@[simp] theorem core_queueTime (s p) : core (queueTime s p) = core s := by simp [queueTime]

@[simp] theorem core_floorTarget (s w d v) : core (floorTarget s w d v) = core s := by simp [floorTarget]

@[simp] theorem core_throttleWrite (s w d v) : core (throttleWrite s w d v) = core s := by simp [throttleWrite]

/-! Functions of `Machine/Pages`. -/

@[simp] theorem core_tableWrite (s w pg off v) : core (tableWrite s w pg off v) = core s := by
  unfold tableWrite
  dsimp only
  repeat' split
  all_goals simp

@[simp] theorem core_profileWrite (s w pg off v) : core (profileWrite s w pg off v) = core s := by simp [profileWrite]

@[simp] theorem core_exclWrite (s w pg v) : core (exclWrite s w pg v) = core s := by simp [exclWrite]

@[simp] theorem core_mailboxCtl (s w m v) : core (mailboxCtl s w m v) = core s := by simp [mailboxCtl]

@[simp] theorem core_portCommand (s w p v) : core (portCommand s w p v) = core s := by
  unfold portCommand
  split <;> simp

@[simp] theorem core_progCommand (s w n v) : core (progCommand s w n v) = core s := by
  unfold progCommand
  split <;> simp

@[simp] theorem core_channelCommand (s w c v) : core (channelCommand s w c v) = core s := by
  unfold channelCommand
  split <;> simp

@[simp] theorem core_keyCommand (s w v) : core (keyCommand s w v) = core s := by
  unfold keyCommand
  split <;> simp

@[simp] theorem core_domainCommand (s w f v) : core (domainCommand s w f v) = core s := by simp [domainCommand]

@[simp] theorem core_plainWrite (s w pg off k r v) : core (plainWrite s w pg off k r v) = core s := by
  unfold plainWrite
  split <;> simp

@[simp] theorem core_badAccess (s pg0) : core (badAccess s pg0) = core s := by simp [badAccess]

@[simp] theorem core_msixPut (s o x) : core (msixPut s o x) = core s := by simp [msixPut]

/-! Functions of `Machine/HoistAccess`. -/

@[simp] theorem core_putInner (s c i) : core (putInner s c i) = core s := by simp [putInner]

@[simp] theorem core_countMeets (s c reReads busy) : core (countMeets s c reReads busy) = core s := by simp [countMeets]

@[simp] theorem core_startInner (s c r unit opc sub a len bell data) : core (startInner s c r unit opc sub a len bell data) = core s := by
  unfold startInner
  dsimp only
  cases hj : judgeInner s c r opc sub a len with
  | no a b => simp
  | later b => cases b <;> simp
  | go t => simp [core_judgeInner hj]

@[simp] theorem core_innerResult (s c i) : core (innerResult s c i).st = core s := by
  unfold innerResult
  cases i.res with
  | none => rfl
  | some q =>
    dsimp only
    split
    · cases i.isRead <;> simp [Got.st]
    · split <;> rfl

@[simp] theorem core_keepOk (s c unit isRead data) : core (keepOk s c unit isRead data).st = core s := core_putInner _ _ _

@[simp] theorem core_recordDesc (s c r status reason check flags) :
    core (recordDesc s c r status reason check flags) = core s := by simp [recordDesc]

@[simp] theorem core_endDescAt (s c idx status reason) : core (endDescAt s c idx status reason) = core s := by
  unfold endDescAt
  split <;> simp

@[simp] theorem core_endDesc (s c status reason) : core (endDesc s c status reason) = core s := by simp [endDesc]

@[simp] theorem core_malformed (s c) : core (malformed s c) = core s := by simp [malformed]

@[simp] theorem core_doneDesc (s c n) : core (doneDesc s c n) = core s := by
  unfold doneDesc
  split <;> simp

@[simp] theorem core_poisonDesc (s c n) : core (poisonDesc s c n) = core s := by
  unfold poisonDesc
  split <;> simp

/-! Functions of `Machine/HoistSteps`. -/

@[simp] theorem core_endStep (s c lead sides done) : core (endStep s c lead sides done) = core s := by
  unfold endStep
  split <;> simp

@[simp] theorem core_poisonStep (s c lead sides check) : core (poisonStep s c lead sides check) = core s := by
  unfold poisonStep
  split <;> simp

@[simp] theorem core_startBlock (s c) : core (startBlock s c) = core s := by simp [startBlock]

@[simp] theorem core_countStepQuant (s c q) : core (countStepQuant s c q) = core s := by simp [countStepQuant]

@[simp] theorem core_stepBlock (s c r lead src) : core (stepBlock s c r lead src).1 = core s := by simp [stepBlock]

@[simp] theorem core_loadTable (s c slot rec_) : core (loadTable s c slot rec_) = core s := by simp [loadTable]

@[simp] theorem core_flagStep (s c r) : core (flagStep s c r) = core s := by
  unfold flagStep
  cases r.find (uLead 0) false with
  | none => rfl
  | some i =>
    have hi := core_innerResult s c i
    cases hg : innerResult s c i <;> rw [hg] at hi <;> simp_all [Got.st]

@[simp] theorem core_misplaced (s c slot) : core (misplaced s c slot) = core s := by simp [misplaced]

/-! Functions of `Machine/HoistCmds`. -/

@[simp] theorem core_sendFlag (s c r d) : core (sendFlag s c r d) = core s := by simp [sendFlag]

/-! Functions of `Machine/Routing`. -/

@[simp] theorem core_noticeArrives (s m) : core (noticeArrives s m) = core s := by
  unfold noticeArrives
  dsimp only
  split <;> simp

@[simp] theorem core_sendNoticeFor (s d reason m) : core (sendNoticeFor s d reason m) = core s := by simp [sendNoticeFor]

@[simp] theorem core_leaveQueue (s d i q) : core (leaveQueue s d i q) = core s := by
  unfold leaveQueue
  split <;> simp

@[simp] theorem core_arriveHere (s d via m hops) : core (arriveHere s d via m hops) = core s := by simp [arriveHere]

@[simp] theorem core_payloadHere (s d via p) : core (payloadHere s d via p) = core s := by
  unfold payloadHere
  split <;> simp

@[simp] theorem core_toPort (s p q) : core (toPort s p q) = core s := by simp [toPort]

@[simp] theorem core_forwardFrame (s d i q) : core (forwardFrame s d i q) = core s := by
  unfold forwardFrame
  split <;> (try split) <;> simp

@[simp] theorem core_dropAtPort (s d n index) : core (dropAtPort s d n index) = core s := by
  induction n generalizing index with
  | zero => rfl
  | succ n ih =>
    unfold dropAtPort
    dsimp only
    split <;> (try split) <;> simp [ih]

@[simp] theorem core_opArrives (s p f m) : core (opArrives s p f m) = core s := by
  unfold opArrives
  split <;> (try split) <;> simp

@[simp] theorem core_stompOn (f q s e) : core (stompOn f q s e) = core s := by simp [stompOn]

@[simp] theorem core_stompCopy (s p f) : core (stompCopy s p f) = core s := by
  unfold stompCopy
  dsimp only
  split <;> simp

@[simp] theorem core_stompRest (s t p bs ty) : core (stompRest s t p bs ty) = core t := by
  unfold stompRest
  split <;> (try split) <;> (try split) <;> simp

/-! Functions of `Machine/Messages`. -/

@[simp] theorem core_unhold (s d m) : core (unhold s d m) = core s := by simp [unhold]

@[simp] theorem core_combinePart (s d p m c) : core (combinePart s d p m c) = core s := by simp [combinePart]

@[simp] theorem core_received (s d o) : core (received s d o) = core s := by simp [received]

@[simp] theorem core_lateComp (s d m inside) : core (lateComp s d m inside) = core s := by simp [lateComp]

@[simp] theorem core_compArrives (s d m inside) : core (compArrives s d m inside) = core s := by
  unfold compArrives
  split <;> simp

@[simp] theorem core_resend (s d o) : core (resend s d o) = core s := by simp [resend]

end Sys2Proof.Machine
end

section
/-!
What every step keeps: memory's form, the floors and the revoked keys; and, but for a reset, the safe dies and a node that is held.
-/

namespace Sys2Proof.Machine

/-- What a reset keeps too. -/
structure Core.Lasts (x y : Core) : Prop where
  mem : Memory.wf x.mem = true → Memory.wf y.mem = true
  floors : ∀ i < 3, x.floors.getD i 0 ≤ y.floors.getD i 0
  revoked : x.revoked ⊆ y.revoked

theorem Die.zero_or_one : ∀ e : Die, e = 0 ∨ e = 1 := by decide

/-- A die's service. -/
def Core.svc (x : Core) (d : Nat) : Service := Sparse.get Service.reset x.service d

/-- A die is safe. -/
def Core.isSafe (x : Core) (d : Nat) : Bool := decide ((x.svc d).state = 4)

/-- The dies are safe together, but in split mode, where each drains or is safe. -/
def Core.Together (x : Core) : Prop :=
  (x.split = false → x.isSafe 0 = x.isSafe 1) ∧ (x.split = true → ∀ d : Die, (x.svc d).state = 4 ∨ (x.svc d).state = 5)

/-- A node ID held since before the SCLK cycle. -/
def Core.Held (x : Core) : Prop := x.assigned = true ∧ x.cycleFrame = none ∧ x.cycleAssign = false

/-- What all but a reset keeps; with `still`, memory aside the core is the same. -/
structure Core.Kept (still : Bool) (x y : Core) : Prop extends Core.Lasts x y where
  safe : x.Together → y.Together ∧ ∀ d : Die, x.isSafe d = true → y.isSafe d = true ∧ (y.svc d).reason = (x.svc d).reason
  node : x.Held → y.Held ∧ y.node = x.node ∧ y.profile = x.profile
  rest : still = true → y = { x with mem := y.mem }

theorem Core.Lasts.refl (x : Core) : x.Lasts x := ⟨id, fun _ _ => Nat.le_refl _, fun _ h => h⟩

theorem Core.Lasts.trans {x y z : Core} (h : x.Lasts y) (k : y.Lasts z) : x.Lasts z :=
  ⟨k.mem ∘ h.mem, fun i hi => Nat.le_trans (h.floors i hi) (k.floors i hi), fun _ m => k.revoked (h.revoked m)⟩

@[simp] theorem Core.Kept.refl (b : Bool) (x : Core) : x.Kept b x :=
  ⟨.refl x, fun h => ⟨h, fun _ hd => ⟨hd, rfl⟩⟩, fun h => ⟨h, rfl, rfl⟩, fun _ => rfl⟩

theorem Core.Kept.trans {b : Bool} {x y z : Core} (h : x.Kept b y) (k : y.Kept b z) : x.Kept b z where
  toLasts := h.toLasts.trans k.toLasts
  safe hx := by
    obtain ⟨hy, h1⟩ := h.safe hx
    obtain ⟨hz, k1⟩ := k.safe hy
    exact ⟨hz, fun d hd => ⟨(k1 d (h1 d hd).1).1, (k1 d (h1 d hd).1).2.trans (h1 d hd).2⟩⟩
  node hx := by
    obtain ⟨hy, hn, hp⟩ := h.node hx
    obtain ⟨hz, kn, kp⟩ := k.node hy
    exact ⟨hz, kn.trans hn, kp.trans hp⟩
  rest hb := (k.rest hb).trans (congrArg (fun w : Core => { w with mem := z.mem }) (h.rest hb))

theorem Core.Kept.weaken {b : Bool} {x y : Core} (h : x.Kept b y) : x.Kept false y := ⟨h.toLasts, h.safe, h.node, nofun⟩

section
variable {still : Bool} {x₀ : Core}

/-- A change of memory alone. -/
theorem Core.Kept.setMem {x : Core} {m : List Host.Cell} (h : x₀.Kept still x) (hm : Memory.wf x.mem = true → Memory.wf m = true) :
    x₀.Kept still { x with mem := m } :=
  h.trans ⟨⟨hm, fun _ _ => Nat.le_refl _, fun _ h => h⟩, fun h => ⟨h, fun _ hd => ⟨hd, rfl⟩⟩, fun h => ⟨h, rfl, rfl⟩, fun _ => rfl⟩

/-- A change of the time blocks alone. -/
theorem Core.Kept.setTimes {x : Core} {t : Sparse TimeBlk} (h : x₀.Kept false x) : x₀.Kept false { x with times := t } :=
  h.trans ⟨⟨id, fun _ _ => Nat.le_refl _, fun _ h => h⟩, fun h => ⟨h, fun _ hd => ⟨hd, rfl⟩⟩, fun h => ⟨h, rfl, rfl⟩, nofun⟩

/-- Floors that are no lower. -/
theorem Core.Kept.setFloors {x : Core} {l : List Nat} (h : x₀.Kept false x) (hl : ∀ i < 3, x.floors.getD i 0 ≤ l.getD i 0) :
    x₀.Kept false { x with floors := l } :=
  h.trans ⟨⟨id, hl, fun _ h => h⟩, fun h => ⟨h, fun _ hd => ⟨hd, rfl⟩⟩, fun h => ⟨h, rfl, rfl⟩, nofun⟩

/-- More keys revoked. -/
theorem Core.Kept.setRevoked {x : Core} {l : List Nat} (h : x₀.Kept false x) (hl : x.revoked ⊆ l) : x₀.Kept false { x with revoked := l } :=
  h.trans ⟨⟨id, fun _ _ => Nat.le_refl _, hl⟩, fun h => ⟨h, fun _ hd => ⟨hd, rfl⟩⟩, fun h => ⟨h, rfl, rfl⟩, nofun⟩

@[simp] theorem kept_ite {p : Prop} [Decidable p] {x y : Core} :
    x₀.Kept still (if p then x else y) ↔ if p then x₀.Kept still x else x₀.Kept still y := by
  split <;> rfl

theorem kept_if {p : Prop} [Decidable p] {s t : State} (hs : x₀.Kept still (core s)) (ht : x₀.Kept still (core t)) :
    x₀.Kept still (core (if p then s else t)) := by
  split <;> assumption

theorem kept_ite_fst {α : Type} {p : Prop} [Decidable p] {x y : State × α} (hx : x₀.Kept still (core x.1)) (hy : x₀.Kept still (core y.1)) :
    x₀.Kept still (core (if p then x else y).1) := by
  split <;> assumption

/-- A fold of functions that keep. -/
@[simp] theorem kept_foldl {α : Type} {f : State → α → State} {l : List α} {s : State} (h : x₀.Kept still (core s))
    (hf : ∀ t a, x₀.Kept still (core t) → x₀.Kept still (core (f t a))) : x₀.Kept still (core (l.foldl f s)) := by
  induction l generalizing s with
  | nil => exact h
  | cons a l ih => exact ih (hf s a h)

theorem kept_foldl_mem {α : Type} {f : State → α → State} {l : List α} {s : State} (h : x₀.Kept still (core s))
    (hf : ∀ t, ∀ a ∈ l, x₀.Kept still (core t) → x₀.Kept still (core (f t a))) : x₀.Kept still (core (l.foldl f s)) := by
  induction l generalizing s with
  | nil => exact h
  | cons a l ih => exact ih (hf s a (.head _) h) fun t e he => hf t e (.tail _ he)

theorem kept_bind {g : Got} {f : State → List Byte → Got} (hg : x₀.Kept still (core g.st))
    (hf : ∀ t bs, x₀.Kept still (core t) → x₀.Kept still (core (f t bs).st)) : x₀.Kept still (core (g.bind f).st) := by
  cases g with
  | ok s bs => exact hf s bs hg
  | wait s => exact hg
  | bad s a b => exact hg

/-! Who is safe. -/

/-- One die's service is changed. -/
def Core.putSvc (x : Core) (d : Nat) (v : Service) : Core := { x with service := Sparse.set Service.reset x.service d v }

@[simp] theorem core_setService (s d v) : core (setService s d v) = (core s).putSvc d v := (rfl)

theorem core_svc (s d) : (core s).svc d = service s d := rfl

theorem core_isSafe (s d) : (core s).isSafe d = Machine.isSafe s d := rfl

@[simp] theorem Core.split_putSvc (x : Core) (d : Nat) (v : Service) : (x.putSvc d v).split = x.split := rfl

theorem Core.svc_putSvc_same (x : Core) (d : Nat) {v : Service} (h : v ≠ Service.reset) : (x.putSvc d v).svc d = v :=
  Sparse.get_set_same _ _ _ _ h

theorem Core.svc_putSvc_ne (x : Core) {d e : Nat} (v : Service) (h : e ≠ d) : (x.putSvc d v).svc e = x.svc e :=
  Sparse.get_set_ne _ _ _ _ _ h

theorem Service.ne_reset {v : Service} (h : v.state ≠ 0) : v ≠ Service.reset := fun hv => h (hv ▸ rfl)

/-- A change of who is served that leaves the safe dies as they are, together where they were. -/
theorem Core.Kept.serve {x y : Core} (h : x₀.Kept false x) (hy : y = { x with service := y.service, split := y.split })
    (hs : x.Together → y.Together ∧ ∀ d : Die, x.isSafe d = true → y.svc d = x.svc d) : x₀.Kept false y := by
  rw [hy]
  rw [hy] at hs
  refine h.trans ⟨⟨id, fun _ _ => Nat.le_refl _, fun _ m => m⟩, fun hx => ?_, fun m => ⟨m, rfl, rfl⟩, nofun⟩
  obtain ⟨ht, he⟩ := hs hx
  exact ⟨ht, fun d hd => ⟨by simpa [Core.isSafe, he d hd] using hd, by rw [he d hd]⟩⟩

/-- A die that is not safe, and not in split mode, takes a state that is not the safe one. -/
theorem Core.Kept.putUnsafe {x : Core} {d : Nat} {v : Service} (h : x₀.Kept false x)
    (hd : x.Together → d < 2 → x.split = false ∧ x.isSafe d = false)
    (hv : v.state ≠ 0) (h4 : v.state ≠ 4) : x₀.Kept false (x.putSvc d v) := by
  refine h.serve rfl fun hx => ?_
  by_cases h2 : 2 ≤ d
  · have hsvc : ∀ e : Die, (x.putSvc d v).svc e = x.svc e := fun e => x.svc_putSvc_ne v (by omega)
    refine ⟨⟨fun hn => ?_, fun hs e => ?_⟩, fun e _ => hsvc e⟩
    · have h0 : (x.putSvc d v).svc 0 = x.svc 0 := hsvc 0
      have h1 : (x.putSvc d v).svc 1 = x.svc 1 := hsvc 1
      simpa [Core.isSafe, h0, h1] using hx.1 hn
    · rw [hsvc e]
      exact hx.2 hs e
  · obtain ⟨hn, hu⟩ := hd hx (by omega)
    have hall : ∀ e < 2, x.isSafe e = false := by
      have h01 := hx.1 hn
      intro e he
      obtain rfl | rfl : d = 0 ∨ d = 1 := by omega
      all_goals obtain rfl | rfl : e = 0 ∨ e = 1 := by omega
      all_goals simp_all
    have hnew : ∀ e < 2, (x.putSvc d v).isSafe e = false := by
      intro e he
      by_cases hed : e = d
      · subst hed
        simp [Core.isSafe, x.svc_putSvc_same e (Service.ne_reset hv), h4]
      · rw [Core.isSafe, x.svc_putSvc_ne v hed]
        exact hall e he
    refine ⟨⟨fun _ => ?_, fun hs => ?_⟩, fun e he => ?_⟩
    · rw [hnew 0 (by omega), hnew 1 (by omega)]
    · simp [hn] at hs
    · rw [hall e e.isLt] at he
      cases he

/-- Where a die neither is safe nor drains alone, the dies are not in split mode, and neither is safe. -/
theorem Core.Together.open {x : Core} (h : x.Together) {d : Nat} (hd : d < 2) (h4 : (x.svc d).state ≠ 4) (h5 : (x.svc d).state ≠ 5) :
    x.split = false ∧ ∀ e < 2, x.isSafe e = false := by
  have hs : x.split = false := by
    refine Classical.byContradiction fun hs => ?_
    exact (h.2 (by simpa using hs) ⟨d, hd⟩).elim h4 h5
  have h01 := h.1 hs
  refine ⟨hs, fun e he => ?_⟩
  have hx : x.isSafe d = false := by simp [Core.isSafe, h4]
  obtain rfl | rfl : d = 0 ∨ d = 1 := by omega
  all_goals obtain rfl | rfl : e = 0 ∨ e = 1 := by omega
  all_goals simp_all

/-- In split mode a die enters the safe state alone. -/
theorem Core.Kept.putSafe {x : Core} {d : Nat} {v : Service} (h : x₀.Kept false x) (hs : x.Together → x.split = true) (hd : x.isSafe d = false)
    (hv : v.state = 4) : x₀.Kept false (x.putSvc d v) := by
  have hr : v ≠ Service.reset := Service.ne_reset (by omega)
  refine h.serve rfl fun hx => ⟨⟨fun hn => ?_, fun _ e => ?_⟩, fun e he => x.svc_putSvc_ne v fun hed => ?_⟩
  · exact absurd (hs hx) (by simpa using hn)
  · by_cases hed : e.val = d
    · rw [hed, x.svc_putSvc_same d hr]
      exact .inl hv
    · rw [x.svc_putSvc_ne v hed]
      exact hx.2 (hs hx) e
  · rw [hed, hd] at he
    cases he

/-- The dies enter the safe state together. -/
theorem Core.Kept.putBothSafe {x : Core} {v w : Service} (h : x₀.Kept false x) (hd : x.Together → ∀ e < 2, x.isSafe e = false) (hv : v.state = 4)
    (hw : w.state = 4) : x₀.Kept false ((x.putSvc 0 v).putSvc 1 w) := by
  have h0 : ((x.putSvc 0 v).putSvc 1 w).svc 0 = v := by
    rw [Core.svc_putSvc_ne _ _ (by decide), Core.svc_putSvc_same _ _ (Service.ne_reset (by omega))]
  have h1 : ((x.putSvc 0 v).putSvc 1 w).svc 1 = w := Core.svc_putSvc_same _ _ (Service.ne_reset (by omega))
  refine h.serve rfl fun hx => ⟨⟨fun _ => ?_, fun _ e => .inl ?_⟩, fun e he => ?_⟩
  · simp [Core.isSafe, h0, h1, hv, hw]
  · obtain rfl | rfl : e = 0 ∨ e = 1 := Die.zero_or_one e
    · exact (congrArg Service.state h0).trans hv
    · exact (congrArg Service.state h1).trans hw
  · rw [hd hx e e.isLt] at he
    cases he

/-- The dies take a state together that is not the safe one. -/
theorem Core.Kept.putBoth {x : Core} {v w : Service} (h : x₀.Kept false x) (h4 : (x.svc 0).state ≠ 4) (h5 : (x.svc 0).state ≠ 5) {n : Nat}
    (hv : v.state = n) (hw : w.state = n) (hn : n ≠ 0 ∧ n ≠ 4 ∧ n ≠ 5) : x₀.Kept false ((x.putSvc 0 v).putSvc 1 w) := by
  obtain ⟨n0, n4, n5⟩ := hn
  subst hv
  have h0 : (x.putSvc 0 v).svc 0 = v := x.svc_putSvc_same 0 (Service.ne_reset n0)
  refine (h.putUnsafe (fun hx _ => ?_) n0 n4).putUnsafe (fun hx _ => ?_) (by omega) (by omega)
  · obtain ⟨hs, hu⟩ := hx.open (by decide) h4 h5
    exact ⟨hs, hu 0 (by decide)⟩
  · obtain ⟨hs, hu⟩ := hx.open (d := 0) (by decide) (by rwa [h0]) (by rwa [h0])
    exact ⟨hs, hu 1 (by decide)⟩

/-- A service that keeps its state and reason. -/
theorem Core.Kept.putSame {x : Core} {d : Nat} {v : Service} (h : x₀.Kept false x) (hr : v ≠ Service.reset)
    (hv : v.state = (x.svc d).state ∧ v.reason = (x.svc d).reason) : x₀.Kept false (x.putSvc d v) := by
  have hsvc : ∀ e, ((x.putSvc d v).svc e).state = (x.svc e).state ∧ ((x.putSvc d v).svc e).reason = (x.svc e).reason := by
    intro e
    by_cases hed : e = d
    · rw [hed, x.svc_putSvc_same d hr]
      exact hv
    · rw [x.svc_putSvc_ne v hed]
      exact ⟨rfl, rfl⟩
  have hsafe : ∀ e, (x.putSvc d v).isSafe e = x.isSafe e := fun e => by rw [Core.isSafe, (hsvc e).1, Core.isSafe]
  refine h.trans ⟨⟨id, fun _ _ => Nat.le_refl _, fun _ m => m⟩, fun hx => ⟨⟨fun hn => ?_, fun hs e => ?_⟩, fun e he => ?_⟩,
    fun m => ⟨m, rfl, rfl⟩, nofun⟩
  · rw [hsafe, hsafe]
    exact hx.1 hn
  · rw [(hsvc e).1]
    exact hx.2 hs e
  · exact ⟨(hsafe e).trans he, (hsvc e).2⟩

/-- A die that is not safe takes a service. -/
def Core.alone (x : Core) (d : Nat) (v : Service) : Core := if x.isSafe d then x else x.putSvc d v

theorem Core.svc_alone (x : Core) (d e : Nat) {v : Service} (hv : v.state ≠ 0) :
    (x.alone d v).svc e = if e = d ∧ x.isSafe d = false then v else x.svc e := by
  cases h : x.isSafe d with
  | true => simp [Core.alone, h]
  | false =>
    by_cases hed : e = d
    · simp [Core.alone, h, hed, x.svc_putSvc_same d (Service.ne_reset hv)]
    · simp [Core.alone, h, hed, x.svc_putSvc_ne v hed]

theorem Core.alone_rest (x : Core) (d : Nat) (v : Service) : x.alone d v = { x with service := (x.alone d v).service } := by
  unfold Core.alone
  split <;> rfl

/-- In split mode the dies that are not safe drain alone. -/
theorem Core.Kept.splitUp {x : Core} {v w : Service} (h : x₀.Kept false x) (hv : v.state = 5) (hw : w.state = 5) :
    x₀.Kept false ((({ x with split := true } : Core).alone 0 v).alone 1 w) := by
  generalize hy : (({ x with split := true } : Core).alone 0 v).alone 1 w = y
  have hrest : y = { x with service := y.service, split := true } := by
    rw [← hy, Core.alone_rest _ 1, Core.alone_rest _ 0]
  have hsvc : ∀ e : Die, y.svc e = if x.isSafe e then x.svc e else if e = 0 then v else w := by
    intro e
    have h1 : (({ x with split := true } : Core).alone 0 v).isSafe 1 = x.isSafe 1 := by
      rw [Core.isSafe, Core.svc_alone _ _ _ (by omega), if_neg (by simp)]
      rfl
    rw [← hy, Core.svc_alone _ _ _ (by omega), h1, Core.svc_alone _ _ _ (by omega)]
    obtain rfl | rfl : e = 0 ∨ e = 1 := Die.zero_or_one e
    all_goals simp [Core.isSafe, Core.svc] <;> grind
  refine h.serve (hrest.trans (by rw [hrest])) fun _ => ⟨⟨fun hn => ?_, fun _ e => ?_⟩, fun e he => by rw [hsvc e, if_pos he]⟩
  · rw [hrest] at hn
    cases hn
  · rw [hsvc e]
    cases he : x.isSafe e with
    | true => exact .inl (of_decide_eq_true he)
    | false =>
      right
      rw [if_neg nofun]
      split <;> assumption

/-- A change of the node that no one holds, or that keeps what is held. -/
theorem Core.Kept.setNode {x : Core} {n : Nat} {a : Bool} {p : List Byte} {f : Option (List Byte × Bool)} {c : Bool} {u : Ns}
    (h : x₀.Kept false x)
    (hx : x.Held → n = x.node ∧ a = true ∧ p = x.profile ∧ f = none ∧ c = false) :
    x₀.Kept false { x with node := n, assigned := a, profile := p, cycleFrame := f, cycleAssign := c, up := u } := by
  refine h.trans ⟨⟨id, fun _ _ => Nat.le_refl _, fun _ h => h⟩, fun h => ⟨h, fun _ hd => ⟨hd, rfl⟩⟩, fun hd => ?_, nofun⟩
  obtain ⟨hn, ha, hp, hf, hc⟩ := hx hd
  exact ⟨⟨ha, hf, hc⟩, hn, hp⟩

/-! Functions of `Machine/Ops`. -/

@[simp] theorem kept_setTime {s d x} (hk : x₀.Kept false (core s)) : x₀.Kept false (core (setTime s d x)) := hk.setTimes

@[simp] theorem kept_ranked {s w pg off saved} {f : State → State} (hk : x₀.Kept still (core s))
    (hf : ∀ t, x₀.Kept still (core t) → x₀.Kept still (core (f t))) : x₀.Kept still (core (ranked s w pg off saved f)) := by
  unfold ranked
  dsimp only
  split
  · simpa using hk
  · simpa using hf _ (by simpa using hk)

@[simp] theorem kept_zeroStack {s k} (hk : x₀.Kept still (core s)) : x₀.Kept still (core (zeroStack s k)) :=
  hk.setMem (Memory.filter_wf _ _)

@[simp] theorem kept_writeMem {s a bs} (hk : x₀.Kept still (core s)) : x₀.Kept still (core (writeMem s a bs)) :=
  hk.setMem (Memory.writeAll_wf _ _ _)

@[simp] theorem kept_writePiece {s a bs} (hk : x₀.Kept still (core s)) : x₀.Kept still (core (writePiece s a bs).1) := by
  unfold writePiece
  split
  · exact kept_writeMem hk
  · split <;> simp [hk]

@[simp] theorem kept_writeWords {fuel : Nat} {s a bs} (hk : x₀.Kept still (core s)) : x₀.Kept still (core (writeWords fuel s a bs).1) := by
  induction fuel generalizing s a bs with
  | zero => exact hk
  | succ n ih =>
    unfold writeWords
    split
    · exact hk
    · exact ih (kept_writePiece hk)

@[simp] theorem kept_store {s a bs} (hk : x₀.Kept still (core s)) : x₀.Kept still (core (store s a bs).1) := kept_writeWords hk

/-! Functions of `Machine/Operands`. -/

@[simp] theorem kept_issue {s st op d a b imm} {act : State → State} (hk : x₀.Kept still (core s)) (ha : x₀.Kept still (core (act s))) :
    x₀.Kept still (core (issue s st op d a b imm act)) := by
  unfold issue
  split <;> (try split) <;> simp [hk, ha]

/-! Functions of `Machine/LocalMem`. -/

theorem kept_vecWord {rep : Reporter} {write busy s n d b ad} (hr : ∀ t a n, x₀.Kept still (core t) → x₀.Kept still (core (rep t a n)))
    (hk : x₀.Kept still (core s)) : x₀.Kept still (core (vecWord rep write busy s n d b ad)) := by
  unfold vecWord
  dsimp only
  have h1 : x₀.Kept still (core (if write then (store s ad (sliceB (storeBytes true (stope s n) d) 0 64)).1 else s)) := by
    split <;> simp [hk]
  split
  · simpa using hk
  · split <;> (split <;> (split <;> simp [hk, hr]))

theorem kept_vecRest {rep : Reporter} {write n d b ad} (hr : ∀ t a n, x₀.Kept still (core t) → x₀.Kept still (core (rep t a n))) {fuel : Nat} {s}
    (hk : x₀.Kept still (core s)) : x₀.Kept still (core (vecRest rep write n d b ad fuel s)) := by
  induction fuel generalizing s with
  | zero => exact hk
  | succ m ih =>
    unfold vecRest
    split
    · exact hk
    · exact ih (kept_vecWord hr hk)

theorem kept_doLoad {rep : Reporter} {vec busy s n d a b imm} (hr : ∀ t a n, x₀.Kept still (core t) → x₀.Kept still (core (rep t a n)))
    (hk : x₀.Kept still (core s)) : x₀.Kept still (core (doLoad rep vec busy s n d a b imm)) := by
  unfold doLoad
  dsimp only
  split
  · simpa using hk
  · split
    · exact hk
    · simpa using hk
    · split
      · exact kept_vecRest hr (by simpa using hk)
      · split <;> (try split) <;> simp [hk, hr]

theorem kept_doStore {rep : Reporter} {vec busy s n d a b imm} (hr : ∀ t a n, x₀.Kept still (core t) → x₀.Kept still (core (rep t a n)))
    (hk : x₀.Kept still (core s)) : x₀.Kept still (core (doStore rep vec busy s n d a b imm)) := by
  unfold doStore
  dsimp only
  split
  · simpa using hk
  · split
    · exact hk
    · simpa using hk
    · split
      · exact kept_vecRest hr (by simpa using hk)
      · split <;> simp [hk, hr]

/-! Functions of `Machine/HostOps`. -/

@[simp] theorem kept_beforePosts {s m} {f : State → State} (hk : x₀.Kept still (core s))
    (hf : ∀ t, x₀.Kept still (core t) → x₀.Kept still (core (f t))) : x₀.Kept still (core (beforePosts s m f)) := by
  simpa [beforePosts] using hf _ (by simpa using hk)

/-! Functions of `Machine/Remote`. -/

theorem kept_sendMsg {del : State → Nat → Msg → State} {s d dest m} (hd : ∀ t d m, x₀.Kept still (core t) → x₀.Kept still (core (del t d m)))
    (hk : x₀.Kept still (core s)) : x₀.Kept still (core (sendMsg del s d dest m)) :=
  kept_if (hd _ _ _ hk) (kept_if (hd _ _ _ hk) (kept_if hk (by simpa using hk)))

/-! Functions of `Machine/Sweep`. -/

@[simp] theorem kept_spoil {s rs} (hk : x₀.Kept still (core s)) : x₀.Kept still (core (spoil s rs)) :=
  kept_foldl hk fun _ _ ht => ht.setMem (Memory.writeAll_wf _ _ _)

@[simp] theorem kept_writePieces {s} {ps : List (Nat × List Byte)} (hk : x₀.Kept still (core s)) :
    x₀.Kept still (core (writePieces s ps).1) := by
  induction ps generalizing s with
  | nil => exact hk
  | cons p rest ih => exact ih (kept_writePiece hk)

@[simp] theorem kept_spoilScratch {s d} (hk : x₀.Kept still (core s)) : x₀.Kept still (core (spoilScratch s d)) := by simp [spoilScratch, hk]

@[simp] theorem kept_stopSweep {s n o} (hk : x₀.Kept still (core s)) : x₀.Kept still (core (stopSweep s n o).1) := by
  unfold stopSweep
  split <;> simp [hk]

@[simp] theorem kept_stopQuant {s o} (hk : x₀.Kept still (core s)) : x₀.Kept still (core (stopQuant s o)) := by
  unfold stopQuant
  split <;> simp [hk]

/-! Functions of `Machine/Ends`. -/

@[simp] theorem kept_finishTile {s n o ps} (hk : x₀.Kept still (core s)) : x₀.Kept still (core (finishTile s n o ps).1) := by
  unfold finishTile
  dsimp only
  rw [core_endLong, core_countFallBack, core_ite, core_bump, ite_self]
  exact kept_writePieces hk

@[simp] theorem kept_undoOuts {s o} (hk : x₀.Kept still (core s)) : x₀.Kept still (core (undoOuts s o)) := by
  refine kept_foldl hk fun t w ht => ?_
  split <;> (try split) <;> simp [ht]

@[simp] theorem kept_failLong {s n reason o} (hk : x₀.Kept still (core s)) : x₀.Kept still (core (failLong s n reason o)) := by
  unfold failLong
  split <;> simp [hk]

@[simp] theorem kept_failRunning {s n reason} (hk : x₀.Kept still (core s)) : x₀.Kept still (core (failRunning s n reason)) := by
  unfold failRunning
  split <;> simp [hk]

@[simp] theorem kept_storeRecord {c r s w} (hk : x₀.Kept still (core s)) :
    x₀.Kept still (core (storeRecord c r s w)) := by simp [storeRecord, hk]

@[simp] theorem kept_endScript {s c status reason} (hk : x₀.Kept still (core s)) : x₀.Kept still (core (endScript s c status reason)) := by
  unfold endScript
  dsimp only
  split
  · exact hk
  · next r _ =>
    have h1 : ∀ l : List RecWrite, x₀.Kept still (core (l.foldl (storeRecord c r)
        (if r.summed then s else pump (updScript s c (fun (q : Script) => q.sumUp status reason)) c))) :=
      fun l => kept_foldl (by simpa using hk) fun _ _ ht => kept_storeRecord ht
    split <;> simpa using h1 _

@[simp] theorem kept_failQueue {s n reason} (hk : x₀.Kept still (core s)) : x₀.Kept still (core (failQueue s n reason)) :=
  kept_foldl hk fun _ _ ht => kept_failLong ht

@[simp] theorem kept_failScripts {s reason p} (hk : x₀.Kept still (core s)) : x₀.Kept still (core (failScripts s reason p)) := by
  refine kept_foldl hk fun t c ht => ?_
  split <;> (try split) <;> simp [ht]

@[simp] theorem kept_failStope {s n reason} (hk : x₀.Kept still (core s)) :
    x₀.Kept still (core (failStope s n reason)) := by simp [failStope, hk]

@[simp] theorem kept_failAll {s ds reason} (hk : x₀.Kept still (core s)) : x₀.Kept still (core (failAll s ds reason)) := by
  unfold failAll
  have h1 := kept_failScripts (reason := reason) (p := fun c _ => ds.contains (c / 128))
    (s := ds.foldl (fun t d => failOps t d reason (fun _ => true)) s) (by simpa using hk)
  have h2 : x₀.Kept still (core ((List.range 512).foldl (fun t n => if ds.contains (n / 256) then failQueue t n reason else t) _)) :=
    kept_foldl h1 fun t n ht => by split <;> simp [ht]
  dsimp only
  split <;> simpa using h2

/-! Functions of `Machine/Tallies`. -/

@[simp] theorem kept_failHolder {s b h} (hk : x₀.Kept still (core s)) : x₀.Kept still (core (failHolder s b h)) := by
  unfold failHolder
  split
  · simp [hk]
  · split
    · exact kept_foldl hk fun _ _ ht => kept_failRunning ht
    · exact hk

@[simp] theorem kept_passTo {s r nx} (hk : x₀.Kept still (core s)) : x₀.Kept still (core (passTo s r nx)) := by
  unfold passTo
  split <;> simp [hk]

@[simp] theorem kept_recallLease {s r nx} (hk : x₀.Kept still (core s)) : x₀.Kept still (core (recallLease s r nx)) := by
  unfold recallLease
  dsimp only
  split
  · simp [hk]
  · cases r <;> simp +contextual [hk]

@[simp] theorem kept_endLease {s r} (hk : x₀.Kept still (core s)) : x₀.Kept still (core (endLease s r)) := by simp [endLease, hk]

@[simp] theorem kept_dueEnd {s r} (hk : x₀.Kept still (core s)) : x₀.Kept still (core (dueEnd s r)) := by simp [dueEnd, hk]

@[simp] theorem kept_recallTo {s r w nx} (hk : x₀.Kept still (core s)) : x₀.Kept still (core (recallTo s r w nx)) := by simp [recallTo, hk]

@[simp] theorem kept_handover {s r nx} (hk : x₀.Kept still (core s)) : x₀.Kept still (core (handover s r nx)) := by simp [handover, hk]

@[simp] theorem kept_ownerWrite {s w r nx} (hk : x₀.Kept still (core s)) : x₀.Kept still (core (ownerWrite s w r nx)) := by
  unfold ownerWrite
  dsimp only
  split
  · exact hk
  · split
    · simp [hk]
    · exact kept_ranked (kept_dueEnd hk) fun t ht => by split <;> simp [ht]

@[simp] theorem kept_leaseWrite {s w r l} (hk : x₀.Kept still (core s)) : x₀.Kept still (core (leaseWrite s w r l)) := by simp [leaseWrite, hk]

/-! Functions of `Machine/Faults`. -/

@[simp] theorem core_withStaged (s : State) (g : Sparse (Option W32)) (l : List Commit) :
    core { s with staged := g, commits := l } = core s := (rfl)

theorem core_dropKeys (s : State) (p : Prop) [Decidable p] :
    core (if p then { s with security := { s.security with
      keys := [], kek := none, spdm := { s.security.spdm with session := none, pending := none } } } else s) = core s := by
  split <;> rfl

/-- A die's service in the safe state. -/
def madeSafe (v : Service) (reason : Nat) (replace : Bool) : Service :=
  { v with state := 4, reason := reason, replaceN := replace, drainEnd := none }

theorem core_makeSafe (s d reason replace) :
    ∃ v : Service, v.state = 4 ∧ v.reason = reason ∧ core (makeSafe s d reason replace) = (core s).putSvc d v := by
  have h1 : core ((halvesOf d).foldl halfOff s) = core s := by simp
  have h2 : service ((halvesOf d).foldl halfOff s) d = service s d := by rw [← core_svc, h1, core_svc]
  refine ⟨madeSafe (service s d) reason (replace || sealStands s d), rfl, rfl, ?_⟩
  unfold makeSafe
  dsimp only
  rw [core_withStaged, core_setRouter, core_foldl _ _ _ fun _ _ => core_setPort _ _ _, core_dropKeys, core_setService, h1, h2]
  rfl

/-- Entering the safe state changes memory, and makes each of its dies safe. -/
theorem core_enterSafe (s d reason replace) (hd : isSafe s d = false) :
    ∃ (m : List Host.Cell) (w v : Service), (Memory.wf s.mem = true → Memory.wf m = true) ∧ v.state = 4 ∧ w.state = 4 ∧
      (v.reason = if anyDrain s (deviceDies s d) then 1 else reason) ∧ (w.reason = if anyDrain s (deviceDies s d) then 1 else reason) ∧
      core (enterSafe s d reason replace) = (if s.split then { core s with mem := m }.putSvc d v else
        ({ core s with mem := m }.putSvc 0 v).putSvc 1 w) := by
  have hf := kept_failAll (ds := deviceDies s d) (reason := if reason = 2 then rTimeDoubt else rDrained) (.refl true (core s))
  generalize hw : (if anyDrain s (deviceDies s d) then 1 else reason) = why
  have hs1 : core ((deviceDies s d).foldl sendOwnComps (failHomes (failAll s (deviceDies s d) (if reason = 2 then rTimeDoubt else rDrained))
      (deviceDies s d))) = core (failAll s (deviceDies s d) (if reason = 2 then rTimeDoubt else rDrained)) := by simp
  unfold enterSafe
  dsimp only
  rw [if_neg (by simp [hd]), hw]
  generalize (deviceDies s d).foldl sendOwnComps _ = s1 at hs1 ⊢
  have hs2 : core (if replace || anyDrain s (deviceDies s d) then (deviceDies s d).foldl (fun t e => seal_ t e why) s1 else s1) =
      { core s with mem := (core s1).mem } := by
    have h3 : ∀ p : Bool, core (if p then (deviceDies s d).foldl (fun t e => seal_ t e why) s1 else s1) = core s1 := by simp
    rw [h3, hs1]
    exact hf.rest rfl
  generalize (if replace || anyDrain s (deviceDies s d) then (deviceDies s d).foldl (fun t e => seal_ t e why) s1 else s1) = s2 at hs2 ⊢
  generalize (replace || anyDrain s (deviceDies s d)) = perm
  rw [core_stateChanged]
  cases hsp : s.split with
  | true =>
    have hds : deviceDies s d = [d] := by simp [deviceDies, hsp]
    obtain ⟨v, h4, hr, hc⟩ := core_makeSafe s2 d why perm
    exact ⟨(core s1).mem, v, v, hs1 ▸ hf.mem, h4, h4, hr, hr, by
      rw [hds, List.foldl_cons, List.foldl_nil, hc, hs2, if_pos rfl]⟩
  | false =>
    have hds : deviceDies s d = [0, 1] := by simp [deviceDies, hsp]
    obtain ⟨v, h4, hr, hc⟩ := core_makeSafe s2 0 why perm
    obtain ⟨w, g4, gr, gc⟩ := core_makeSafe (makeSafe s2 0 why perm) 1 why perm
    exact ⟨(core s1).mem, w, v, hs1 ▸ hf.mem, h4, g4, hr, gr, by
      rw [hds, List.foldl_cons, List.foldl_cons, List.foldl_nil, gc, hc, hs2, if_neg nofun]⟩

@[simp] theorem kept_enterSafe {s d reason replace} (hd : d < 2) (hk : x₀.Kept false (core s)) :
    x₀.Kept false (core (enterSafe s d reason replace)) := by
  cases hs : isSafe s d with
  | true =>
    unfold enterSafe
    dsimp only
    rw [if_pos hs]
    exact hk
  | false =>
    obtain ⟨m, w, v, hm, hv, hw, -, -, hc⟩ := core_enterSafe s d reason replace hs
    rw [hc]
    split
    · next hsp => exact (hk.setMem hm).putSafe (fun _ => hsp) hs hv
    · next hsp =>
      refine (hk.setMem hm).putBothSafe (fun hx e he => ?_) hv hw
      have h01 : isSafe s 0 = isSafe s 1 := hx.1 (show s.split = false by simpa using hsp)
      change isSafe s e = false
      obtain rfl | rfl : d = 0 ∨ d = 1 := by omega
      all_goals obtain rfl | rfl : e = 0 ∨ e = 1 := by omega
      all_goals simp_all

@[simp] theorem kept_postNotice {s m code payload} (hk : x₀.Kept still (core s)) :
    x₀.Kept still (core (postNotice s m code payload).1) := by simp [postNotice, hk]

theorem kept_drain {s : State} {l : List Nat} {f : State → Nat → Service} (hf : ∀ t e, (f t e).state = 3) (hk : x₀.Kept false (core s))
    (hl : ∀ e ∈ l, (service s e).state ≠ 4 ∧ (service s e).state ≠ 5) :
    x₀.Kept false (core (l.foldl (fun t e => setService t e (f t e)) s)) := by
  induction l generalizing s with
  | nil => exact hk
  | cons e l ih =>
    have he := hl e (.head _)
    have h3 := hf s e
    refine ih (hk.putUnsafe (fun hx h2 => ?_) (by omega) (by omega)) fun d hd => ?_
    · obtain ⟨hs, hu⟩ := hx.open h2 he.1 he.2
      exact ⟨hs, hu e h2⟩
    · rw [← core_svc, core_setService]
      by_cases hed : d = e
      · rw [hed, Core.svc_putSvc_same _ _ (Service.ne_reset (by omega))]
        omega
      · rw [Core.svc_putSvc_ne _ _ hed]
        exact hl d (.tail _ hd)

@[simp] theorem kept_startDrain {s d} (hk : x₀.Kept false (core s)) : x₀.Kept false (core (startDrain s d)) := by
  unfold startDrain
  dsimp only
  split
  · exact hk
  · refine kept_postNotice ?_
    rw [core_event, core_stateChanged]
    refine kept_drain (fun _ _ => rfl) hk fun e he => ?_
    simp only [List.mem_filter, draining, isSafe, Bool.not_eq_true', Bool.and_eq_true, Bool.or_eq_false_iff, decide_eq_false_iff_not] at he
    exact ⟨he.2.2, he.2.1.2⟩

@[simp] theorem kept_recallAll {s rs} (hk : x₀.Kept still (core s)) : x₀.Kept still (core (recallAll s rs)) :=
  kept_foldl hk fun _ _ ht => kept_recallLease ht

@[simp] theorem kept_takeOut {s u} (hk : x₀.Kept still (core s)) : x₀.Kept still (core (takeOut s u)) := by
  unfold takeOut
  have h0 : x₀.Kept still (core (if s.faulty.contains u then s else { s with faulty := u :: s.faulty })) := by split <;> exact hk
  generalize (if s.faulty.contains u then s else { s with faulty := u :: s.faulty }) = s0 at h0 ⊢
  dsimp only
  split
  · exact kept_recallAll (by simpa using kept_failStope h0)
  · split
    · exact kept_recallAll h0
    · split
      · exact kept_recallAll h0
      · split
        · exact kept_failScripts (kept_recallAll h0)
        · split <;> (try split) <;> simpa using h0

/-- The service of a die that drains alone. -/
def drainsAlone (v : Service) (t : Ns) : Service := { v with state := 5, drainEnd := some (v.drainEnd.getD t) }

theorem kept_drainAlone {f : State → Nat → State} (hf : ∀ t d, ∃ v : Service, v.state = 5 ∧ core (f t d) = (core t).alone d v) {s : State}
    {x : Core} (hs : core s = { x with split := true }) (hk : x₀.Kept false x) : x₀.Kept false (core ([0, 1].foldl f s)) := by
  obtain ⟨v, hv, h0⟩ := hf s 0
  obtain ⟨w, hw, h1⟩ := hf (f s 0) 1
  rw [List.foldl_cons, List.foldl_cons, List.foldl_nil, h1, h0, hs]
  exact hk.splitUp hv hw

theorem core_withFaulty (s : State) (l : List Unit_) : core { s with faulty := l } = core s := rfl

theorem core_withSplit (s : State) (h : Headframe) :
    core { s with split := true, boot := { s.boot with hf1 := h } } = { core s with split := true } := rfl

@[simp] theorem kept_enterSplit {s} (hk : x₀.Kept false (core s)) : x₀.Kept false (core (enterSplit s)) := by
  have hf : ∀ t d, ∃ v : Service, v.state = 5 ∧ core (if isSafe t d then t else
      event (stateChanged (setService t d (drainsAlone (service t d) (elapsed t + drainWindow t d))) d 5)
        (devPage (setService t d (drainsAlone (service t d) (elapsed t + drainWindow t d))) d 0)) = (core t).alone d v := by
    intro t d
    refine ⟨drainsAlone (service t d) (elapsed t + drainWindow t d), rfl, ?_⟩
    rw [Core.alone, core_isSafe]
    split <;> simp
  unfold enterSplit
  dsimp only
  split
  · refine kept_drainAlone hf ?_ hk
    rw [core_withFaulty, core_recordEvent, core_recordEvent, core_withSplit, core_splitPages, core_crossing]
    rfl
  · refine kept_postNotice (kept_drainAlone hf ?_ hk)
    rw [core_withFaulty, core_recordEvent, core_recordEvent, core_withSplit, core_splitPages, core_crossing]
    rfl

@[simp] theorem kept_report {s e} (he : e.unit.ty = btDie ∨ e.unit.ty = btSecurity → e.die < 2) (hk : x₀.Kept false (core s)) :
    x₀.Kept false (core (report s e)) := by
  unfold report
  dsimp only
  split
  · simpa using hk
  · split
    · next hu => exact kept_enterSafe (he hu) (by simpa using hk)
    · exact kept_startDrain (kept_takeOut (by simpa using hk))

theorem memUnit_ty (a) : ¬((memUnit a).ty = btDie ∨ (memUnit a).ty = btSecurity) := by
  unfold memUnit
  split
  · exact (by decide : ¬(btStack = btDie ∨ btStack = btSecurity))
  · split
    · exact (by decide : ¬(btPillar = btDie ∨ btPillar = btSecurity))
    · exact (by decide : ¬(btGallery = btDie ∨ btGallery = btSecurity))

@[simp] theorem kept_metError {s a} (hk : x₀.Kept false (core s)) : x₀.Kept false (core (metError s a)) := by
  unfold metError
  dsimp only
  split <;> exact kept_report (fun h => absurd h (memUnit_ty a)) (by simpa using hk)

@[simp] theorem kept_metIn {s a n} (hk : x₀.Kept false (core s)) : x₀.Kept false (core (metIn s a n)) := by
  unfold metIn
  split <;> simp [hk]

/-! Functions of `Machine/Async`. -/

theorem kept_withTicket {s n d remote} {judge : State → Nat → State} (hj : ∀ t, x₀.Kept still (core (judge s t))) (hk : x₀.Kept still (core s)) :
    x₀.Kept still (core (withTicket s n d remote judge)) := by
  refine kept_if hk (kept_if (hj 0) ?_)
  split
  · simpa using hk
  · exact hj _

/-! Functions of `Machine/Caches`. -/

@[simp] theorem kept_cacheOn {s d row} (hk : x₀.Kept still (core s)) : x₀.Kept still (core (cacheOn s d row)) :=
  (kept_passTo (r := .bank (galleryBank d row)) (nx := ⟨btRouter, d⟩)
    (kept_recallLease (r := .bank (galleryBank d row)) (nx := acting s d) hk)).setMem (Memory.filter_wf _ _)

@[simp] theorem kept_cacheOff {s d row} (hk : x₀.Kept still (core s)) : x₀.Kept still (core (cacheOff s d row)) := by simp [cacheOff, hk]

end

end Sys2Proof.Machine
end

section
/-!
What is kept by the functions from the clock to the passes of FACE, UPD and QUANT, the banks and the stacks.
-/

namespace Sys2Proof.Machine

section
variable {still : Bool} {x₀ : Core}

/-! Functions of `Machine/Clock`. -/

@[simp] theorem kept_tickSclk {s} (hk : x₀.Kept false (core s)) : x₀.Kept false (core (tickSclk s)) := by
  unfold tickSclk
  dsimp only
  split
  · exact hk.setNode fun h => ⟨rfl, h.1, rfl, h.2⟩
  · exact hk.setNode fun h => ⟨rfl, h.1, rfl, rfl, rfl⟩

theorem core_withDisagree (s : State) (o : Option Ns) : core { s with boot := { s.boot with disagree := o } } = core s := rfl

@[simp] theorem kept_tick {s} (hk : x₀.Kept false (core s)) : x₀.Kept false (core (tick s)) := by
  unfold tick
  dsimp only
  rw [core_withDisagree, core_ite, core_setHistory, core_setHistory, ite_self]
  exact kept_setTime (kept_setTime (kept_tickSclk hk))

/-! Functions of `Machine/Progress`. -/

theorem core_setDevState (s n) : ∃ v w : Service, v.state = n ∧ w.state = n ∧ core (setDevState s n) = ((core s).putSvc 0 v).putSvc 1 w := by
  refine ⟨{ service s 0 with state := n }, _, rfl, ?_, core_stateChanged _ _ _⟩
  rfl

@[simp] theorem kept_bootProgress {s} (hk : x₀.Kept false (core s)) : x₀.Kept false (core (bootProgress s)) := by
  unfold bootProgress
  have h1 : x₀.Kept false (core (if s.boot.step = 2 ∧ stacksOpen s = true then setStep s 3 else s)) := by simpa using hk
  generalize (if s.boot.step = 2 ∧ stacksOpen s = true then setStep s 3 else s) = s1 at h1 ⊢
  have h2 : x₀.Kept false (core (if s1.boot.assigned = true ∧ 2 ≤ s1.boot.step ∧ (service s1 0).state = 0 then setDevState s1 1
      else s1)) := by
    split
    · next hs =>
      obtain ⟨v, w, hv, hw, hc⟩ := core_setDevState s1 1
      have h0 : ((core s1).svc 0).state = 0 := hs.2.2
      rw [hc]
      exact h1.putBoth (by omega) (by omega) hv hw (by decide)
    · exact h1
  dsimp only
  generalize (if s1.boot.assigned = true ∧ 2 ≤ s1.boot.step ∧ (service s1 0).state = 0 then setDevState s1 1 else s1) = s2 at h2 ⊢
  split
  · rwa [core_setStep]
  · exact h2

@[simp] theorem kept_dieFail {s d code reason replace} (hd : d < 2) (hk : x₀.Kept false (core s)) :
    x₀.Kept false (core (dieFail s d code reason replace)) := kept_enterSafe hd hk

@[simp] theorem kept_bootFail {s code reason replace} (hk : x₀.Kept false (core s)) :
    x₀.Kept false (core (bootFail s code reason replace)) := by simp [bootFail, hk]

/-! Functions of `Machine/Boot`. -/

@[simp] theorem kept_release {s} (hk : x₀.Kept false (core s)) : x₀.Kept false (core (release s)) :=
  hk.setTimes.setNode (x := { core s with times := [] }) fun h => ⟨rfl, h.1, rfl, h.2⟩

@[simp] theorem kept_sealedSafe {s} (hk : x₀.Kept false (core s)) : x₀.Kept false (core (sealedSafe s)) := by
  unfold sealedSafe
  dsimp only
  rw [core_stateChanged]
  have hk' : x₀.Kept false (core { s with boot := { s.boot with fail := 5 } }) := hk
  generalize ({ s with boot := { s.boot with fail := 5 } } : State) = u at hk' ⊢
  have hone : ∀ h : (core u).isSafe 0 ≠ (core u).isSafe 1, (core u).Together → (core u).split = true := by
    intro h hx
    refine Classical.byContradiction fun hs => ?_
    exact h (hx.1 (by simpa using hs))
  cases h0 : isSafe u 0 with
  | true =>
    rw [if_pos rfl]
    split
    · exact hk'
    · next h1 =>
      obtain ⟨v, hv, -, hc⟩ := core_makeSafe u 1 1 true
      rw [hc]
      exact hk'.putSafe (hone (by simp_all [core_isSafe])) (eq_false_of_ne_true h1) hv
  | false =>
    obtain ⟨v, hv, -, hc⟩ := core_makeSafe u 0 1 true
    simp only [Bool.false_eq_true, if_false]
    generalize makeSafe u 0 1 true = t at hc ⊢
    have h1 : isSafe t 1 = isSafe u 1 := by
      rw [← core_isSafe, hc, Core.isSafe, Core.svc_putSvc_ne _ _ (by decide), core_svc, isSafe]
    rw [h1]
    split
    · next h1 =>
      rw [hc]
      exact hk'.putSafe (hone (by simp_all [core_isSafe])) h0 hv
    · next h1 =>
      obtain ⟨w, hw, -, hd⟩ := core_makeSafe t 1 1 true
      rw [hd, hc]
      refine hk'.putBothSafe (fun _ e he => ?_) hv hw
      obtain rfl | rfl : e = 0 ∨ e = 1 := by omega
      · exact h0
      · exact eq_false_of_ne_true h1

@[simp] theorem kept_bridgeFailsEarly {s} (hk : x₀.Kept false (core s)) : x₀.Kept false (core (bridgeFailsEarly s)) :=
  kept_bootFail (by rw [core_recordEvent, core_recordEvent]; exact hk)

@[simp] theorem kept_takeOver {s} (hk : x₀.Kept false (core s)) : x₀.Kept false (core (takeOver s)) := by simp [takeOver, hk]

@[simp] theorem kept_nodeTaken {s} (hk : x₀.Kept false (core s)) : x₀.Kept false (core (nodeTaken s)) := by simp [nodeTaken, hk]

/-- A muster frame is counted, and kept for the SCLK cycle where no node is held. -/
def frameSeen (x : Boot) (bs : List Byte) : Boot :=
  if x.assigned then { x with frames := upTo255 x.frames }
  else { x with frames := upTo255 x.frames, cycleFrame := some (bs, x.overflow) }

theorem frameSeen_assigned (x bs) : (frameSeen x bs).assigned = x.assigned := by
  unfold frameSeen
  split <;> rfl

theorem kept_frameSeen {s bs} (hk : x₀.Kept false (core s)) : x₀.Kept false (core { s with boot := frameSeen s.boot bs }) := by
  unfold frameSeen
  split
  · exact hk
  · next ha => exact hk.setNode fun h => absurd h.1 ha

@[simp] theorem kept_muster {s bs} (hk : x₀.Kept false (core s)) : x₀.Kept false (core (muster s bs)) := by
  have hb := kept_frameSeen (bs := bs) hk
  have ha := frameSeen_assigned s.boot bs
  unfold muster
  dsimp only
  rw [show (if s.boot.assigned = true then _ else _) = frameSeen s.boot bs from rfl]
  generalize frameSeen s.boot bs = x at ha hb ⊢
  split
  · rw [core_emit]; exact hb
  · split
    · rw [core_emit]; exact hb
    · split
      · rw [core_emit]; exact hb
      · next hx _ =>
        refine kept_nodeTaken ?_
        rw [core_emit]
        exact hk.setNode fun h => absurd (ha.trans h.1) hx

@[simp] theorem kept_frameAfter {s} (hk : x₀.Kept false (core s)) : x₀.Kept false (core (frameAfter s)) := by
  unfold frameAfter
  split
  · next hf => exact hk.setNode fun h => by have := h.2.1; simp [core, hf] at this
  · exact hk

@[simp] theorem kept_assignNode {s w v} (hk : x₀.Kept false (core s)) : x₀.Kept false (core (assignNode s w v)) := by
  unfold assignNode
  dsimp only
  split
  · exact hk
  · split
    · simpa using hk
    · split
      · simpa using hk
      · next hr =>
        have hf := kept_frameAfter hk
        exact kept_nodeTaken (hf.setNode fun h => absurd (.inr (.inl h.1)) hr)

@[simp] theorem kept_profileInWrite {s off v} (hk : x₀.Kept false (core s)) : x₀.Kept false (core (profileInWrite s off v)) := by
  unfold profileInWrite
  dsimp only
  split
  · next hc => exact kept_nodeTaken (hk.setNode fun h => by have := h.2.2; simp [core, hc] at this)
  · exact hk

@[simp] theorem kept_intoService {s b nextHolder} (hk : x₀.Kept still (core s)) :
    x₀.Kept still (core (intoService s b nextHolder)) := by simp [intoService, hk]

@[simp] theorem kept_handBanks {s} (hk : x₀.Kept still (core s)) : x₀.Kept still (core (handBanks s)) := by
  unfold handBanks
  refine kept_foldl (kept_foldl (kept_foldl hk fun _ _ => kept_intoService) fun _ _ => kept_intoService) fun t d ht => ?_
  exact kept_foldl ht fun _ _ => kept_cacheOn

/-! Functions of `Machine/Commits`. -/

@[simp] theorem kept_afterApply {old s pg} (hk : x₀.Kept still (core s)) : x₀.Kept still (core (afterApply old s pg)) := by
  unfold afterApply
  dsimp only
  split
  · simpa using hk
  · simpa using hk
  · have h1 := kept_foldl (l := (cacheRows old (pg / 8192)).filter (fun r => !(cacheRows s (pg / 8192)).contains r)) hk
      fun t r ht => kept_cacheOff (d := pg / 8192) (row := r) ht
    have h2 := kept_foldl (l := (cacheRows s (pg / 8192)).filter (fun r => !(cacheRows old (pg / 8192)).contains r)) h1
      fun t r ht => kept_cacheOn (d := pg / 8192) (row := r) ht
    split
    · exact h2
    · simpa using h2
  · exact hk

@[simp] theorem kept_applyCommit {s c} (hk : x₀.Kept still (core s)) : x₀.Kept still (core (applyCommit s c)) := by simp [applyCommit, hk]

@[simp] theorem kept_applyWaiting {s n} (hk : x₀.Kept still (core s)) :
    x₀.Kept still (core (applyWaiting s n)) := by simp +contextual [applyWaiting, hk]

/-! Functions of `Machine/HostRegs`. -/

@[simp] theorem kept_byHost {s pg} {act : State → State} (hk : x₀.Kept still (core s)) (ha : x₀.Kept still (core (act s))) :
    x₀.Kept still (core (byHost s pg act)) := by
  unfold byHost
  split <;> (try split) <;> simp [hk, ha]

@[simp] theorem kept_byAgent {s w pg} {act : State → State} (hk : x₀.Kept still (core s)) (ha : x₀.Kept still (core (act s))) :
    x₀.Kept still (core (byAgent s w pg act)) := by
  unfold byAgent
  split <;> simp [hk, ha]

@[simp] theorem kept_post {s m bytes} (hk : x₀.Kept still (core s)) : x₀.Kept still (core (post s m bytes)) := by simp [post, hk]

/-! Functions of `Machine/LoadStore`. -/

@[simp] theorem kept_localAtPc {s bk st word busy} (hk : x₀.Kept false (core s)) : x₀.Kept false (core (localAtPc s bk st word busy)) := by
  have hr : ∀ t a n, x₀.Kept false (core t) → x₀.Kept false (core (metIn t a n)) := fun _ _ _ => kept_metIn
  unfold localAtPc
  dsimp only
  split
  · exact kept_issue hk (kept_doLoad hr hk)
  · exact kept_issue hk (kept_doStore hr hk)
  · refine kept_issue hk ?_
    split
    · exact kept_doLoad hr hk
    · exact kept_vecWord hr (by simpa using hk)
  · refine kept_issue hk ?_
    split
    · exact kept_doStore hr hk
    · exact kept_vecWord hr (by simpa using hk)
  · exact hk

/-! Functions of `Machine/FaceOps`. -/

theorem kept_readRefused {s n a len r} (hr : readRefused s n a len = some r) (hk : x₀.Kept false (core s)) : x₀.Kept false (core r.1) := by
  unfold readRefused at hr
  split at hr
  · cases hr
    simpa using hk
  · split at hr <;> cases hr
    exact kept_metIn hk

theorem kept_readsRefused {s n rs r} (hr : readsRefused s n rs = some r) (hk : x₀.Kept false (core s)) : x₀.Kept false (core r.1) := by
  obtain ⟨p, -, hp⟩ := List.exists_of_findSome?_eq_some hr
  exact kept_readRefused hp hk

theorem kept_longIns {s st op d a b imm k} {judge : State → Nat → Nat → State × (W32 ⊕ Job)}
    {select : State → Nat → Job → Nat → State × Bool} (hj : ∀ n a, x₀.Kept still (core (judge s n a).1))
    (hs : ∀ t n j dl, core (select t n j dl).1 = core t) (hk : x₀.Kept still (core s)) :
    x₀.Kept still (core (longIns s st op d a b imm k judge select)) := by
  refine kept_issue hk (kept_if hk (kept_withTicket (fun t => kept_if (by simpa using hk) ?_) hk))
  dsimp only
  generalize hg : judge s st.val (areg s st.val a.toNat).toNat = g
  have h1 : x₀.Kept still (core g.1) := hg ▸ hj _ _
  obtain ⟨s1, w | j⟩ := g
  · simpa using h1
  · refine kept_if (by simpa using h1) (kept_if ?_ ?_) <;> simpa [hs] using h1

@[simp] theorem kept_judgeFace {s n a} (hk : x₀.Kept false (core s)) : x₀.Kept false (core (judgeFace s n a).1) := by
  unfold judgeFace
  dsimp only
  refine kept_ite_fst hk (kept_ite_fst hk ?_)
  split
  · next hr => exact kept_readRefused hr hk
  · refine kept_ite_fst hk (kept_ite_fst hk (kept_ite_fst hk ?_))
    split
    · next hr => exact kept_readsRefused hr hk
    · exact kept_ite_fst hk (kept_ite_fst hk hk)

@[simp] theorem kept_reportBad {s rs} (hk : x₀.Kept false (core s)) :
    x₀.Kept false (core (reportBad s rs)) := by simp +contextual [reportBad, hk]

@[simp] theorem kept_fetchFace {s n o} (hk : x₀.Kept false (core s)) : x₀.Kept false (core (fetchFace s n o)) := by simp [fetchFace, hk]

@[simp] theorem kept_faceFetched {s n} (hk : x₀.Kept false (core s)) : x₀.Kept false (core (faceFetched s n)) := by
  unfold faceFetched
  split <;> simp [hk]

@[simp] theorem kept_reportBeside {s n op e} (he : e.unit.ty = btDie ∨ e.unit.ty = btSecurity → e.die < 2) (hk : x₀.Kept false (core s)) :
    x₀.Kept false (core (reportBeside s n op e)) := by
  simpa [reportBeside] using kept_report he (by simpa using hk)

theorem stope_notDie : ¬(btStope = btDie ∨ btStope = btSecurity) := by decide

/-- A failed check is reported of a stope. -/
theorem kept_reportStope {s n op} {e : Event} (he : e.unit.ty = btStope) (hk : x₀.Kept false (core s)) :
    x₀.Kept false (core (report s e)) ∧ x₀.Kept false (core (reportBeside s n op e)) :=
  have h : e.unit.ty = btDie ∨ e.unit.ty = btSecurity → e.die < 2 := fun h => absurd (he ▸ h) stope_notDie
  ⟨kept_report h hk, kept_reportBeside h hk⟩

@[simp] theorem kept_endPass {s n o fb errs again} (hk : x₀.Kept false (core s)) : x₀.Kept false (core (endPass s n o fb errs again)) := by
  unfold endPass
  dsimp only
  split
  · simpa using hk
  · split
    · exact kept_reportBad (by simpa using hk)
    · split
      · simpa using hk
      · split
        · exact (kept_reportStope rfl (by simpa using hk)).2
        · split <;> exact (kept_reportStope rfl (by simpa using hk)).2

@[simp] theorem kept_endTile {s n o r} (hk : x₀.Kept false (core s)) :
    x₀.Kept false (core (endTile s n o r)) := by simp +contextual [endTile, hk]

@[simp] theorem kept_lastPass {s n} (hk : x₀.Kept false (core s)) : x₀.Kept false (core (lastPass s n)) := by
  unfold lastPass
  split <;> simp [hk]

@[simp] theorem kept_writeOutWord {s n o r ps w} (hk : x₀.Kept false (core s)) :
    x₀.Kept false (core (writeOutWord s n o r ps w)) := by simp +contextual [writeOutWord, hk]

@[simp] theorem kept_canaryPass {s st o there fb errs again} (hk : x₀.Kept false (core s)) :
    x₀.Kept false (core (canaryPass s st o there fb errs again).1) := by
  unfold canaryPass
  dsimp only
  split
  · exact hk
  · split <;> exact (kept_reportStope (n := 0) (op := 0) rfl (by simpa using hk)).1

@[simp] theorem kept_resolveCanary {s st o r canary replay pAgain} (hk : x₀.Kept false (core s)) :
    x₀.Kept false (core (resolveCanary s st o r canary replay pAgain)) := by
  unfold resolveCanary
  dsimp only
  split
  · exact (kept_reportStope rfl (by simpa using hk)).2
  · split
    · exact (kept_reportStope rfl (by simpa using hk)).2
    · split
      · exact (kept_reportStope (n := 0) (op := 0) rfl (by simpa using hk)).1
      · exact (kept_reportStope rfl (by simpa using hk)).2

/-! Functions of `Machine/SweepOps`. -/

@[simp] theorem kept_judgeUpd {s n a} (hk : x₀.Kept false (core s)) : x₀.Kept false (core (judgeUpd s n a).1) := by
  unfold judgeUpd
  dsimp only
  refine kept_ite_fst hk (kept_ite_fst hk ?_)
  split
  · next hr => exact kept_readRefused hr hk
  · refine kept_ite_fst hk ?_
    split
    · next hr => exact kept_readsRefused hr hk
    · exact kept_ite_fst hk hk

@[simp] theorem kept_startTile {s n o} (hk : x₀.Kept false (core s)) : x₀.Kept false (core (startTile s n o)) := by simp [startTile, hk]

@[simp] theorem kept_endPasses {s n o} (hk : x₀.Kept false (core s)) : x₀.Kept false (core (endPasses s n o)) := by simp [endPasses, hk]

@[simp] theorem kept_endTileWrites {s n o ps} (hk : x₀.Kept false (core s)) : x₀.Kept false (core (endTileWrites s n o ps)) := by
  refine kept_foldl ?_ fun _ _ => kept_metError
  have h := kept_writePieces (ps := ps ++ (SweepDesc.parse o.desc).modes s) (kept_spoilScratch (d := SweepDesc.parse o.desc) hk)
  split <;> simpa using h

@[simp] theorem kept_sweepOn {fuel : Nat} {s n} (hk : x₀.Kept false (core s)) : x₀.Kept false (core (sweepOn fuel s n)) := by
  induction fuel generalizing s with
  | zero => exact hk
  | succ m ih =>
    unfold sweepOn
    split
    · dsimp only
      split
      · exact hk
      · split
        · split
          · exact ih (kept_endTileWrites hk)
          · exact hk
        · split
          · split
            · exact ih (kept_startTile hk)
            · exact hk
          · split
            · exact ih (kept_endPasses hk)
            · exact hk
    · exact hk

@[simp] theorem kept_endSweep {s n o} (hk : x₀.Kept still (core s)) : x₀.Kept still (core (endSweep s n o)) := by simp [endSweep, hk]

@[simp] theorem kept_judgeQuant {s n a} (hk : x₀.Kept false (core s)) : x₀.Kept false (core (judgeQuant s n a).1) := by
  unfold judgeQuant
  dsimp only
  refine kept_ite_fst hk (kept_ite_fst hk ?_)
  split
  · next hr => exact kept_readRefused hr hk
  · refine kept_ite_fst hk (kept_ite_fst hk (kept_ite_fst hk ?_))
    cases hd : decide ((QuantDesc.parse (readMem s a 128)).hdr = 0) with
    | true =>
      rw [if_pos (of_decide_eq_true hd)]
      exact kept_ite_fst hk (kept_ite_fst hk hk)
    | false =>
      rw [if_neg (of_decide_eq_false hd)]
      split
      · next hr => exact kept_readRefused hr hk
      · exact kept_ite_fst hk (kept_ite_fst hk hk)

@[simp] theorem kept_settleQuant {s n o} (hk : x₀.Kept false (core s)) : x₀.Kept false (core (settleQuant s n o)) := by simp [settleQuant, hk]

@[simp] theorem kept_finishQuant {s n o} (hk : x₀.Kept false (core s)) :
    x₀.Kept false (core (finishQuant s n o)) := by simp +contextual [finishQuant, hk]

@[simp] theorem kept_quantOn {s n} (hk : x₀.Kept false (core s)) : x₀.Kept false (core (quantOn s n)) := by
  unfold quantOn
  split <;> simp [hk]

@[simp] theorem kept_longTick {s n} (hk : x₀.Kept false (core s)) : x₀.Kept false (core (longTick s n)) :=
  kept_quantOn (kept_sweepOn (kept_faceFetched hk))

@[simp] theorem kept_longTicks {s} (hk : x₀.Kept false (core s)) : x₀.Kept false (core (longTicks s)) := by simp +contextual [longTicks, hk]

@[simp] theorem kept_endQuant {s n o} (hk : x₀.Kept false (core s)) : x₀.Kept false (core (endQuant s n o)) := by simp [endQuant, hk]

/-! Functions of `Machine/Waits`. -/

theorem kept_pollFlag {s n d addr val t u} (hu : pollFlag s n d addr val t = some u) (hk : x₀.Kept false (core s)) : x₀.Kept false (core u) := by
  unfold pollFlag at hu
  cases hg : pollGate s n addr 8 with
  | stall => rw [hg] at hu; cases hu
  | denied c =>
    rw [hg] at hu
    cases hu
    simpa using hk
  | pass bk =>
    rw [hg] at hu
    cases hl : load s addr 8 with
    | none =>
      simp only [hl] at hu
      cases hu
      exact kept_metIn (by simpa using hk)
    | some bs =>
      simp only [hl] at hu
      split at hu <;> cases hu
      simpa using hk

/-! Functions of `Machine/Banks`. -/

@[simp] theorem kept_portAAct {s b pa busy} (hk : x₀.Kept false (core s)) : x₀.Kept false (core (portAAct s b pa busy)) := by
  unfold portAAct
  have hs : x₀.Kept false (core (served s (portAStope pa) b)) := by simpa using hk
  generalize served s (portAStope pa) b = u at hs ⊢
  cases pa with
  | access st word => exact kept_localAtPc hs
  | faceRead st o => cases busy <;> simpa using hs
  | sweepRead st o => cases busy <;> simpa using hs
  | quantRead st o => cases busy <;> simpa using hs
  | operandRead st o => cases busy <;> simpa using hs
  | outWrite st o =>
    dsimp only
    split
    · exact kept_writeOutWord hs
    · exact hs
  | poll st =>
    cases busy with
    | true => exact hs
    | false =>
      dsimp only
      rw [if_neg nofun]
      split
      · next d addr val t _ _ =>
        cases hp : pollFlag u st d addr val t with
        | none => exact hs
        | some w => exact kept_pollFlag hp hs
      · exact hs

@[simp] theorem kept_performWord {s b x a} (hk : x₀.Kept false (core s)) : x₀.Kept false (core (performWord s b x a).1) := by
  unfold performWord
  dsimp only
  repeat' split
  all_goals simp [hk]

@[simp] theorem kept_performMeet {s b x pa u} (hk : x₀.Kept false (core s)) : x₀.Kept false (core (performMeet s b x pa u).1) := by
  unfold performMeet
  split <;> simp [hk]

@[simp] theorem kept_portBCycle {s b cyc sel} (hk : x₀.Kept false (core s)) : x₀.Kept false (core (portBCycle s b cyc sel)) := by
  unfold portBCycle
  dsimp only
  repeat' split
  all_goals simp [hk]

/-! Functions of `Machine/FaultCmds`. -/

@[simp] theorem kept_bridgeFails {s} (hk : x₀.Kept false (core s)) : x₀.Kept false (core (bridgeFails s)) := by
  unfold bridgeFails
  split
  · exact hk
  · split
    · exact kept_bridgeFailsEarly hk
    · exact kept_enterSplit hk

/-! Functions of `Machine/Keys`. -/

theorem le_raised (old im) : old ≤ raised old im := by
  cases im with
  | none => exact Nat.le_refl _
  | some i => exact Nat.le_max_left _ _

@[simp] theorem kept_svnRaise {s w v} (hk : x₀.Kept false (core s)) : x₀.Kept false (core (svnRaise s w v)) := by
  unfold svnRaise
  dsimp only
  split
  · exact hk
  · split
    · simpa using hk
    · next hno =>
      have hst : (bitsOf v.toNat 2 2 == 1) = true → s.security.floors.getD 2 0 ≤ bitsOf v.toNat 15 8 :=
        fun h => Nat.not_lt.1 fun hlt => hno (.inr (.inr (.inr ⟨h, .inr hlt⟩)))
      refine hk.setFloors fun i hi => ?_
      change s.security.floors.getD i 0 ≤ _
      have hr : ∀ (p : Prop) [Decidable p] (o : Nat) (im : Option Image), o ≤ if p then raised o im else o := fun p _ o im => by
        split
        · exact le_raised o im
        · exact Nat.le_refl _
      obtain rfl | rfl | rfl : i = 0 ∨ i = 1 ∨ i = 2 := by omega
      · exact hr _ _ _
      · exact hr _ _ _
      · refine show _ ≤ if bitsOf v.toNat 2 2 == 1 then bitsOf v.toNat 15 8 else s.security.floors.getD 2 0 from ?_
        split
        · next h => exact hst h
        · exact Nat.le_refl _

@[simp] theorem kept_revokeWrite {s w v} (hk : x₀.Kept false (core s)) : x₀.Kept false (core (revokeWrite s w v)) := by
  have hl : s.security.revoked ⊆ (if s.security.revoked.contains (v.toNat % 4) then s.security.revoked else
      v.toNat % 4 :: s.security.revoked) := by
    split
    · exact List.Subset.refl _
    · exact List.subset_cons_self _ _
  exact kept_if hk (kept_if (by simpa using hk) (kept_if hk (kept_if (by simpa using hk) (hk.setRevoked hl))))

/-! Functions of `Machine/PowerHeat`. -/

@[simp] theorem kept_partOff {s n} (hk : x₀.Kept still (core s)) : x₀.Kept still (core (partOff s n)) := by simp [partOff, hk]

@[simp] theorem kept_railFails {s ds d u detail} (hds : ∀ e ∈ ds, e < 2) (hk : x₀.Kept false (core s)) :
    x₀.Kept false (core (railFails s ds d u detail)) := by
  unfold railFails
  dsimp only
  refine kept_foldl_mem ?_ fun t e he => kept_dieFail (hds e he)
  split
  · rwa [core_recordEvent]
  · exact kept_takeOut (by rwa [core_recordEvent])

/-! Functions of `Machine/Stacks`. -/

@[simp] theorem kept_stackPerform {s x} (hk : x₀.Kept false (core s)) : x₀.Kept false (core (stackPerform s x).1) := by
  unfold stackPerform
  have h : x₀.Kept false (core (((sectorsOf x).filter (fun w => isBad s w && readsSector x w)).foldl metError s)) :=
    kept_foldl hk fun _ _ => kept_metError
  dsimp only
  split
  · exact h
  · exact kept_store h

/-! Functions of `Machine/TimeOps`. -/

@[simp] theorem kept_chooseSource {s d} (hk : x₀.Kept false (core s)) : x₀.Kept false (core (chooseSource s d)) := by
  unfold chooseSource
  split <;> (try split) <;> simp [hk]

@[simp] theorem kept_enterDoubt {s d} (hk : x₀.Kept false (core s)) : x₀.Kept false (core (enterDoubt s d)) := by simp [enterDoubt, hk]

@[simp] theorem kept_agreeTime {s d} (hk : x₀.Kept false (core s)) : x₀.Kept false (core (agreeTime s d)) := by simp [agreeTime, hk]

@[simp] theorem kept_sourceExchange {s d theta delay} (hk : x₀.Kept false (core s)) :
    x₀.Kept false (core (sourceExchange s d theta delay)) := by simp [sourceExchange, hk]

end

end Sys2Proof.Machine
end

section
/-!
What is kept by the functions of time, the register pages, the hoists and the messages, and by an idle step.
-/

namespace Sys2Proof.Machine

section
variable {still : Bool} {x₀ : Core}

/-! Functions of `Machine/TimeOps`. -/

@[simp] theorem kept_validExchange {s d num theta delay} (hk : x₀.Kept false (core s)) :
    x₀.Kept false (core (validExchange s d num theta delay)) := by
  unfold validExchange
  have h := kept_chooseSource (d := d) (kept_if (p := (candidates s d).any (fun c => c.num = num) = true)
    (kept_setTime (d := d) (x := { timeBlk s d with lastValid := elapsed s }) hk) hk)
  exact kept_if (kept_sourceExchange h) h

@[simp] theorem kept_bridgeFrame {s d tx rx own} (hk : x₀.Kept false (core s)) : x₀.Kept false (core (bridgeFrame s d tx rx own)) := by
  unfold bridgeFrame
  dsimp only
  have h : ∀ u w : TimeBlk, x₀.Kept false (core (setTime (setTime s d u) (1 - d) w)) := fun _ _ => kept_setTime (kept_setTime hk)
  split
  · exact kept_chooseSource (h _ _)
  · exact kept_validExchange (h _ _)

@[simp] theorem kept_tendSource {s d} (hk : x₀.Kept false (core s)) : x₀.Kept false (core (tendSource s d)) := by simp [tendSource, hk]

/-! Functions of `Machine/Pages`. -/

@[simp] theorem kept_rootCommitted {old s} (hk : x₀.Kept false (core s)) : x₀.Kept false (core (rootCommitted old s)) := by
  unfold rootCommitted
  dsimp only
  generalize hs1 : (if ppsOn s && !ppsOn old then setTime s 0 _ else s) = s1
  have h1 : x₀.Kept false (core s1) := hs1 ▸ kept_if (kept_setTime hk) hk
  have h2 := kept_if (p := (isTimeRoot s 0 && !isTimeRoot old 0) = true)
    (kept_agreeTime (d := 0) (kept_setTime (d := 0) (x := { timeBlk s1 0 with isSet := true }) h1)) h1
  exact kept_if h2 (kept_chooseSource h2)

@[simp] theorem kept_profileCommit {s w d g} (hk : x₀.Kept false (core s)) : x₀.Kept false (core (profileCommit s w d g)) := by
  unfold profileCommit
  dsimp only
  split
  · exact hk
  · split
    · simpa using hk
    · rw [core_setIrq, core_wr]
      split
      · refine kept_rootCommitted (kept_foldl hk fun t e ht => ?_)
        split <;> simpa using ht
      · refine kept_foldl hk fun t e ht => ?_
        split <;> simpa using ht

theorem kept_ownWrite {s w k d j off v t} (h : ownWrite s w k d j off v = some t) (hk : x₀.Kept false (core s)) : x₀.Kept false (core t) := by
  unfold ownWrite at h
  repeat' split at h
  all_goals cases h
  all_goals simp [hk]

@[simp] theorem kept_headerWrite {s w pg off r v} (hk : x₀.Kept false (core s)) : x₀.Kept false (core (headerWrite s w pg off r v)) := by
  unfold headerWrite
  split
  · split
    · exact kept_ownerWrite hk
    · exact hk
  · split
    · split
      · exact kept_leaseWrite hk
      · exact hk
    · split
      · split
        · exact kept_profileCommit hk
        · simpa using hk
      · simpa using hk

@[simp] theorem kept_safeWrite {s w pg off v} (hk : x₀.Kept false (core s)) :
    x₀.Kept false (core (safeWrite s w pg off v)) := by simp [safeWrite, hk]

@[simp] theorem kept_writeWord {s w pg0 off v0} (hk : x₀.Kept false (core s)) : x₀.Kept false (core (writeWord s w pg0 off v0)) := by
  unfold writeWord
  dsimp only
  generalize (if roRest _ off then _ else v0) = v
  refine kept_if (kept_safeWrite hk) ?_
  split
  · exact hk
  · refine kept_if (by simpa using hk) (kept_if (by simpa using hk) (kept_if hk (kept_if (by simpa using hk) (kept_if (by simpa using hk)
      (kept_if (kept_headerWrite hk) ?_)))))
    split
    · next t ht => exact kept_ownWrite ht hk
    · simpa using hk

@[simp] theorem kept_writeJudged {s w pg off v} (hk : x₀.Kept false (core s)) :
    x₀.Kept false (core (writeJudged s w pg off v).1) := by simp [writeJudged, hk]

@[simp] theorem kept_writeSpan {s w pg off bytes} (hk : x₀.Kept false (core s)) :
    x₀.Kept false (core (writeSpan s w pg off bytes).1) := by simp [writeSpan, hk]

@[simp] theorem kept_readWord {s pg0 off} (hk : x₀.Kept false (core s)) : x₀.Kept false (core (readWord s pg0 off).1) := by
  unfold readWord
  dsimp only
  split <;> simp [hk]

@[simp] theorem kept_readSpan {s pg off n} (hk : x₀.Kept false (core s)) : x₀.Kept false (core (readSpan s pg off n).1) := by simp [readSpan, hk]

@[simp] theorem kept_writePage {s w pg off bytes} (hk : x₀.Kept false (core s)) :
    x₀.Kept false (core (writePage s w pg off bytes).1) := by simp [writePage, hk]

@[simp] theorem kept_remoteWrite {s m d data} (hk : x₀.Kept false (core s)) :
    x₀.Kept false (core (remoteWrite s m d data).1) := by simp [remoteWrite, hk]

@[simp] theorem kept_remoteRead {s m d len} (hk : x₀.Kept false (core s)) :
    x₀.Kept false (core (remoteRead s m d len).1) := by simp [remoteRead, hk]

@[simp] theorem kept_writeBy {s w path pg off bytes} (hk : x₀.Kept false (core s)) : x₀.Kept false (core (writeBy s w path pg off bytes)) := by
  unfold writeBy
  split <;> simp [hk]

@[simp] theorem kept_readBy {s path pg off n} (hk : x₀.Kept false (core s)) : x₀.Kept false (core (readBy s path pg off n)) := by
  unfold readBy
  split <;> simp [hk]

/-! Functions of `Machine/HoistAccess`. -/

theorem core_judgeOwn {s t : State} {c r isRead a len} (h : judgeOwn s c r isRead a len = .go t) : core t = core s := by
  unfold judgeOwn at h
  dsimp only at h
  generalize (if isRead then rtREAD else rtWRITE) = right at h
  cases hk : takeCredit s (channelDie c) (.hoist (engineOf c)) r.cls len (strictest s r.cls (touchedStacks s a len)) with
  | none =>
    simp only [hk] at h
    repeat' split at h
    all_goals cases h
    rfl
  | some u =>
    have hu := core_takeCredit hk
    simp only [hk] at h
    repeat' split at h
    all_goals cases h
    · rfl
    · exact hu

@[simp] theorem kept_startOwn {s c r unit isRead a len data} (hk : x₀.Kept false (core s)) :
    x₀.Kept false (core (startOwn s c r unit isRead a len data)) := by
  unfold startOwn
  cases hj : judgeOwn s c r isRead a len with
  | no st rs => simpa using hk
  | later short => simpa using hk
  | go t =>
    have ht : x₀.Kept false (core t) := core_judgeOwn hj ▸ hk
    refine kept_if (kept_if ?_ ?_) (kept_if ?_ ?_)
    · simpa using kept_remoteRead ht
    · simpa using kept_remoteWrite ht
    · simpa using ht
    · simpa using ht

@[simp] theorem kept_startAccess {s c r unit isRead a len data} (hk : x₀.Kept false (core s)) :
    x₀.Kept false (core (startAccess s c r unit isRead a len data)) := by simp [startAccess, hk]

@[simp] theorem kept_accessPart {s c unit isRead a len data} (hk : x₀.Kept false (core s)) :
    x₀.Kept false (core (accessPart s c unit isRead a len data).st) := by
  unfold accessPart
  split
  · exact hk
  · split
    · split
      · exact kept_startAccess (by simpa using hk)
      · simpa using hk
    · split
      · exact hk
      · dsimp only
        split
        · simpa using kept_startAccess hk
        · exact kept_startAccess hk

@[simp] theorem kept_readUnit {s c unit a len} (hk : x₀.Kept false (core s)) : x₀.Kept false (core (readUnit s c unit a len).st) := by
  unfold readUnit
  dsimp only
  split
  · exact kept_accessPart hk
  · split
    · simpa using hk
    · exact kept_bind (kept_accessPart hk) fun t x ht => kept_bind (kept_accessPart ht) fun u y hu => by simpa using hu

@[simp] theorem kept_writeUnit {s c unit a bs} (hk : x₀.Kept false (core s)) : x₀.Kept false (core (writeUnit s c unit a bs).st) := by
  unfold writeUnit
  dsimp only
  split
  · exact kept_accessPart hk
  · split
    · simpa using hk
    · exact kept_bind (kept_accessPart hk) fun t x ht => kept_bind (kept_accessPart ht) fun u y hu => by simpa using hu

/-! Functions of `Machine/HoistSteps`. -/

@[simp] theorem kept_startReads {s c ms} (hk : x₀.Kept false (core s)) : x₀.Kept false (core (startReads s c ms)) :=
  kept_foldl hk fun _ _ => kept_readUnit

theorem kept_readAll {c} {ms : List Move} {g : Got} (hg : x₀.Kept false (core g.st)) : x₀.Kept false
    (core (ms.foldl (fun (g : Got) (m : Move) => g.bind (fun t _ => readUnit t c m.unit m.src m.len)) g).st) := by
  induction ms generalizing g with
  | nil => exact hg
  | cons m ms ih => exact ih (kept_bind hg fun t _ => kept_readUnit)

@[simp] theorem kept_readMoves {s c ms} (hk : x₀.Kept false (core s)) : x₀.Kept false (core (readMoves s c ms).st) :=
  kept_readAll (kept_startReads hk)

@[simp] theorem kept_writeMoves {s c} {ms : List Move} (hk : x₀.Kept false (core s)) : x₀.Kept false (core (writeMoves s c ms).st) := by
  induction ms generalizing s with
  | nil => exact hk
  | cons m rest ih =>
    unfold writeMoves
    split
    · exact hk
    · exact kept_bind (kept_writeUnit hk) fun t _ ht => ih ht

@[simp] theorem kept_copyMoves {s c ms} (hk : x₀.Kept false (core s)) : x₀.Kept false (core (copyMoves s c ms).st) := by
  unfold copyMoves
  split
  · exact hk
  · exact kept_bind (kept_readMoves hk) fun t _ ht => kept_bind (kept_readMoves ht) fun u _ hu => kept_writeMoves hu

@[simp] theorem kept_settle {c lead sides g} {go : State → State} (hg : x₀.Kept still (core g.st))
    (hgo : ∀ t, x₀.Kept still (core t) → x₀.Kept still (core (go t))) : x₀.Kept still (core (settle c lead sides g go)) := by
  cases g with
  | wait s => exact hg
  | ok s bs => exact hgo s hg
  | bad s st rs =>
    have hs : x₀.Kept still (core s) := hg
    exact kept_if (by simpa using hs) (by simpa using hs)

/-- The end of an event's step. -/
theorem kept_endStepIf {t c lead sides event again} (ht : x₀.Kept still (core t)) :
    x₀.Kept still (core (if event = true then endStep t c lead sides again else t)) := kept_if (by simpa using ht) ht

@[simp] theorem kept_moveStep {s c r lead sides event} (hk : x₀.Kept false (core s)) : x₀.Kept false (core (moveStep s c r lead sides event)) :=
  kept_settle (kept_copyMoves hk) fun _ => kept_endStepIf

@[simp] theorem kept_readBlock {s c r lead sides} (hk : x₀.Kept false (core s)) : x₀.Kept false (core (readBlock s c r lead sides).st) := by
  unfold readBlock
  split
  · exact hk
  · exact kept_bind (kept_readUnit hk) fun t _ => kept_readUnit

@[simp] theorem kept_releaseBlock {s c r lead sides} (hk : x₀.Kept false (core s)) : x₀.Kept false (core (releaseBlock s c r lead sides)) := by
  unfold releaseBlock
  have hg := kept_readBlock (c := c) (r := r) (lead := lead) (sides := sides) hk
  cases hb : readBlock s c r lead sides with
  | wait t => rw [hb] at hg; exact hg
  | bad t st rs =>
    have ht : x₀.Kept false (core t) := by rw [hb] at hg; exact hg
    exact kept_if (by simpa using ht) (by simpa using ht)
  | ok t stored =>
    have ht : x₀.Kept false (core t) := by rw [hb] at hg; exact hg
    dsimp only
    split
    · simpa using ht
    · exact kept_if (by simpa using ht) (by simpa using ht)

@[simp] theorem kept_expandStep {s c r lead sides data event} (hk : x₀.Kept false (core s)) :
    x₀.Kept false (core (expandStep s c r lead sides data event)) := by
  refine kept_settle (kept_bind ?_ fun t _ ht => ?_) fun _ => kept_endStepIf
  · split
    · exact hk
    · exact kept_readMoves hk
  · exact kept_bind (kept_writeMoves ht) fun u _ hu => kept_bind (kept_writeUnit hu) fun v _ => kept_writeMoves

@[simp] theorem kept_writeScales {s c r lead sides scales} (hk : x₀.Kept false (core s)) :
    x₀.Kept false (core (writeScales s c r lead sides scales).st) := by
  unfold writeScales
  split
  · split
    · exact kept_writeUnit hk
    · exact hk
  · exact hk

@[simp] theorem kept_compressStep {s c r lead sides} (hk : x₀.Kept false (core s)) : x₀.Kept false (core (compressStep s c r lead sides)) := by
  unfold compressStep
  split
  · simpa using hk
  · refine kept_settle ?_ fun u hu => ?_
    · split
      · exact hk
      · exact kept_readMoves hk
    · dsimp only
      split <;> simpa using hu

@[simp] theorem kept_slotStep {s c r lead sides scales slot entry} (hk : x₀.Kept false (core s)) :
    x₀.Kept false (core (slotStep s c r lead sides scales slot entry)) :=
  kept_settle (kept_bind (kept_writeScales hk) fun t _ ht => kept_bind (kept_writeMoves ht) fun u _ => kept_writeUnit) fun t ht => by
    simpa using ht

@[simp] theorem kept_mapStep {s c r lead sides entry event} (hk : x₀.Kept false (core s)) :
    x₀.Kept false (core (mapStep s c r lead sides entry event)) := by
  unfold mapStep
  split
  · exact hk
  · exact kept_settle (kept_writeUnit hk) fun _ => kept_endStepIf

@[simp] theorem kept_kvUnit {s c r d k event} (hk : x₀.Kept false (core s)) : x₀.Kept false (core (kvUnit s c r d k event)) := by
  unfold kvUnit
  refine kept_if (by simpa using hk) (kept_settle (kept_bind (kept_readUnit hk) fun t e ht => ?_) fun _ => kept_endStepIf)
  split
  · exact ht
  · split
    · exact ht
    · exact kept_copyMoves ht

/-- A unit that is read, and what follows. -/
theorem kept_got {f : State → Nat → Nat → State} {go : State → List Byte → State}
    (hf : ∀ t st rs, x₀.Kept still (core t) → x₀.Kept still (core (f t st rs)))
    (hgo : ∀ t bs, x₀.Kept still (core t) → x₀.Kept still (core (go t bs)))
    {g : Got} : x₀.Kept still (core g.st) → x₀.Kept still (core (match g with
      | .wait t => t
      | .bad t st rs => f t st rs
      | .ok t bs => go t bs)) := by
  cases g with
  | wait s => exact id
  | bad s st rs => exact hf s st rs
  | ok s bs => exact hgo s bs

theorem kept_poisonOrEnd {t c n st rs} (ht : x₀.Kept still (core t)) :
    x₀.Kept still (core (if st = sPOISONED then poisonDesc t c n else endDesc t c st rs)) := kept_if (by simpa using ht) (by simpa using ht)

@[simp] theorem kept_kvStep {s c r d event} (hk : x₀.Kept false (core s)) : x₀.Kept false (core (kvStep s c r d event)) := by
  refine kept_got (fun _ _ _ => kept_poisonOrEnd) (fun t bs ht => ?_) (kept_readUnit hk)
  split
  · simpa using ht
  · exact kept_if (kept_kvUnit ht) (by simpa using ht)

@[simp] theorem kept_tableStep {s c r d} (hk : x₀.Kept false (core s)) : x₀.Kept false (core (tableStep s c r d)) :=
  kept_got (fun _ _ _ => kept_poisonOrEnd) (fun t bs ht => kept_if (by simpa using ht) (by simpa using ht)) (kept_readUnit hk)

@[simp] theorem kept_pollWait {s c d} (hk : x₀.Kept false (core s)) : x₀.Kept false (core (pollWait s c d)) :=
  kept_got (fun _ _ _ => kept_poisonOrEnd) (fun t bs ht => kept_if (by simpa using ht) ht) (kept_readUnit hk)

@[simp] theorem kept_runStep {s0 c event} (hk : x₀.Kept false (core s0)) : x₀.Kept false (core (runStep s0 c event)) := by
  unfold runStep
  dsimp only
  repeat' split
  all_goals simp [hk]

@[simp] theorem kept_stepEvent {s c} {f : State → State} (hk : x₀.Kept false (core s)) (hf : x₀.Kept false (core (f s))) :
    x₀.Kept false (core (stepEvent s c f)) := kept_if (kept_runStep hf) hk

/-! Functions of `Machine/HoistCmds`. -/

@[simp] theorem kept_fetchDesc {s c i} (hk : x₀.Kept false (core s)) : x₀.Kept false (core (fetchDesc s c i).st) := by
  unfold fetchDesc
  split
  · exact hk
  · split
    · exact hk
    · split
      · exact hk
      · exact kept_bind (kept_readUnit hk) fun t bs ht => by simpa [Got.st] using ht

@[simp] theorem kept_fetchSides {fuel : Nat} {s c i} (hk : x₀.Kept false (core s)) : x₀.Kept false (core (fetchSides fuel s c i).st) := by
  induction fuel generalizing s i with
  | zero => exact hk
  | succ n ih =>
    unfold fetchSides
    split
    · exact hk
    · refine kept_bind (kept_fetchDesc hk) fun t _ ht => ?_
      split
      · split
        · exact ih ht
        · exact ht
      · exact ht

@[simp] theorem kept_prefetch {s c} (hk : x₀.Kept false (core s)) : x₀.Kept false (core (prefetch s c)) := by
  unfold prefetch
  split
  · exact hk
  · refine kept_got (fun t st rs ht => by simpa using ht) (fun t _ ht => ?_) (kept_fetchDesc hk)
    split
    · exact kept_if (kept_fetchSides ht) ht
    · exact ht

@[simp] theorem kept_issueDesc {s c op} {f : State → Script → HDesc → State} (hk : x₀.Kept false (core s))
    (hf : ∀ t q d, x₀.Kept false (core t) → x₀.Kept false (core (f t q d))) : x₀.Kept false (core (issueDesc s c op f)) := by
  unfold issueDesc
  split
  · exact hk
  · refine kept_if hk (kept_got (fun t st rs ht => by simpa using ht) (fun t _ ht => ?_) (kept_fetchDesc hk))
    split
    · exact hk
    · split
      · exact hk
      · exact kept_if (by simpa using ht) (kept_if hk (kept_if (by simpa using ht) (hf _ _ _ ht)))

@[simp] theorem kept_beginRows {s c r d} (hk : x₀.Kept false (core s)) : x₀.Kept false (core (beginRows s c r d)) := by
  refine kept_got (fun t st rs ht => by simpa using ht) (fun t _ ht => ?_) (kept_fetchSides hk)
  split
  · exact hk
  · refine kept_if (kept_runStep (by simpa using ht)) ?_
    split <;> simpa using ht

@[simp] theorem kept_beginOne {s c} (hk : x₀.Kept false (core s)) : x₀.Kept false (core (beginOne s c)) := by simp [beginOne, hk]

@[simp] theorem kept_retryInner {s c} (hk : x₀.Kept false (core s)) : x₀.Kept false (core (retryInner s c)) := by
  unfold retryInner
  dsimp only
  repeat' split
  all_goals simp [hk]

@[simp] theorem kept_tend {s0 c} (hk : x₀.Kept false (core s0)) : x₀.Kept false (core (tend s0 c)) := by
  unfold tend
  dsimp only
  repeat' split
  all_goals simp [hk]

@[simp] theorem kept_resume {s} (hk : x₀.Kept false (core s)) : x₀.Kept false (core (resume s)) := by simp +contextual [resume, hk]

/-! Functions of `Machine/Messages`. -/

@[simp] theorem kept_performWrite {s d m} (hk : x₀.Kept false (core s)) : x₀.Kept false (core (performWrite s d m)) := by simp [performWrite, hk]

@[simp] theorem kept_putArrives {s d m} (hk : x₀.Kept false (core s)) : x₀.Kept false (core (putArrives s d m)) := by simp [putArrives, hk]

@[simp] theorem kept_getArrives {s d m} (hk : x₀.Kept false (core s)) : x₀.Kept false (core (getArrives s d m)) := by simp [getArrives, hk]

@[simp] theorem kept_copyArrives {s d m up hops} (hk : x₀.Kept false (core s)) : x₀.Kept false (core (copyArrives s d m up hops)) := by
  unfold copyArrives
  rw [core_combineIfDone]
  have hr : x₀.Kept false (core (multicast s d m up hops).1) := by simpa using hk
  exact kept_if (kept_sendMsg (fun _ _ _ => kept_putArrives) hr) hr

@[simp] theorem kept_longTimer {s n o} (hk : x₀.Kept false (core s)) : x₀.Kept false (core (longTimer s n o)) := by
  unfold longTimer
  split <;> (try split) <;> simp [hk]

/-! Functions of `Machine/Idle`. -/

@[simp] theorem kept_idle {s} (hk : x₀.Kept false (core s)) : x₀.Kept false (core (idle s)) :=
  kept_tendSource (kept_tendSource (kept_longTicks (kept_tick (kept_resume hk))))

end

end Sys2Proof.Machine
end

section
/-!
Each command but a reset keeps what all but a reset keep.
-/

namespace Sys2Proof.Machine

/-- An answer keeps what all but a reset keep. -/
def Keeps (x : Core) (o : Out) : Prop := ∀ t, o = .next t → x.Kept false (core t)

@[simp] theorem keeps_next (x : Core) (t : State) : Keeps x (.next t) ↔ x.Kept false (core t) :=
  ⟨fun h => h t rfl, fun h _ hu => by cases hu; exact h⟩

/-- The die of a foreman, or of a stack. -/
@[simp] theorem fin8_div_four_lt (f : Fin 8) : f.val / 4 < 2 := by omega

/-! Functions of `Machine/Scalar`. -/

@[simp] theorem keeps_execNop (st d a b imm s) : Keeps (core s) (execNop st d a b imm s) := by simp [execNop]

@[simp] theorem keeps_execAdd (st d a b imm s) : Keeps (core s) (execAdd st d a b imm s) := by simp [execAdd]

@[simp] theorem keeps_execSub (st d a b imm s) : Keeps (core s) (execSub st d a b imm s) := by simp [execSub]

@[simp] theorem keeps_execAnd (st d a b imm s) : Keeps (core s) (execAnd st d a b imm s) := by simp [execAnd]

@[simp] theorem keeps_execOr (st d a b imm s) : Keeps (core s) (execOr st d a b imm s) := by simp [execOr]

@[simp] theorem keeps_execXor (st d a b imm s) : Keeps (core s) (execXor st d a b imm s) := by simp [execXor]

@[simp] theorem keeps_execShl (st d a b imm s) : Keeps (core s) (execShl st d a b imm s) := by simp [execShl]

@[simp] theorem keeps_execShr (st d a b imm s) : Keeps (core s) (execShr st d a b imm s) := by simp [execShr]

@[simp] theorem keeps_execMul (st d a b imm s) : Keeps (core s) (execMul st d a b imm s) := by simp [execMul]

@[simp] theorem keeps_execMin (st d a b imm s) : Keeps (core s) (execMin st d a b imm s) := by simp [execMin]

@[simp] theorem keeps_execMax (st d a b imm s) : Keeps (core s) (execMax st d a b imm s) := by simp [execMax]

@[simp] theorem keeps_execAddi (st d a b imm s) : Keeps (core s) (execAddi st d a b imm s) := by simp [execAddi]

@[simp] theorem keeps_execAndi (st d a b imm s) : Keeps (core s) (execAndi st d a b imm s) := by simp [execAndi]

@[simp] theorem keeps_execXori (st d a b imm s) : Keeps (core s) (execXori st d a b imm s) := by simp [execXori]

@[simp] theorem keeps_execShli (st d a b imm s) : Keeps (core s) (execShli st d a b imm s) := by simp [execShli]

@[simp] theorem keeps_execShri (st d a b imm s) : Keeps (core s) (execShri st d a b imm s) := by simp [execShri]

@[simp] theorem keeps_execMovhi (st d a b imm s) : Keeps (core s) (execMovhi st d a b imm s) := by simp [execMovhi]

@[simp] theorem keeps_execTime (st d a b imm s) : Keeps (core s) (execTime st d a b imm s) := by simp [execTime]

@[simp] theorem keeps_execAmov (st d a b imm s) : Keeps (core s) (execAmov st d a b imm s) := by simp [execAmov]

@[simp] theorem keeps_execSmov (st d a b imm s) : Keeps (core s) (execSmov st d a b imm s) := by simp [execSmov]

@[simp] theorem keeps_execAadd (st d a b imm s) : Keeps (core s) (execAadd st d a b imm s) := by simp [execAadd]

/-! Functions of `Machine/VectorUnit`. -/

@[simp] theorem keeps_execVadd (st d a b imm s) : Keeps (core s) (execVadd st d a b imm s) := by simp [execVadd]

@[simp] theorem keeps_execVsub (st d a b imm s) : Keeps (core s) (execVsub st d a b imm s) := by simp [execVsub]

@[simp] theorem keeps_execVmul (st d a b imm s) : Keeps (core s) (execVmul st d a b imm s) := by simp [execVmul]

@[simp] theorem keeps_execVfma (st d a b imm s) : Keeps (core s) (execVfma st d a b imm s) := by simp [execVfma]

@[simp] theorem keeps_execVmax (st d a b imm s) : Keeps (core s) (execVmax st d a b imm s) := by simp [execVmax]

@[simp] theorem keeps_execVmin (st d a b imm s) : Keeps (core s) (execVmin st d a b imm s) := by simp [execVmin]

@[simp] theorem keeps_execVdiv (st d a b imm s) : Keeps (core s) (execVdiv st d a b imm s) := by simp [execVdiv]

@[simp] theorem keeps_execVsqrt (st d a b imm s) : Keeps (core s) (execVsqrt st d a b imm s) := by simp [execVsqrt]

@[simp] theorem keeps_execVexp2 (st d a b imm s) : Keeps (core s) (execVexp2 st d a b imm s) := by simp [execVexp2]

@[simp] theorem keeps_execVcvt (st d a b imm s) : Keeps (core s) (execVcvt st d a b imm s) := by simp [execVcvt]

@[simp] theorem keeps_execVsum (st d a b imm s) : Keeps (core s) (execVsum st d a b imm s) := by simp [execVsum]

@[simp] theorem keeps_execVamax (st d a b imm s) : Keeps (core s) (execVamax st d a b imm s) := by simp [execVamax]

@[simp] theorem keeps_execVbcast (st d a b imm s) : Keeps (core s) (execVbcast st d a b imm s) := by simp [execVbcast]

/-! Functions of `Machine/Tallies`. -/

@[simp] theorem keeps_execModeNormal (w b s) : Keeps (core s) (execModeNormal w b s) := by simp [execModeNormal]

@[simp] theorem keeps_execModeStartup (w b s) : Keeps (core s) (execModeStartup w b s) := by simp [execModeStartup]

@[simp] theorem keeps_execModeTest (w b s) : Keeps (core s) (execModeTest w b s) := by simp [execModeTest]

@[simp] theorem keeps_execModeRecovery (w b s) : Keeps (core s) (execModeRecovery w b s) := by simp [execModeRecovery]

@[simp] theorem keeps_execModeChangeApplied (b s) : Keeps (core s) (execModeChangeApplied b s) := by
  unfold execModeChangeApplied
  rw [keeps_next]
  split <;> simp

@[simp] theorem keeps_execHandover (w r nx s) : Keeps (core s) (execHandover w r nx s) := by simp [execHandover]

@[simp] theorem keeps_execForcedRecall (w r nx s) : Keeps (core s) (execForcedRecall w r nx s) := by simp [execForcedRecall]

@[simp] theorem keeps_execLeaseEndWrite (w r l s) : Keeps (core s) (execLeaseEndWrite w r l s) := by simp [execLeaseEndWrite]

@[simp] theorem keeps_execLeaseEnd (r s) : Keeps (core s) (execLeaseEnd r s) := by simp [execLeaseEnd]

/-! Functions of `Machine/Coherence`. -/

@[simp] theorem keeps_execGets (die m s) : Keeps (core s) (execGets die m s) := by simp [execGets]

@[simp] theorem keeps_execFill (die m s) : Keeps (core s) (execFill die m s) := by simp [execFill]

@[simp] theorem keeps_execInv (die m s) : Keeps (core s) (execInv die m s) := by simp [execInv]

@[simp] theorem keeps_execIack (die m s) : Keeps (core s) (execIack die m s) := by simp [execIack]

@[simp] theorem keeps_execAbsent (die m s) : Keeps (core s) (execAbsent die m s) := by simp [execAbsent]

@[simp] theorem keeps_execEvict (die m s) : Keeps (core s) (execEvict die m s) := by
  unfold execEvict
  dsimp only
  rw [keeps_next]
  repeat' split
  all_goals simp

@[simp] theorem keeps_execDirectoryWriteRelease (die line s) : Keeps (core s) (execDirectoryWriteRelease die line s) := by
  unfold execDirectoryWriteRelease
  rw [keeps_next]
  split <;> simp

@[simp] theorem keeps_execSharerLeaseEnd (die line sharer s) : Keeps (core s) (execSharerLeaseEnd die line sharer s) := by
  unfold execSharerLeaseEnd
  rw [keeps_next]
  split <;> simp

/-! Functions of `Machine/Async`. -/

@[simp] theorem keeps_execPut (st d a b imm s) : Keeps (core s) (execPut st d a b imm s) := by simp [execPut]

@[simp] theorem keeps_execGet (st d a b imm s) : Keeps (core s) (execGet st d a b imm s) := by simp [execGet]

@[simp] theorem keeps_execAtom (st d a b imm s) : Keeps (core s) (execAtom st d a b imm s) := by simp [execAtom]

@[simp] theorem keeps_execFlag (st d a b imm s) : Keeps (core s) (execFlag st d a b imm s) := by simp [execFlag]

@[simp] theorem keeps_execMcast (st d a b imm s) : Keeps (core s) (execMcast st d a b imm s) := by simp [execMcast]

/-! Functions of `Machine/Links`. -/

@[simp] theorem keeps_execFrameTransmit (port s) : Keeps (core s) (execFrameTransmit port s) := by simp [execFrameTransmit]

@[simp] theorem keeps_execIdleFrameTimer (port s) : Keeps (core s) (execIdleFrameTimer port s) := by simp [execIdleFrameTimer]

@[simp] theorem keeps_execIdleFrame (port bytes s) : Keeps (core s) (execIdleFrame port bytes s) := by simp [execIdleFrame]

@[simp] theorem keeps_execReplayTimeout (port s) : Keeps (core s) (execReplayTimeout port s) := by simp [execReplayTimeout]

@[simp] theorem keeps_execFastRetrain (w port s) : Keeps (core s) (execFastRetrain w port s) := by simp [execFastRetrain]

@[simp] theorem keeps_execFullTraining (w port s) : Keeps (core s) (execFullTraining w port s) := by simp [execFullTraining]

@[simp] theorem keeps_execPortOff (w port s) : Keeps (core s) (execPortOff w port s) := by simp [execPortOff]

@[simp] theorem keeps_execFastRetrainDone (port ok s) : Keeps (core s) (execFastRetrainDone port ok s) := by simp [execFastRetrainDone]

@[simp] theorem keeps_execElectricalTrainingDone (port flight s) : Keeps (core s) (execElectricalTrainingDone port flight s) := by
  unfold execElectricalTrainingDone
  dsimp only
  rw [keeps_next]
  repeat' split
  all_goals simp

@[simp] theorem keeps_execTrainingRetryTimer (port s) : Keeps (core s) (execTrainingRetryTimer port s) := by
  unfold execTrainingRetryTimer
  rw [keeps_next]
  split <;> simp

@[simp] theorem keeps_execPeerSignalDetected (port s) : Keeps (core s) (execPeerSignalDetected port s) := by simp [execPeerSignalDetected]

@[simp] theorem keeps_execAgreeFrame (port bytes s) : Keeps (core s) (execAgreeFrame port bytes s) := by
  unfold execAgreeFrame
  rw [keeps_next]
  split <;> simp

@[simp] theorem keeps_execAgreeRepeatTimer (port s) : Keeps (core s) (execAgreeRepeatTimer port s) := by simp [execAgreeRepeatTimer]

@[simp] theorem keeps_execAgreeWaitTimeout (port s) : Keeps (core s) (execAgreeWaitTimeout port s) := by
  unfold execAgreeWaitTimeout
  rw [keeps_next]
  split <;> simp

@[simp] theorem keeps_execSafeIdleTimer (port s) : Keeps (core s) (execSafeIdleTimer port s) := by simp [execSafeIdleTimer]

@[simp] theorem keeps_execSafeIdleFrame (port bytes s) : Keeps (core s) (execSafeIdleFrame port bytes s) := by
  unfold execSafeIdleFrame
  rw [keeps_next]
  split <;> simp

/-! Functions of `Machine/Program`. -/

@[simp] theorem keeps_execProgCmdNone (x0 x1 s) : Keeps (core s) (execProgCmdNone x0 x1 s) := by simp [execProgCmdNone]

@[simp] theorem keeps_execProgLoad (w st s) : Keeps (core s) (execProgLoad w st s) := by simp [execProgLoad]

@[simp] theorem keeps_execProgLoadDone (st s) : Keeps (core s) (execProgLoadDone st s) := by simp [execProgLoadDone]

@[simp] theorem keeps_execProgLaunch (w st s) : Keeps (core s) (execProgLaunch w st s) := by simp [execProgLaunch]

@[simp] theorem keeps_execProgStop (x0 st s) : Keeps (core s) (execProgStop x0 st s) := by simp [execProgStop]

@[simp] theorem keeps_execStopeReadyReturn (st s) : Keeps (core s) (execStopeReadyReturn st s) := by simp [execStopeReadyReturn]

/-! Functions of `Machine/Boot`. -/

@[simp] theorem keeps_execPowerUp (s) : Keeps (core s) (execPowerUp s) := (keeps_next _ _).2 (kept_if (.refl _ _) (.refl _ _))

@[simp] theorem keeps_execReset (cause s) (h : ¬MayReset (.reset cause)) : Keeps (core s) (execReset cause s) := by
  cases cause with
  | powerLoss => exact absurd trivial h
  | lowPulse ns => exact (keeps_next _ _).2 (by
    dsimp only
    rw [if_pos (Nat.not_le.1 h)]
    exact .refl _ _)

@[simp] theorem keeps_execResetRelease (s) : Keeps (core s) (execResetRelease s) := by simp [execResetRelease]

@[simp] theorem keeps_execResetHoldEnd (s) : Keeps (core s) (execResetHoldEnd s) := by simp [execResetHoldEnd]

@[simp] theorem keeps_execBankZeroingDone (s) : Keeps (core s) (execBankZeroingDone s) :=
  (keeps_next _ _).2 (kept_if ((Core.Kept.refl false (core s)).setMem (Memory.filter_wf _ _)) (.refl _ _))

@[simp] theorem keeps_execSecuritySelfTestDone (pass s) : Keeps (core s) (execSecuritySelfTestDone pass s) := by
  have hr : (core s).Kept false (core (recordTrip s)) := by simp
  refine (keeps_next _ _).2 (kept_if (.refl _ _) (kept_if (kept_sealedSafe hr) (kept_if hr ?_)))
  exact kept_report (fun _ => by decide) hr

@[simp] theorem keeps_execBridgeTrained (s) : Keeps (core s) (execBridgeTrained s) := (keeps_next _ _).2 (kept_if (.refl _ _) (.refl _ _))

@[simp] theorem keeps_execBridgeTrainingTimeout (s) : Keeps (core s) (execBridgeTrainingTimeout s) := by simp [execBridgeTrainingTimeout]

@[simp] theorem keeps_execHeadframeImageVerified (image s) : Keeps (core s) (execHeadframeImageVerified image s) := by
  refine (keeps_next _ _).2 (kept_if (.refl _ _) (kept_if ?_ (kept_bootFail (by simp))))
  rw [core_setStep]
  exact .refl _ _

@[simp] theorem keeps_execForemanImageVerified (image s) : Keeps (core s) (execForemanImageVerified image s) := by
  refine (keeps_next _ _).2 (kept_if (.refl _ _) (kept_if (kept_bootProgress ?_) (kept_bootFail (by simp))))
  rw [core_powerDomains, core_setStep]
  exact kept_foldl (.refl _ _) fun t f ht => by simpa using ht

@[simp] theorem keeps_execPcieLinkTrained (s) : Keeps (core s) (execPcieLinkTrained s) := by simp [execPcieLinkTrained]

@[simp] theorem keeps_execHeadframeHeartbeat (s) : Keeps (core s) (execHeadframeHeartbeat s) :=
  (keeps_next _ _).2 (kept_if (.refl _ _) (.refl _ _))

@[simp] theorem keeps_execHeadframeTakeover (s) : Keeps (core s) (execHeadframeTakeover s) := by
  unfold execHeadframeTakeover
  rw [keeps_next]
  split <;> simp

@[simp] theorem keeps_execFirstHeartbeatTimeout (s) : Keeps (core s) (execFirstHeartbeatTimeout s) := by simp [execFirstHeartbeatTimeout]

@[simp] theorem keeps_execForemanLost (f s) : Keeps (core s) (execForemanLost f s) := by simp [execForemanLost]

@[simp] theorem keeps_execMusterFrame (bytes s) : Keeps (core s) (execMusterFrame bytes s) := by simp [execMusterFrame]

@[simp] theorem keeps_execChainFrameGap (s) : Keeps (core s) (execChainFrameGap s) := by simp [execChainFrameGap]

@[simp] theorem keeps_execAssign (w value s) : Keeps (core s) (execAssign w value s) := by simp [execAssign]

@[simp] theorem keeps_execMusterExpiry (s) : Keeps (core s) (execMusterExpiry s) := (keeps_next _ _).2 (kept_if (.refl _ _) (.refl _ _))

@[simp] theorem keeps_execDeviceReady (s) : Keeps (core s) (execDeviceReady s) := by
  refine (keeps_next _ _).2 ?_
  split
  · next h =>
    have hb := kept_handBanks (.refl true (core s))
    obtain ⟨v, w, hv, hw, hc⟩ := core_setDevState (handBanks s) 2
    have h0 : ((core (handBanks s)).svc 0).state = 1 := by
      rw [hb.rest rfl]
      exact h.1
    rw [core_event, core_setStep, hc]
    exact hb.weaken.putBoth (by omega) (by omega) hv hw (by decide)
  · exact .refl _ _

@[simp] theorem keeps_execPeerDisagreementTimeout (s) : Keeps (core s) (execPeerDisagreementTimeout s) := by
  unfold execPeerDisagreementTimeout
  rw [keeps_next]
  split <;> simp

@[simp] theorem keeps_execPinFuncWrite (w hi value s) : Keeps (core s) (execPinFuncWrite w hi value s) := by simp [execPinFuncWrite]

@[simp] theorem keeps_execPinParkEnd (s) : Keeps (core s) (execPinParkEnd s) := by simp [execPinParkEnd]

/-! Functions of `Machine/Commits`. -/

@[simp] theorem keeps_execCommitApplied (die page s) : Keeps (core s) (execCommitApplied die page s) := by
  unfold execCommitApplied
  rw [keeps_next]
  split <;> simp

/-! Functions of `Machine/HostRegs`. -/

@[simp] theorem keeps_execRqTailWrite (value s) : Keeps (core s) (execRqTailWrite value s) := by simp [execRqTailWrite]

@[simp] theorem keeps_execCqHeadWrite (value s) : Keeps (core s) (execCqHeadWrite value s) := by simp [execCqHeadWrite]

@[simp] theorem keeps_execQueueEnable (w s) : Keeps (core s) (execQueueEnable w s) := by simp [execQueueEnable]

@[simp] theorem keeps_execQueueDisable (w s) : Keeps (core s) (execQueueDisable w s) := by simp [execQueueDisable]

@[simp] theorem keeps_execFunctionLevelReset (s) : Keeps (core s) (execFunctionLevelReset s) := by
  refine (keeps_next _ _).2 (kept_if (.refl _ _) (kept_if (by simp) ?_))
  dsimp only
  rw [core_withHost]
  exact kept_foldl (by simp) fun t o ht => by simpa using ht

@[simp] theorem keeps_execDoorbellClear (value s) : Keeps (core s) (execDoorbellClear value s) := by simp [execDoorbellClear]

@[simp] theorem keeps_execDbMaskHostWrite (value s) : Keeps (core s) (execDbMaskHostWrite value s) := by simp [execDbMaskHostWrite]

@[simp] theorem keeps_execDbMaskHfWrite (w value s) : Keeps (core s) (execDbMaskHfWrite w value s) := by simp [execDbMaskHfWrite]

@[simp] theorem keeps_execMailboxPost (m bytes s) : Keeps (core s) (execMailboxPost m bytes s) := by simp [execMailboxPost]

@[simp] theorem keeps_execMailboxPop (w m s) : Keeps (core s) (execMailboxPop w m s) := by simp [execMailboxPop]

/-! Functions of `Machine/HostReqs`. -/

@[simp] theorem keeps_execRequestFetch (bytes s) : Keeps (core s) (execRequestFetch bytes s) := by simp [execRequestFetch]

@[simp] theorem keeps_execHostDataReadDone (op result s) : Keeps (core s) (execHostDataReadDone op result s) := by
  unfold execHostDataReadDone
  dsimp only
  rw [keeps_next]
  repeat' split
  all_goals simp

@[simp] theorem keeps_execApertureRead (offset len s) : Keeps (core s) (execApertureRead offset len s) := by
  unfold execApertureRead
  dsimp only
  rw [keeps_next]
  repeat' split
  all_goals simp

@[simp] theorem keeps_execApertureWrite (offset data s) : Keeps (core s) (execApertureWrite offset data s) := by
  unfold execApertureWrite
  dsimp only
  rw [keeps_next]
  repeat' split
  all_goals simp

@[simp] theorem keeps_execApertureWriteRelease (s) : Keeps (core s) (execApertureWriteRelease s) := by
  unfold execApertureWriteRelease
  rw [keeps_next]
  split <;> simp

@[simp] theorem keeps_execPcieConfigRequest (offset s) : Keeps (core s) (execPcieConfigRequest offset s) := by simp [execPcieConfigRequest]

/-! Functions of `Machine/Attest`. -/

@[simp] theorem keeps_execGetVersion (message s) : Keeps (core s) (execGetVersion message s) := by simp [execGetVersion]

@[simp] theorem keeps_execGetCapabilities (message s) : Keeps (core s) (execGetCapabilities message s) := by simp [execGetCapabilities]

@[simp] theorem keeps_execNegotiateAlgorithms (message s) :
    Keeps (core s) (execNegotiateAlgorithms message s) := by simp [execNegotiateAlgorithms]

@[simp] theorem keeps_execGetDigests (message s) : Keeps (core s) (execGetDigests message s) := by simp [execGetDigests]

@[simp] theorem keeps_execGetCertificate (message s) : Keeps (core s) (execGetCertificate message s) := by simp [execGetCertificate]

@[simp] theorem keeps_execChallenge (message s) : Keeps (core s) (execChallenge message s) := by simp [execChallenge]

@[simp] theorem keeps_execGetMeasurements (message s) : Keeps (core s) (execGetMeasurements message s) := by simp [execGetMeasurements]

@[simp] theorem keeps_execKeyExchange (message s) : Keeps (core s) (execKeyExchange message s) := by simp [execKeyExchange]

@[simp] theorem keeps_execFinish (session message s) : Keeps (core s) (execFinish session message s) := by simp [execFinish]

@[simp] theorem keeps_execHeartbeat (session message s) : Keeps (core s) (execHeartbeat session message s) := by simp [execHeartbeat]

@[simp] theorem keeps_execEndSession (session message s) : Keeps (core s) (execEndSession session message s) := by simp [execEndSession]

@[simp] theorem keeps_execAttestationFrame (port bytes s) : Keeps (core s) (execAttestationFrame port bytes s) := by
  unfold execAttestationFrame
  rw [keeps_next]
  split <;> simp

@[simp] theorem keeps_execAttestationTimeout (port s) : Keeps (core s) (execAttestationTimeout port s) := by simp [execAttestationTimeout]

/-! Functions of `Machine/Control`. -/

@[simp] theorem keeps_execLoop (st d a b imm s) : Keeps (core s) (execLoop st d a b imm s) := by simp [execLoop]

@[simp] theorem keeps_execBeq (st d a b imm s) : Keeps (core s) (execBeq st d a b imm s) := by simp [execBeq]

@[simp] theorem keeps_execBne (st d a b imm s) : Keeps (core s) (execBne st d a b imm s) := by simp [execBne]

@[simp] theorem keeps_execBlt (st d a b imm s) : Keeps (core s) (execBlt st d a b imm s) := by simp [execBlt]

@[simp] theorem keeps_execBge (st d a b imm s) : Keeps (core s) (execBge st d a b imm s) := by simp [execBge]

@[simp] theorem keeps_execBltu (st d a b imm s) : Keeps (core s) (execBltu st d a b imm s) := by simp [execBltu]

@[simp] theorem keeps_execJmp (st d a b imm s) : Keeps (core s) (execJmp st d a b imm s) := by simp [execJmp]

@[simp] theorem keeps_execHalt (st d a b imm s) : Keeps (core s) (execHalt st d a b imm s) := by simp [execHalt]

@[simp] theorem keeps_execReservedOpcode (st word s) : Keeps (core s) (execReservedOpcode st word s) := by simp [execReservedOpcode]

/-! Functions of `Machine/LoadStore`. -/

@[simp] theorem keeps_execLds (st d a b imm s) : Keeps (core s) (execLds st d a b imm s) :=
  (keeps_next _ _).2 (kept_issue (.refl _ _) (kept_doLoad (fun _ _ _ => kept_metIn) (.refl _ _)))

@[simp] theorem keeps_execSts (st d a b imm s) : Keeps (core s) (execSts st d a b imm s) :=
  (keeps_next _ _).2 (kept_issue (.refl _ _) (kept_doStore (fun _ _ _ => kept_metIn) (.refl _ _)))

@[simp] theorem keeps_execVld (st d a b imm s) : Keeps (core s) (execVld st d a b imm s) :=
  (keeps_next _ _).2 (kept_issue (.refl _ _) (kept_doLoad (fun _ _ _ => kept_metIn) (.refl _ _)))

@[simp] theorem keeps_execVst (st d a b imm s) : Keeps (core s) (execVst st d a b imm s) :=
  (keeps_next _ _).2 (kept_issue (.refl _ _) (kept_doStore (fun _ _ _ => kept_metIn) (.refl _ _)))

/-! Functions of `Machine/FaceOps`. -/

@[simp] theorem keeps_execFace (st d a b imm s) : Keeps (core s) (execFace st d a b imm s) :=
  (keeps_next _ _).2 (kept_longIns (fun _ _ => kept_judgeFace (.refl _ _)) (core_selectCanary) (.refl _ _))

@[simp] theorem keeps_execFacePassComplete (st errs replayErrs s) : Keeps (core s) (execFacePassComplete st errs replayErrs s) := by
  unfold execFacePassComplete
  rw [keeps_next]
  split <;> simp

@[simp] theorem keeps_execFaceTileComplete (st s) : Keeps (core s) (execFaceTileComplete st s) := by
  have h := kept_lastPass (n := st.val) (kept_faceFetched (n := st.val) (.refl false (core s)))
  refine (keeps_next _ _).2 ?_
  split
  · split
    · exact kept_if h (kept_endTile h)
    · exact h
  · exact .refl _ _

@[simp] theorem keeps_execCanaryCopyDone (st s) : Keeps (core s) (execCanaryCopyDone st s) := by
  unfold execCanaryCopyDone
  rw [keeps_next]
  split <;> simp

@[simp] theorem keeps_execCanaryResultReturn (st errs replayErrs partnerErrs s) :
    Keeps (core s) (execCanaryResultReturn st errs replayErrs partnerErrs s) := by
  refine (keeps_next _ _).2 ?_
  split
  · split
    · refine kept_if (.refl _ _) (kept_if (by simp) ?_)
      dsimp only
      generalize hp : canaryPass s st _ _ _ errs partnerErrs = p
      have h : (core s).Kept false (core p.1) := hp ▸ kept_canaryPass (.refl _ _)
      obtain ⟨s1, _ | canary⟩ := p
      · simpa using h
      · refine kept_if ?_ (kept_resolveCanary ?_) <;> simpa using h
    · exact .refl _ _
  · exact .refl _ _

@[simp] theorem keeps_execAmaxSlotClear (w st value s) : Keeps (core s) (execAmaxSlotClear w st value s) := by simp [execAmaxSlotClear]

@[simp] theorem keeps_execTotalsClear (w st value s) : Keeps (core s) (execTotalsClear w st value s) := by simp [execTotalsClear]

/-! Functions of `Machine/SweepOps`. -/

@[simp] theorem keeps_execUpd (st d a b imm s) : Keeps (core s) (execUpd st d a b imm s) :=
  (keeps_next _ _).2 (kept_longIns (fun _ _ => kept_judgeUpd (.refl _ _)) (fun _ _ _ _ => rfl) (.refl _ _))

@[simp] theorem keeps_execUpdComplete (st s) : Keeps (core s) (execUpdComplete st s) := by
  unfold execUpdComplete
  dsimp only
  rw [keeps_next]
  repeat' split
  all_goals simp

@[simp] theorem keeps_execQuant (st d a b imm s) : Keeps (core s) (execQuant st d a b imm s) :=
  (keeps_next _ _).2 (kept_longIns (fun _ _ => kept_judgeQuant (.refl _ _)) (fun _ _ _ _ => rfl) (.refl _ _))

@[simp] theorem keeps_execQuantComplete (st s) : Keeps (core s) (execQuantComplete st s) := by
  unfold execQuantComplete
  rw [keeps_next]
  split <;> simp

/-! Functions of `Machine/Waits`. -/

@[simp] theorem keeps_execWait (st d a b imm s) : Keeps (core s) (execWait st d a b imm s) := by simp [execWait]

@[simp] theorem keeps_execWaitf (st d a b imm s) : Keeps (core s) (execWaitf st d a b imm s) := by
  refine (keeps_next _ _).2 (kept_issue (.refl _ _) (kept_if (by simp) (kept_if (.refl _ _) ?_)))
  dsimp only
  split
  · next t ht => exact kept_pollFlag ht (by simp)
  · exact kept_if (by simp) (by simp)

@[simp] theorem keeps_execWaitfPoll (st s) : Keeps (core s) (execWaitfPoll st s) := by
  refine (keeps_next _ _).2 ?_
  split
  · next d addr val t _ _ =>
    cases hp : pollFlag s st.val d addr val t with
    | none => exact .refl _ _
    | some u => exact kept_pollFlag hp (.refl _ _)
  · exact .refl _ _

@[simp] theorem keeps_execWaitfTimeout (st s) : Keeps (core s) (execWaitfTimeout st s) := by
  unfold execWaitfTimeout
  rw [keeps_next]
  split <;> simp

@[simp] theorem keeps_execWaitt (st d a b imm s) : Keeps (core s) (execWaitt st d a b imm s) := by simp [execWaitt]

@[simp] theorem keeps_execWaittExpiry (st s) : Keeps (core s) (execWaittExpiry st s) := by
  unfold execWaittExpiry
  rw [keeps_next]
  split <;> simp

@[simp] theorem keeps_execWaitall (st d a b imm s) : Keeps (core s) (execWaitall st d a b imm s) := by simp [execWaitall]

@[simp] theorem keeps_execFence (st d a b imm s) : Keeps (core s) (execFence st d a b imm s) := by simp [execFence]

/-! Functions of `Machine/Banks`. -/

@[simp] theorem keeps_execBankPortBAccess (b cyc s) : Keeps (core s) (execBankPortBAccess b cyc s) := by simp [execBankPortBAccess]

@[simp] theorem keeps_execIadd32 (b cyc s) : Keeps (core s) (execIadd32 b cyc s) := by simp [execIadd32]

@[simp] theorem keeps_execIadd64 (b cyc s) : Keeps (core s) (execIadd64 b cyc s) := by simp [execIadd64]

@[simp] theorem keeps_execFadd32 (b cyc s) : Keeps (core s) (execFadd32 b cyc s) := by simp [execFadd32]

@[simp] theorem keeps_execFadd16 (b cyc s) : Keeps (core s) (execFadd16 b cyc s) := by simp [execFadd16]

@[simp] theorem keeps_execSwap (b cyc s) : Keeps (core s) (execSwap b cyc s) := by simp [execSwap]

@[simp] theorem keeps_execCas (b cyc s) : Keeps (core s) (execCas b cyc s) := by simp [execCas]

@[simp] theorem keeps_execFlagSet (b cyc s) : Keeps (core s) (execFlagSet b cyc s) := by simp [execFlagSet]

@[simp] theorem keeps_execFlagAdd (b cyc s) : Keeps (core s) (execFlagAdd b cyc s) := by simp [execFlagAdd]

/-! Functions of `Machine/FaultCmds`. -/

@[simp] theorem keeps_execPoweredSecondWrite (die s) : Keeps (core s) (execPoweredSecondWrite die s) := by simp [execPoweredSecondWrite]

@[simp] theorem keeps_execDrainWindowEnd (die s) : Keeps (core s) (execDrainWindowEnd die s) := by
  refine (keeps_next _ _).2 (kept_if (kept_foldl ?_ fun t e ht => ?_) (.refl _ _))
  · rw [core_failHomes]
    exact kept_failAll (.refl _ _)
  · rw [core_setHistory]
    exact ht.putSame (fun h => by cases congrArg Service.drained h) ⟨rfl, rfl⟩

@[simp] theorem keeps_execHistorySealDone (die s) : Keeps (core s) (execHistorySealDone die s) :=
  (keeps_next _ _).2 (kept_if (kept_enterSafe die.isLt (.refl _ _)) (.refl _ _))

@[simp] theorem keeps_execBridgeLockLoss (s) : Keeps (core s) (execBridgeLockLoss s) := by simp [execBridgeLockLoss]

@[simp] theorem keeps_execBridgeProgressTimeout (s) : Keeps (core s) (execBridgeProgressTimeout s) :=
  (keeps_next _ _).2 (kept_if (.refl _ _) (.refl _ _))

@[simp] theorem keeps_execBridgeRetrainTimeout (s) : Keeps (core s) (execBridgeRetrainTimeout s) := by
  unfold execBridgeRetrainTimeout
  rw [keeps_next]
  split <;> simp

/-! Functions of `Machine/Hoist`. -/

@[simp] theorem keeps_execHoist (st d a b imm s) : Keeps (core s) (execHoist st d a b imm s) := by simp [execHoist]

@[simp] theorem keeps_execChannelLaunch (w c s) : Keeps (core s) (execChannelLaunch w c s) := by simp [execChannelLaunch]

@[simp] theorem keeps_execChannelStop (w c s) : Keeps (core s) (execChannelStop w c s) := by simp [execChannelStop]

@[simp] theorem keeps_execHoistCntClear (w e value s) : Keeps (core s) (execHoistCntClear w e value s) := by simp [execHoistCntClear]

/-! Functions of `Machine/Keys`. -/

@[simp] theorem keeps_execKeyInstall (w s) : Keeps (core s) (execKeyInstall w s) := by simp [execKeyInstall]

@[simp] theorem keeps_execKeyRetireOne (w s) : Keeps (core s) (execKeyRetireOne w s) := by simp [execKeyRetireOne]

@[simp] theorem keeps_execKeyRetireAll (w s) : Keeps (core s) (execKeyRetireAll w s) := by simp [execKeyRetireAll]

@[simp] theorem keeps_execSvnRaiseHeadframe (w s) : Keeps (core s) (execSvnRaiseHeadframe w s) := by simp [execSvnRaiseHeadframe]

@[simp] theorem keeps_execSvnRaiseForeman (w s) : Keeps (core s) (execSvnRaiseForeman w s) := by simp [execSvnRaiseForeman]

@[simp] theorem keeps_execSvnRaiseStope (w floor s) : Keeps (core s) (execSvnRaiseStope w floor s) := by simp [execSvnRaiseStope]

@[simp] theorem keeps_execRevoke (w slot s) : Keeps (core s) (execRevoke w slot s) := by simp [execRevoke]

/-! Functions of `Machine/PinCmds`. -/

@[simp] theorem keeps_execTachometerEdge (fan s) : Keeps (core s) (execTachometerEdge fan s) := by simp [execTachometerEdge]

@[simp] theorem keeps_execTachometerNotice (s) : Keeps (core s) (execTachometerNotice s) := by simp [execTachometerNotice]

@[simp] theorem keeps_execCaptureEdge (capture s) : Keeps (core s) (execCaptureEdge capture s) := by simp [execCaptureEdge]

@[simp] theorem keeps_execCaptureNotice (capture s) : Keeps (core s) (execCaptureNotice capture s) := by
  unfold execCaptureNotice
  dsimp only
  rw [keeps_next]
  split <;> simp

@[simp] theorem keeps_execEntdaa (bus address s) : Keeps (core s) (execEntdaa bus address s) := by simp [execEntdaa]

/-! Functions of `Machine/PowerHeat`. -/

@[simp] theorem keeps_execDomainOn (w f idx s) : Keeps (core s) (execDomainOn w f idx s) := by simp [execDomainOn]

@[simp] theorem keeps_execDomainOff (w f idx s) : Keeps (core s) (execDomainOff w f idx s) := by simp [execDomainOff]

@[simp] theorem keeps_execDomainPoweredUp (dom s) : Keeps (core s) (execDomainPoweredUp dom s) := by simp [execDomainPoweredUp]

@[simp] theorem keeps_execDomainPowerRemoved (dom s) : Keeps (core s) (execDomainPowerRemoved dom s) := by simp [execDomainPowerRemoved]

@[simp] theorem keeps_execDvfsClockSwitch (die s) : Keeps (core s) (execDvfsClockSwitch die s) := by simp [execDvfsClockSwitch]

@[simp] theorem keeps_execDvfsChangeEnd (die s) : Keeps (core s) (execDvfsChangeEnd die s) := by
  unfold execDvfsChangeEnd
  rw [keeps_next]
  split <;> simp

@[simp] theorem keeps_execPllLockLoss (die pll s) : Keeps (core s) (execPllLockLoss die pll s) :=
  (keeps_next _ _).2 (kept_if (kept_report (fun _ => die.isLt) (.refl _ _)) (.refl _ _))

theorem railDies_lt (r : Option Rail) : ∀ e ∈ railDies r, e < 2 := by
  intro e he
  unfold railDies at he
  split at he
  · next d =>
    obtain rfl : e = d.val := by simpa using he
    exact d.isLt
  · next k =>
    obtain rfl : e = k.val / 4 := by simpa using he
    omega
  · simp at he
    omega

@[simp] theorem keeps_execRailSample (r inBounds s) : Keeps (core s) (execRailSample r inBounds s) :=
  (keeps_next _ _).2 (kept_if (.refl _ _) (kept_if (kept_railFails (railDies_lt _) (.refl _ _)) (.refl _ _)))

@[simp] theorem keeps_execInputSample (millivolts s) (h : ¬MayReset (.inputSample millivolts)) :
    Keeps (core s) (execInputSample millivolts s) := by
  unfold execInputSample
  rw [keeps_next]
  dsimp only
  rw [if_neg (show ¬(millivolts < 36000 ∨ 63000 < millivolts) from h)]
  exact kept_if (kept_railFails (railDies_lt _) (.refl _ _)) (.refl _ _)

@[simp] theorem keeps_execPowerMonitorReport (meanWatts s) :
    Keeps (core s) (execPowerMonitorReport meanWatts s) := by simp [execPowerMonitorReport]

@[simp] theorem keeps_execJunctionSample (hl celsius s) : Keeps (core s) (execJunctionSample hl celsius s) := by
  have hd : hl.val / 32 < 2 := by omega
  unfold execJunctionSample
  rw [keeps_next]
  dsimp only
  refine kept_if (by simp) (kept_if (kept_dieFail hd (kept_report (fun _ => hd) ?_)) ?_) <;> simp

/-! Functions of `Machine/Stacks`. -/

@[simp] theorem keeps_execStackAccess (k errs s) : Keeps (core s) (execStackAccess k errs s) := by
  unfold execStackAccess
  dsimp only
  rw [keeps_next]
  repeat' split
  all_goals simp

@[simp] theorem keeps_execRegionRemapDone (k s) : Keeps (core s) (execRegionRemapDone k s) := by
  unfold execRegionRemapDone
  rw [keeps_next]
  split <;> simp

@[simp] theorem keeps_execRefresh (k s) : Keeps (core s) (execRefresh k s) := by simp [execRefresh]

@[simp] theorem keeps_execStackTempSample (k celsius s) : Keeps (core s) (execStackTempSample k celsius s) := by
  unfold execStackTempSample
  dsimp only
  rw [keeps_next]
  repeat' split
  all_goals simp

@[simp] theorem keeps_execStackResume (w k s) : Keeps (core s) (execStackResume w k s) := by simp [execStackResume]

@[simp] theorem keeps_execStackZeroingDone (k s) : Keeps (core s) (execStackZeroingDone k s) := by simp [execStackZeroingDone]

/-! Functions of `Machine/TimeOps`. -/

@[simp] theorem keeps_execTimeFrame (port bytes s) : Keeps (core s) (execTimeFrame port bytes s) := by
  unfold execTimeFrame
  rw [keeps_next]
  split <;> simp

@[simp] theorem keeps_execTimeFrameTimer (port s) : Keeps (core s) (execTimeFrameTimer port s) := by simp [execTimeFrameTimer]

@[simp] theorem keeps_execBridgeTimeExchange (die s) : Keeps (core s) (execBridgeTimeExchange die s) := by simp [execBridgeTimeExchange]

@[simp] theorem keeps_execTimeSourceTimeout (die s) : Keeps (core s) (execTimeSourceTimeout die s) := by simp [execTimeSourceTimeout]

@[simp] theorem keeps_execTimeDoubtSafeTimeout (s) : Keeps (core s) (execTimeDoubtSafeTimeout s) := by simp [execTimeDoubtSafeTimeout]

@[simp] theorem keeps_execPpsEdge (highNs s) : Keeps (core s) (execPpsEdge highNs s) := by
  unfold execPpsEdge
  dsimp only
  rw [keeps_next]
  repeat' split
  all_goals simp

@[simp] theorem keeps_execPpsAbsenceTimeout (s) : Keeps (core s) (execPpsAbsenceTimeout s) := by simp [execPpsAbsenceTimeout]

@[simp] theorem keeps_execFloorTargetWrite (w die value s) :
    Keeps (core s) (execFloorTargetWrite w die value s) := by simp [execFloorTargetWrite]

@[simp] theorem keeps_execThrottleWrite (w die value s) : Keeps (core s) (execThrottleWrite w die value s) := by simp [execThrottleWrite]

@[simp] theorem keeps_execTimeLoRead (die s) : Keeps (core s) (execTimeLoRead die s) := by simp [execTimeLoRead]

/-! Functions of `Machine/Pages`. -/

@[simp] theorem keeps_execProfileCommit (w die g s) : Keeps (core s) (execProfileCommit w die g s) := by simp [execProfileCommit]

@[simp] theorem keeps_execProfileCopyStart (die s) : Keeps (core s) (execProfileCopyStart die s) :=
  (keeps_next _ _).2 (kept_if (.refl _ _) (.refl _ _))

@[simp] theorem keeps_execProfileCopyDone (die s) : Keeps (core s) (execProfileCopyDone die s) :=
  (keeps_next _ _).2 (kept_if (kept_foldl (.refl _ _) fun t d ht => by simpa using ht) (.refl _ _))

@[simp] theorem keeps_execRegisterWrite (w path die page offset bytes s) :
    Keeps (core s) (execRegisterWrite w path die page offset bytes s) := by simp [execRegisterWrite]

@[simp] theorem keeps_execReadAndClear (path die page offset size s) :
    Keeps (core s) (execReadAndClear path die page offset size s) := by simp [execReadAndClear]

@[simp] theorem keeps_execRecordRead (die s) : Keeps (core s) (execRecordRead die s) := by simp [execRecordRead]

@[simp] theorem keeps_execBlkCommit (w die page g s) : Keeps (core s) (execBlkCommit w die page g s) := by simp [execBlkCommit]

@[simp] theorem keeps_execI3cPrivateWrite (bus bytes s) : Keeps (core s) (execI3cPrivateWrite bus bytes s) := by simp [execI3cPrivateWrite]

@[simp] theorem keeps_execI3cPrivateRead (bus s) : Keeps (core s) (execI3cPrivateRead bus s) := by simp [execI3cPrivateRead]

/-! Functions of `Machine/HoistSteps`. -/

@[simp] theorem keeps_execBlockRelease (c row s) : Keeps (core s) (execBlockRelease c row s) := by
  refine (keeps_next _ _).2 ?_
  split
  · split
    · exact kept_if (kept_stepEvent (.refl _ _) (kept_releaseBlock (.refl _ _))) (.refl _ _)
    · exact .refl _ _
  · exact .refl _ _

@[simp] theorem keeps_execMapEntryWrite (c row s) : Keeps (core s) (execMapEntryWrite c row s) := by
  refine (keeps_next _ _).2 ?_
  split
  · split
    · exact kept_if (kept_stepEvent (.refl _ _) (by simp)) (.refl _ _)
    · exact .refl _ _
  · exact .refl _ _

@[simp] theorem keeps_execHoistStepDone (c row s) : Keeps (core s) (execHoistStepDone c row s) := by
  unfold execHoistStepDone
  rw [keeps_next]
  split <;> simp

/-! Functions of `Machine/HoistCmds`. -/

@[simp] theorem keeps_execHead (c s) : Keeps (core s) (execHead c s) := by simp [execHead]

@[simp] theorem keeps_execMove (c s) : Keeps (core s) (execMove c s) := by simp +contextual [execMove]

@[simp] theorem keeps_execExpand (c s) : Keeps (core s) (execExpand c s) := by simp +contextual [execExpand]

@[simp] theorem keeps_execCompress (c s) : Keeps (core s) (execCompress c s) := by simp +contextual [execCompress]

@[simp] theorem keeps_execTable (c s) : Keeps (core s) (execTable c s) := by simp +contextual [execTable]

@[simp] theorem keeps_execKvgather (c s) : Keeps (core s) (execKvgather c s) := by simp +contextual [execKvgather]

@[simp] theorem keeps_execSetb (c s) : Keeps (core s) (execSetb c s) := by simp [execSetb]

@[simp] theorem keeps_execDescLoop (c s) : Keeps (core s) (execDescLoop c s) := by simp [execDescLoop]

@[simp] theorem keeps_execDescWait (c s) : Keeps (core s) (execDescWait c s) := by simp +contextual [execDescWait]

@[simp] theorem keeps_execHoistWaitPoll (c s) : Keeps (core s) (execHoistWaitPoll c s) := by
  unfold execHoistWaitPoll
  rw [keeps_next]
  split <;> simp

@[simp] theorem keeps_execHoistWaitTimeout (c s) : Keeps (core s) (execHoistWaitTimeout c s) := by
  unfold execHoistWaitTimeout
  rw [keeps_next]
  split <;> simp

@[simp] theorem keeps_execDescFlag (c s) : Keeps (core s) (execDescFlag c s) := by simp +contextual [execDescFlag]

@[simp] theorem keeps_execDescFence (c s) : Keeps (core s) (execDescFence c s) := by simp [execDescFence]

@[simp] theorem keeps_execHoistEnd (c s) : Keeps (core s) (execHoistEnd c s) := by simp [execHoistEnd]

@[simp] theorem keeps_execInnerOpRetry (c s) : Keeps (core s) (execInnerOpRetry c s) := by simp [execInnerOpRetry]

@[simp] theorem keeps_execScriptComplete (c s) : Keeps (core s) (execScriptComplete c s) := by
  refine (keeps_next _ _).2 ?_
  split
  · split
    · exact kept_if (kept_if (kept_endScript (.refl _ _)) (kept_endScript (.refl _ _))) (.refl _ _)
    · exact .refl _ _
  · exact .refl _ _

/-! Functions of `Machine/Routing`. -/

@[simp] theorem keeps_execFrameForward (die index s) : Keeps (core s) (execFrameForward die index s) := by
  unfold execFrameForward
  dsimp only
  rw [keeps_next]
  repeat' split
  all_goals simp

@[simp] theorem keeps_execFrameDeadlineDrop (die index s) : Keeps (core s) (execFrameDeadlineDrop die index s) := by
  unfold execFrameDeadlineDrop
  dsimp only
  rw [keeps_next]
  repeat' split
  all_goals simp

@[simp] theorem keeps_execOperationFrame (port bytes s) : Keeps (core s) (execOperationFrame port bytes s) := by
  unfold execOperationFrame
  dsimp only
  rw [keeps_next]
  repeat' split
  all_goals simp

@[simp] theorem keeps_execRouteNotice (port bytes s) : Keeps (core s) (execRouteNotice port bytes s) := by
  unfold execRouteNotice
  dsimp only
  rw [keeps_next]
  repeat' split
  all_goals simp

/-! Functions of `Machine/Messages`. -/

theorem kept_takeMsg {s : State} {d m p} (h : takeMsg s d m = some p) : (core s).Kept false (core p.1) := by
  rw [core_takeMsg h]
  exact .refl _ _

@[simp] theorem keeps_execPutMessage (die m s) : Keeps (core s) (execPutMessage die m s) := by
  refine (keeps_next _ _).2 (kept_if (.refl _ _) ?_)
  split
  · next h => exact kept_if (kept_putArrives (kept_takeMsg h)) (.refl _ _)
  · exact .refl _ _

@[simp] theorem keeps_execHeldPutRelease (die m s) : Keeps (core s) (execHeldPutRelease die m s) := by simp [execHeldPutRelease]

@[simp] theorem keeps_execHeldPutDeadline (die m s) : Keeps (core s) (execHeldPutDeadline die m s) := by simp [execHeldPutDeadline]

@[simp] theorem keeps_execGetMessage (die m s) : Keeps (core s) (execGetMessage die m s) := by
  refine (keeps_next _ _).2 (kept_if (.refl _ _) ?_)
  split
  · next h => exact kept_if (kept_getArrives (kept_takeMsg h)) (.refl _ _)
  · exact .refl _ _

@[simp] theorem keeps_execMcput (port m s) : Keeps (core s) (execMcput port m s) := by
  refine (keeps_next _ _).2 (kept_if (.refl _ _) ?_)
  split
  · exact .refl _ _
  · next h =>
    have ht := kept_takeMsg h
    refine kept_if (.refl _ _) (kept_if (by simpa using ht) (kept_if (by simpa using ht) (kept_if (by simpa using ht) (kept_if (kept_if ?_ ?_) ?_))))
    · simpa using ht
    · exact .refl _ _
    · exact kept_copyArrives ht

@[simp] theorem keeps_execMcCombineTimeout (die copy s) : Keeps (core s) (execMcCombineTimeout die copy s) := by
  unfold execMcCombineTimeout
  rw [keeps_next]
  split <;> simp

@[simp] theorem keeps_execComp (die m s) : Keeps (core s) (execComp die m s) := by
  refine (keeps_next _ _).2 (kept_if (.refl _ _) ?_)
  split
  · exact .refl _ _
  · next h =>
    have ht := kept_takeMsg h
    refine kept_if (.refl _ _) ?_
    split
    · simpa using ht
    · exact kept_resume (by simpa using ht)

@[simp] theorem keeps_execAck (die m s) : Keeps (core s) (execAck die m s) := by
  refine (keeps_next _ _).2 (kept_if (.refl _ _) ?_)
  split
  · exact .refl _ _
  · next h =>
    have ht := kept_takeMsg h
    refine kept_if (.refl _ _) ?_
    split
    · exact kept_if (by simpa using ht) ht
    · exact ht

@[simp] theorem keeps_execAckTimer (die dest kind agent cls s) : Keeps (core s) (execAckTimer die dest kind agent cls s) := by
  unfold execAckTimer
  dsimp only
  rw [keeps_next]
  repeat' split
  all_goals simp

@[simp] theorem keeps_execRetransmitTimer (op s) : Keeps (core s) (execRetransmitTimer op s) := by
  unfold execRetransmitTimer
  rw [keeps_next]
  split <;> simp

@[simp] theorem keeps_execDeadlineTimer (op s) : Keeps (core s) (execDeadlineTimer op s) := by
  refine (keeps_next _ _).2 ?_
  split
  · exact kept_if (.refl _ _) (kept_resume (by simp))
  · split
    · exact kept_longTimer (.refl _ _)
    · split
      · exact kept_if (.refl _ _) (kept_endScript (.refl _ _))
      · exact .refl _ _

theorem exec_keeps (c : Instr) (s : State) (h : ¬MayReset c) : Keeps (core s) (exec c s) := by
  cases c with
  | reset cause => exact keeps_execReset cause s h
  | thermtrip => exact absurd trivial h
  | inputSample mv => exact keeps_execInputSample mv s h
  | _ => simp [exec]

end Sys2Proof.Machine
end

section
/-!
What every step keeps, a reset's too, and the obligations that say so of memory's form (O58), the safe dies (O53) and the floors and the
revoked keys (O54).
-/

namespace Sys2Proof.Machine

/-! A reset keeps memory, the floors and the revoked keys. -/

theorem lasts_resetState (s) : (core s).Lasts (core (resetState s)) := by
  obtain ⟨ts, o, e⟩ := resetState_eq s
  rw [e]
  exact ⟨id, fun _ _ => Nat.le_refl _, fun _ h => h⟩

theorem lasts_powerLost (s) : (core s).Lasts (core (powerLost s)) := by
  have h : ∀ u p q, core u = core s → (core s).Lasts (core { resetState u with power := p, pins := q }) :=
    fun u _ _ hu => hu ▸ lasts_resetState u
  unfold powerLost
  split
  · exact h _ Power.reset Pins.reset rfl
  · exact .refl _

theorem exec_lasts_of_mayReset {c : Instr} {s t : State} (hc : MayReset c) (h : exec c s = .next t) : (core s).Lasts (core t) := by
  unfold MayReset at hc
  split at hc
  · next ns =>
    cases h
    dsimp only
    split
    · exact .refl _
    · split
      · exact lasts_resetState s
      · split
        · exact lasts_resetState (freshValue s).1
        · exact .refl _
  · cases h
    exact lasts_powerLost s
  · cases h
    dsimp only
    rw [core_emit]
    exact lasts_powerLost s
  · cases h
    dsimp only
    rw [if_pos hc]
    refine Core.Lasts.trans (y := core { s with power := _ }) ?_ (lasts_powerLost _)
    exact .refl _
  · exact hc.elim

/-! A step. -/

theorem step_keeps {s t : State} (hn : NoReset s) (h : step s = .next t) : (core s).Kept false (core t) := by
  cases hp : s.pending with
  | nil =>
    rw [step, hp] at h
    exact (keeps_next _ _).2 (kept_idle (.refl _ _)) t h
  | cons c rest =>
    rw [step, hp] at h
    exact exec_keeps c { s with pending := rest } (hn c (by rw [hp]; rfl)) t h

theorem step_lasts {s t : State} (h : step s = .next t) : (core s).Lasts (core t) := by
  by_cases hn : NoReset s
  · exact (step_keeps hn h).toLasts
  · obtain ⟨c, hc, hr⟩ : ∃ c, s.pending.head? = some c ∧ MayReset c := by simpa [NoReset] using hn
    obtain ⟨rest, hp⟩ : ∃ rest, s.pending = c :: rest := List.head?_eq_some_iff.1 hc
    rw [step, hp] at h
    exact exec_lasts_of_mayReset (s := { s with pending := rest }) hr h

/-- Settles O58: memory keeps its form in every function that writes it, and a reset leaves it. -/
theorem memoryStaysCanonical : Obligations.MemoryStaysCanonical := fun _ _ hs h => (step_lasts h).mem hs

end Sys2Proof.Machine
end

section
/-!
The safe state, and tensor keys, floors and revocation (R350 to R352, R356, R358).
-/

namespace Sys2Proof.Machine

/-! Entering the safe state takes the keys of die 0. -/

theorem security_foldl {α : Type} {f : State → α → State} (hf : ∀ t a, (f t a).security = t.security) (l : List α) (s : State) :
    (l.foldl f s).security = s.security := by
  induction l generalizing s with
  | nil => rfl
  | cons a l ih => exact (ih _).trans (hf s a)

theorem security_resetStope (s n) : (resetStope s n).security = s.security := rfl

theorem security_halfOff (s h) : (halfOff s h).security = s.security := by
  rw [halfOff, setDomain_security]
  exact security_foldl security_resetStope _ _

theorem security_makeSafe (s d reason replace) : (makeSafe s d reason replace).security =
    if d = 0 then { s.security with keys := [], kek := none, spdm := { s.security.spdm with session := none, pending := none } }
    else s.security := by
  have hh : ((halvesOf d).foldl halfOff s).security = s.security := security_foldl security_halfOff _ s
  unfold makeSafe
  dsimp only
  rw [setRouter_security, security_foldl (fun t i => setPort_security _ _ _)]
  split
  · dsimp only
    rw [setService_security, hh]
  · rw [setService_security, hh]

/-- The tensor keys and the key-wrapping key are gone. -/
def KeysGone (s : State) : Prop := s.security.keys = [] ∧ s.security.kek = none

theorem keysGone_makeSafe (s d reason replace) (h : d = 0 ∨ KeysGone s) : KeysGone (makeSafe s d reason replace) := by
  rw [KeysGone, security_makeSafe]
  split
  · exact ⟨rfl, rfl⟩
  · next hd => exact h.resolve_left hd

theorem keysGone_foldl {l : List Nat} {s : State} {reason : Nat} {replace : Bool} (h : 0 ∈ l ∨ KeysGone s) :
    KeysGone (l.foldl (fun t e => makeSafe t e reason replace) s) := by
  induction l generalizing s with
  | nil => exact h.resolve_left (by simp)
  | cons d l ih =>
    refine ih (h.elim (fun h0 => ?_) fun hs => .inr (keysGone_makeSafe _ _ _ _ (.inr hs)))
    exact (List.mem_cons.1 h0).elim (fun h0 => .inr (keysGone_makeSafe _ _ _ _ (.inl h0.symm))) .inl

theorem keysGone_stateChanged {s d n} (h : KeysGone s) : KeysGone (stateChanged s d n) := by
  rw [stateChanged_eq]
  exact h

theorem keysGone_enterSafe (s d reason replace) (hd : isSafe s d = false) (h0 : 0 ∈ deviceDies s d) :
    KeysGone (enterSafe s d reason replace) := by
  unfold enterSafe
  dsimp only
  rw [if_neg (by simp [hd])]
  exact keysGone_stateChanged (keysGone_foldl (.inl h0))

/-- Where a die is not safe, each die that it concerns is made safe for the reason. -/
theorem enterSafe_safe (s d reason replace) (hd : isSafe s d = false) : ∀ e ∈ deviceDies s d,
    isSafe (enterSafe s d reason replace) e = true ∧
      (service (enterSafe s d reason replace) e).reason = if anyDrain s (deviceDies s d) = true then 1 else reason := by
  obtain ⟨m, w, v, -, hv, hw, hvr, hwr, hc⟩ := core_enterSafe s d reason replace hd
  have hsvc : ∀ e ∈ deviceDies s d, (core (enterSafe s d reason replace)).svc e = v ∨ (core (enterSafe s d reason replace)).svc e = w := by
    intro e he
    rw [hc]
    cases hsp : s.split with
    | true =>
      obtain rfl : e = d := by simpa [deviceDies, hsp] using he
      exact .inl (Core.svc_putSvc_same _ _ (Service.ne_reset (by omega)))
    | false =>
      have he' : e = 0 ∨ e = 1 := by simpa [deviceDies, hsp] using he
      obtain rfl | rfl := he'
      · left
        rw [if_neg nofun, Core.svc_putSvc_ne _ _ (by decide), Core.svc_putSvc_same _ _ (Service.ne_reset (by omega))]
      · exact .inr (Core.svc_putSvc_same _ _ (Service.ne_reset (by omega)))
  intro e he
  rw [isSafe, ← core_svc]
  obtain h | h := hsvc e he
  · rw [h]; exact ⟨decide_eq_true hv, hvr⟩
  · rw [h]; exact ⟨decide_eq_true hw, hwr⟩

/-- Settles O53: what every step keeps of the safe dies, and what entering the safe state does. -/
theorem safeIsFinal : Obligations.SafeIsFinal := by
  refine ⟨fun s t hs hn h => (step_keeps hn h).safe hs, fun s d reason replace => ?_⟩
  intro t
  refine ⟨fun hd => ?_, fun hd e he => ?_⟩
  · exact if_pos hd
  · obtain ⟨hsafe, hr⟩ := enterSafe_safe s d reason replace hd e he
    exact ⟨hsafe, hr, fun h0 => keysGone_enterSafe s d reason replace hd (h0 ▸ he)⟩

/-! Keys, floors and revocation. -/

theorem svnRaise_eq {s : State} (hu : isSafe s 0 = false) {v : W32} (h16 : v.toNat / 2 ^ 16 = 0) (h7 : bitsOf v.toNat 7 3 = 0)
    (hst : bitsOf v.toNat 2 2 = 1 → bitsOf v.toNat 15 8 ≤ 64 ∧ s.security.floors.getD 2 0 ≤ bitsOf v.toNat 15 8) :
    svnRaise s (acting s 0) v = { s with security := { s.security with floors :=
      [if bitsOf v.toNat 0 0 = 1 then raised (s.security.floors.getD 0 0) s.security.hf else s.security.floors.getD 0 0,
       if bitsOf v.toNat 1 1 = 1 then raised (s.security.floors.getD 1 0) s.security.fm else s.security.floors.getD 1 0,
       if bitsOf v.toNat 2 2 == 1 then bitsOf v.toNat 15 8 else s.security.floors.getD 2 0] } } := by
  have hno : ¬(acting s 0 ≠ acting s 0 ∨ v.toNat / 2 ^ 16 ≠ 0 ∨ bitsOf v.toNat 7 3 ≠ 0 ∨
      ((bitsOf v.toNat 2 2 == 1) = true ∧ (64 < bitsOf v.toNat 15 8 ∨ bitsOf v.toNat 15 8 < s.security.floors.getD 2 0))) := by
    rintro (h | h | h | ⟨h, h'⟩)
    · exact h rfl
    · exact h h16
    · exact h h7
    · have := hst (by simpa using h)
      omega
  unfold svnRaise
  dsimp only
  rw [if_neg (by simp [hu]), if_neg hno]

theorem revokeWrite_eq {s : State} (hu : isSafe s 0 = false) (k : Fin 4) (hk : k.val ∉ s.security.revoked) (hl : s.security.revoked.length < 3)
    (hf : ∀ i, s.security.hf = some i → i.slot ≠ k.val) : revokeWrite s (acting s 0) (BitVec.ofNat 32 (16 + k.val)) =
      { s with security := { s.security with revoked := k.val :: s.security.revoked } } := by
  have hv : (BitVec.ofNat 32 (16 + k.val)).toNat = 16 + k.val := by simp; omega
  have hs : (16 + k.val) % 4 = k.val := by omega
  have h5 : (16 + k.val) / 2 ^ 5 = 0 := by omega
  have h32 : bitsOf (16 + k.val) 3 2 = 0 := by unfold bitsOf; omega
  have h44 : bitsOf (16 + k.val) 4 4 = 1 := by unfold bitsOf; omega
  have hc : s.security.revoked.contains k.val = false := by simpa using hk
  have ha : s.security.hf.any (fun i => i.slot == k.val) = false := by
    cases hh : s.security.hf with
    | none => rfl
    | some i => simpa using hf i hh
  unfold revokeWrite
  simp only [hv, hs, hu, hc, ha, h5, h32, h44]
  simp
  omega

/-- Settles O54: what every step keeps, and each command by its function's branch. -/
theorem keysAndFloors : Obligations.KeysAndFloors := by
  refine ⟨fun s t h => ⟨(step_lasts h).floors, fun k hk => (step_lasts h).revoked hk⟩, fun s w hu => ?_⟩
  intro x with_ floors
  refine ⟨fun hm => ?_, fun hw => ?_⟩
  · have hcmd : ∀ act, keyCmd s w act = with_ act.1 act.2 := fun act => by
      rw [keyCmd, if_neg (by simp [hu]), if_neg (by simp [hm])]
    refine ⟨fun hk => ?_, fun kek hk hp hg hl he => ?_, fun hp => ?_, ?_⟩
    · rw [exec, execKeyInstall, hcmd, installKey, hk]
    · rw [exec, execKeyInstall, hcmd, installKey, hk]
      dsimp only
      cases Crypto.keyUnwrap kek (sliceB (keyIn s) 8 72) with
      | none => rfl
      | some key =>
        dsimp only
        have hl' : s.security.keys.length < 2048 := hl
        rw [if_neg (by simp [hp, he]; omega)]
    · rw [exec, execKeyRetireOne, hcmd, retireOne, if_pos hp]
    · rw [exec, execKeyRetireAll, hcmd]
  · subst hw
    intro f
    refine ⟨?_, ?_, fun v hv hf => ?_, fun k hk hl hf => ?_⟩
    · rw [exec, execSvnRaiseHeadframe, svnRaise_eq hu (by decide) (by decide) (fun h => absurd h (by decide))]
      rfl
    · rw [exec, execSvnRaiseForeman, svnRaise_eq hu (by decide) (by decide) (fun h => absurd h (by decide))]
      rfl
    · have hn : (BitVec.ofNat 32 (4 + 256 * v.toNat)).toNat = 4 + 256 * v.toNat := by simp; omega
      have hb : bitsOf (4 + 256 * v.toNat) 15 8 = v.toNat := by
        simp only [bitsOf, Nat.shiftRight_eq_div_pow]
        omega
      have h0 : bitsOf (4 + 256 * v.toNat) 0 0 = 0 := by simp only [bitsOf, Nat.shiftRight_eq_div_pow]; omega
      have h1 : bitsOf (4 + 256 * v.toNat) 1 1 = 0 := by simp only [bitsOf, Nat.shiftRight_eq_div_pow]; omega
      have h2 : bitsOf (4 + 256 * v.toNat) 2 2 = 1 := by simp only [bitsOf, Nat.shiftRight_eq_div_pow]; omega
      have h7 : bitsOf (4 + 256 * v.toNat) 7 3 = 0 := by simp only [bitsOf, Nat.shiftRight_eq_div_pow]; omega
      rw [exec, execSvnRaiseStope, svnRaise_eq hu (by rw [hn]; omega) (by rwa [hn]) (fun _ => by rw [hn, hb]; exact ⟨hv, hf⟩)]
      simp only [hn, h0, h1, h2, hb]
      rfl
    · rw [exec, execRevoke, revokeWrite_eq hu k hk hl hf]

end Sys2Proof.Machine
end

section
/-!
Time, and the muster (R267 to R271, R310 to R317, R377).
-/

namespace Sys2Proof.Machine

/-! Entering the safe state leaves time as it is. -/

theorem enterSafe_time (s d reason replace) :
    (enterSafe s d reason replace).times = s.times ∧ (enterSafe s d reason replace).boot.up = s.boot.up := by
  cases hd : isSafe s d with
  | true =>
    have h : enterSafe s d reason replace = s := if_pos hd
    rw [h]
    exact ⟨rfl, rfl⟩
  | false =>
    obtain ⟨m, w, v, -, -, -, -, -, hc⟩ := core_enterSafe s d reason replace hd
    have ht : ∀ x : Core, (core (enterSafe s d reason replace) = x) →
        (enterSafe s d reason replace).times = x.times ∧ (enterSafe s d reason replace).boot.up = x.up := by
      rintro x rfl
      exact ⟨rfl, rfl⟩
    have h := ht _ hc
    split at h <;> exact h

theorem longDoubt_enterSafe (s d reason replace e) : longDoubt (enterSafe s d reason replace) e = longDoubt s e := by
  obtain ⟨ht, hu⟩ := enterSafe_time s d reason replace
  unfold longDoubt timeBlk elapsed
  rw [ht, hu]

/-- Settles O36: each command by its branch; a die that enters the safe state leaves the other's time, and so its doubt, as they are. -/
theorem timeCommands : Obligations.TimeCommands := by
  intro s die d t u
  refine ⟨fun hb hs hu ht => ?_, fun h1 hr hu hl => ?_, fun h0 h1 => ?_, fun h0 h1 => ?_, fun hr hp hu h1 ha => ?_, fun high hh hp hn => ?_,
    fun high r hh hp hr => ?_, rfl⟩
  · rw [exec, execBridgeTimeExchange]
    rw [if_pos (by simp [hb, hs, show isSafe s die.val = false from hu, show (timeBlk s die.val).bridgeSent + 1000000 ≤ elapsed s from ht])]
  · rw [exec, execTimeSourceTimeout]
    rw [if_pos (by simp [show (timeBlk s die.val).st = 1 from h1, show isTimeRoot s die.val = false from hr, show isSafe s die.val = false from hu,
      show (timeBlk s die.val).lastValid + 10000000 ≤ elapsed s from hl])]
  · rw [exec, execTimeDoubtSafeTimeout]
    have hd : d = 0 ∨ d = 1 := by omega
    obtain h | h := hd <;> simp_all
  · have h1' : longDoubt s 1 = true := by rwa [longDoubt_enterSafe] at h1
    simp [exec, execTimeDoubtSafeTimeout, h0, h1']
  · rw [exec, execPpsAbsenceTimeout]
    rw [if_pos (by simp [hr, hp, hu, h1, ha])]
  · rw [exec, execPpsEdge]
    dsimp only
    rw [if_neg (by simp [hp]; omega), hn]
  · intro y
    have he : exec (.ppsEdge high) s = .next (
        if 1001000000 < y.now - r then setTime s 0 { y with ppsRef := some y.now, ppsRow := 0 }
        else if y.now - r < 999000000 then s
        else
          let s1 := setTime s 0 { y with
            ppsRef := some y.now, ppsAt := y.now, ppsRow := y.ppsRow + 1, slew := if isTimeRoot s 0 then aheadOfSecond y.now else y.slew }
          if y.st = 2 ∧ isTimeRoot s 0 = true ∧ 2 ≤ y.ppsRow + 1 then agreeTime s1 0 else s1) := by
      rw [exec, execPpsEdge]
      dsimp only
      rw [if_neg (by simp [hp]; omega), hr]
    refine ⟨fun h => ?_, fun h => ?_, fun hlo hhi => ?_⟩
    · rw [he, if_pos h]
    · have h1 : ¬1001000000 < y.now - r := Nat.not_lt.2 (Nat.le_trans (Nat.le_of_lt h) (by decide))
      rw [he, if_neg h1, if_pos h]
    · intro taken
      have h1 : ¬1001000000 < y.now - r := Nat.not_lt.2 hhi
      have h2 : ¬y.now - r < 999000000 := Nat.not_lt.2 hlo
      refine ⟨fun hst hroot hrow => ?_, fun h => ?_⟩
      · rw [he, if_neg h1, if_neg h2]
        dsimp only
        rw [if_pos ⟨hst, hroot, hrow⟩]
      · rw [he, if_neg h1, if_neg h2]
        dsimp only
        rw [if_neg]
        rintro ⟨hst, hroot, hrow⟩
        obtain h | h | h := h
        · exact h hst
        · rw [hroot] at h
          cases h
        · omega

/-! The muster. -/

theorem frameAfter_of_none {s : State} (h : s.boot.cycleFrame = none) : frameAfter s = s := by
  unfold frameAfter
  rw [h]

theorem muster_takes {s : State} {bs : List Byte} (hu : isSafe s 0 = false) (he : musterExpired s = false) (ha : s.boot.assigned = false)
    (hn : leAt bs 4 2 % 2 ^ 15 < 16384) : muster s bs = nodeTaken (emit { s with boot := { s.boot with
      frames := upTo255 s.boot.frames, cycleFrame := some (bs, s.boot.overflow), node := leAt bs 4 2 % 2 ^ 15, assigned := true, byHost := false
      profile := sliceB bs 8 48 } } (forwardMuster bs (leAt bs 4 2 % 2 ^ 15 + 1) (Nat.min 65535 (leAt bs 6 2 + 1)))) := by
  unfold muster
  dsimp only
  simp only [ha, hu, he, Bool.false_eq_true, if_false, false_and, or_false]
  rw [if_neg (by omega)]

theorem assign_takes {s : State} {w : Agent} {v : W32} (hr : s.boot.released = true) (hu : isSafe s 0 = false) (hv : v.toNat < 2 ^ 14)
    (he : musterExpired s = false) (ha : (frameAfter s).boot.assigned = false) : assignNode s w v = nodeTaken { frameAfter s with
      boot := { (frameAfter s).boot with node := v.toNat, assigned := true, byHost := true, profile := profileIn s, cycleAssign := true } } := by
  unfold assignNode
  rw [if_neg (by simp [hr]), if_neg (by simp [hu]), if_neg]
  simpa [ha, he] using hv

/-- Settles O48: what every step keeps of a held node, and each command by its branch. -/
theorem musterAndJoin : Obligations.MusterAndJoin := by
  refine ⟨fun s t hn h ha hf hc => ?_, fun s hr => ⟨fun bs hl => ?_, ?_, fun w v hu hv ha he hf => ?_, fun w v hu => ?_,
    fun w v bs ov hu hv he hf => ?_, fun off v hc => ⟨_, if_pos hc, rfl⟩, fun ha hup => ?_, fun hx => ?_, fun h1 h4 t0 t1 => ?_,
    fun t0 ht hle hd hs => ?_⟩⟩
  · obtain ⟨hheld, hnode, hp⟩ := (step_keeps hn h).node ⟨ha, hf, hc⟩
    exact ⟨hheld.1, hnode, hp⟩
  · intro nn
    have he : exec (.musterFrame bs) s = .next (if musterOk bs then muster s bs else chainError s) := by
      rw [exec, execMusterFrame, if_neg (by simp [hr, hl])]
    refine ⟨fun hb => ?_, fun hb hu hx ha hn => ?_⟩
    · rw [he, hb]
      rfl
    · exact ⟨_, he.trans (congrArg Host.Outcome.next ((if_pos hb).trans (muster_takes hu hx ha hn))), rfl, rfl, rfl, rfl, rfl⟩
  · rw [exec, execChainFrameGap, if_pos hr]
    rfl
  · rw [exec, execAssign, assign_takes hr hu hv he (by rw [frameAfter_of_none hf]; exact ha), frameAfter_of_none hf]
  · rw [exec, execAssign, assignNode, if_neg (by simp [hr]), if_pos hu]
  · have hfa : frameAfter s = { s with
        out := chainInstead (forwardMuster bs (leAt bs 4 2 % 2 ^ 15) (leAt bs 6 2)) s.out
        boot := { s.boot with assigned := false, overflow := ov, cycleFrame := none } } := by
      unfold frameAfter
      rw [hf]
    have ht := assign_takes (w := w) hr hu hv he (by rw [hfa])
    rw [hfa] at ht
    exact ⟨_, congrArg Host.Outcome.next ht, rfl, rfl, rfl, rfl, rfl⟩
  · rw [exec, execMusterExpiry, if_pos ⟨hr, ha, hup⟩]
  · rw [Boot.endCycle, hx, Bool.true_and]
  · rw [exec, execDeviceReady, if_pos ⟨h1, h4, t0, t1⟩]
  · rw [exec, execPeerDisagreementTimeout, ht]
    dsimp only
    rw [if_pos ⟨hle, hd, hs⟩]

end Sys2Proof.Machine
end
